-- ==== Sys2Proof/Word.lean ====
section
/-! DEFINITION. The word types of the SNX-4180 and their plainest arithmetic (R9: little-endian, bit 0 least significant). -/

namespace Sys2Proof

/-- One byte of a payload, a reply, a record or a non-volatile image. -/
abbrev Byte := BitVec 8

/-- One 32-bit parameter value, table word or handle. -/
abbrev Word := BitVec 32

/-- A word from a natural number, modulo 2^32. -/
def w32 (n : Nat) : Word := BitVec.ofNat 32 n

/-- A byte from a natural number, modulo 2^8. -/
def b8 (n : Nat) : Byte := BitVec.ofNat 8 n

end Sys2Proof
end

