-- ==== Sys2Proof/Syntax.lean ====
section
/-! DEFINITION. The commands and events that change the receiver, one constructor per row of spec/opcode_table.json, in the table's order, with the structured operands they carry. An event row's operands are the measurements or the bus traffic that the outside world supplies at that moment. -/

namespace Sys2Proof

/-- The supply rails of Table 21-3, in the order of the SYS_SUPPLY bits (Table 20-6). -/
inductive Rail where
  | core | adc | an | ao | io | pa | dac
deriving DecidableEq, Repr

/-- The three loops of R357, in the numbering of Table 20-2 event 8. -/
inductive PLoop where
  | spll | cpll | lpll
deriving DecidableEq, Repr

/-- Everything the receiver measured over the tick that ends at a boundary. -/
structure TickMeas where
  /-- The samples of ADC-A and ADC-B over the tick, 14 bits signed, oldest first, 16 to a studio count; empty for a converter that does not run. -/
  adcA : List Int
  adcB : List Int
  /-- Die temperature, 0.1 degC, when measured (R396). -/
  dieTemp : Option Int
  /-- Rate of XO32K against the TCXO, 0.01 ppm, when measured (R354). -/
  aoPpm : Option Int
  /-- Studio-link RSSI, 0.1 dBm, when in RX. -/
  linkRssi : Option Int
  /-- Ticks of calendar entries that failed their parity check (R575), and that the Director rebuilt. -/
  rebuilt : List Nat
  /-- Studio times of the FS edges of the tick, oldest first, where the audio port is a target (R454). -/
  fs : List Nat
deriving DecidableEq, Repr

/-- One entry of PARAM_WRITE: an address and a value. -/
structure PWrite where
  addr : Nat
  value : Word
deriving DecidableEq, Repr

/-- What a profile or image read returned over the NVM bus: `none` where the bus did not deliver it, else its bytes. -/
abbrev NvmRead := Option (List Byte)

/-- The place of a quantity that an event row names and that the receiver computes from its own state (log entry 4): it carries nothing. -/
structure Computed where
deriving DecidableEq, Repr

/-- Commands and events, one constructor per row of the operation table. -/
inductive Instr where
  | tickBoundary (m : TickMeas)
  | registerWrite (addr : Nat) (value : Word)
  | vddAoValid
  | powerUpBootStart
  | aoStartupTimeout
  | resetNAssert (lowNs : Nat)
  | resetNRelease (addrPins profPins : Nat)
  | railBelowWarning (r : Rail)
  | railBelowValid (r : Rail)
  | railRecovered (r : Rail)
  | vddIoValid (mv : Nat)
  | vddDacValid (mv clrsel : Nat)
  | vddDacLoss
  | directorWatchdogReset (tick : Nat)
  | secondBoundary
  | tickPulseEnd
  | leapSecondInsert
  | tcxoSettled
  | tcxoFail
  | tcxoRecovered
  | xo32kFail
  | loopLock (l : PLoop)
  | loopLockLost (l : PLoop)
  | coastDriftCheck (l : PLoop) (drift : Int)
  | coastTimeout (l : PLoop)
  | loopRelock (l : PLoop) (phiPs : Int)
  | loopSlewEnd (l : PLoop)
  | pwrModeRun
  | pwrModeSketch
  | pwrModeDeepSleep
  | sketchWake (entry : Nat) (firstSampleAt : Nat)
  | glimpseEnd (entry : Nat)
  | ctlOnlyWake
  | hostHoldExpire
  | wakePinRise
  | deepWakeTimer
  | hostAddressMatchSleep
  | hostAddressMatchDeep
  | fePathEnWrite (fe : Nat) (value : Word)
  | feAgcModeWrite (fe : Nat) (value : Word)
  | feAttnManWrite (fe : Nat) (value : Word)
  | agcReleaseStep (fe : Nat)
  | overloadDeclared (fe clipped : Nat)
  | ovlReturnStep (fe : Nat)
  | feInjStart (fe : Nat)
  | feInjStop (fe : Nat) (level : Int)
  | injectionEnd (fe : Nat) (level : Int)
  | divEstimateBlock (lane pa pb : Nat) (cRe cIm : Int) (noise : Nat)
  | divOvlReturn (fe : Nat)
  | sparePassDone (adc : Nat) (offset gain skew : Int)
  | handoverDue (adc : Nat)
  | handoverCompareDone (adc rmsMilliLsb : Nat)
  | winCentreWrite (win : Nat) (value : Word)
  | winSrcWrite (win : Nat) (value : Word)
  | winExportWrite (win : Nat) (value : Word)
  | cnvCommit
  | winCapArm (win : Nat)
  | winCapTriggerNow (win : Nat)
  | winCapStartExport (win : Nat)
  | winCapRelease (win : Nat)
  | captureTrigger (win causes : Nat)
  | captureRingFull (win : Nat)
  | capturePostComplete (win : Nat)
  | captureExportDone (win : Nat)
  | laneStart (lane : Nat)
  | laneNcoWrite (lane : Nat) (value : Word)
  | laneBankNextWrite (lane : Nat) (value : Word)
  | bankFadeEnd (lane : Nat)
  | pilotLock (lane : Nat)
  | pilotUnlock (lane : Nat)
  | carrierFound (lane : Nat)
  | carrierLost (lane : Nat)
  | amLoopLock (lane : Nat)
  | amLoopUnlock (lane : Nat)
  | fmsLaneWrite (slot : Nat) (value : Word)
  | fmsDestWrite (slot : Nat) (value : Word)
  | amsLaneWrite (slot : Nat) (value : Word)
  | amsDestWrite (slot : Nat) (value : Word)
  | slotAttach (fm : Bool) (slot : Nat)
  | dabNullDetected (ens : Nat) (sample : Computed := ⟨⟩)
  | dabPhaseReference (ens : Nat) (peakOk offsetCarriers cfo firstPath strongest : Computed := ⟨⟩)
  | dabFicDecoded (ens : Nat) (refTime cif block fibs : Computed := ⟨⟩)
  | dabFrameJudged (ens : Nat) (nullFound : Computed := ⟨⟩)
  | dabCifDecoded (ens : Nat) (cif frames : Computed := ⟨⟩)
  | dabReconfiguration (ens : Nat)
  | dabSuperframeDecoded (job : Nat) (cif refTime fireOk corrected uncorrectable data : Computed := ⟨⟩)
  | dabTiiMeasurementEnd (ens : Nat) (pairs : Computed := ⟨⟩)
  | trellisBlockDone
  | drmModeIdentified (ch : Nat) (mode : Computed := ⟨⟩)
  | drmTimeReference (ch : Nat) (cfo : Computed := ⟨⟩)
  | drmFrameSearchTimeout (ch : Nat)
  | drmFacBlock (ch : Nat) (refTime crcOk fac : Computed := ⟨⟩)
  | drmSdcBlock (ch : Nat) (refTime crcOk bytes entities : Computed := ⟨⟩)
  | drmFrameJudged (ch : Nat) (trefFound : Computed := ⟨⟩)
  | drmMscFrame (ch : Nat) (refTime corrected streams : Computed := ⟨⟩)
  | drmReconfiguration (ch : Nat)
  | rdsBlockReceived (lane : Nat) (blk : Computed := ⟨⟩)
  | rdsGroup (lane : Nat) (refTime a b c_ d : Computed := ⟨⟩)
  | galleryAgeing
  | galCtrlPin (entry : Nat)
  | galCtrlUnpin (entry : Nat)
  | galCtrlDelete (entry : Nat)
  | timeSourceTimeout
  | alarmInstanceStart
  | alarmInstanceEnd
  | alarmSignalTimeout (inst : Nat)
  | alarmLostHoldExpire (inst : Nat)
  | alertRelease
  | memberVisitEnd (inst lane : Nat) (score : Computed := ⟨⟩)
  | memberParkEnd (inst lane : Nat)
  | verificationExpire (inst member : Nat)
  | estimateComplete (inst member : Nat) (lag rho psr usable tx : Computed := ⟨⟩)
  | reestimateDue (inst member : Nat)
  | linkRefCommit (inst : Nat)
  | linkSlewEnd (inst : Nat)
  | lnkForceWrite (inst : Nat) (value : Word)
  | linkFadeStart (inst : Nat)
  | linkFadeEnd (inst : Nat)
  | hardSwitchRampIn (inst : Nat)
  | swatchIntervalEnd (job : Nat) (data : Computed := ⟨⟩)
  | swtLogRdWrite (value : Word)
  | jobTimedStart (job : Nat)
  | jobDurationEnd (job : Nat)
  | jobWithdrawEffect (job : Nat)
  | jobRenewal (job : Nat)
  | recordSend
  | probeRecordShed
  | strEnWrite (value : Word)
  | strCrdEdge
  | audCfgWrite (value : Word)
  | audioFrameClockAccept (ppm : Int)
  | audioFrameClockOutOfRange (ppm : Int)
  | audioFrameClockLoss
  | nvmHeaderRead (r : NvmRead)
  | journalRead (a b : NvmRead)
  | profileReadChecked (p : Nat) (first second : NvmRead)
  | profileApply
  | jobSectionApply
  | bootDone
  | nvmArbitrationLost
  | nvmBusBusyTimeout
  | nvmNoAckRetry (waitedUs : Nat)
  | nvmBusClear (pulses : Nat) (released : Bool)
  | journalWriteDue
  | journalReadback (ok : Bool)
  | bootJrnlCtrlWrite (value : Word)
  | profileSwitch
  | scanVisitEnd (lane : Nat)
  | scanEnd
  | fRescanDue
  | ladderRunStart (fe : Nat)
  | calCtrlLadderRun (fe : Nat)
  | calCtrlDacRestart
  | temperatureStep (temp : Int)
  | ladderComparisonStart (fe section_ : Nat)
  | ladderComparisonDone (fe : Nat) (diff : Int)
  | referenceEstimate (sources : Computed := ⟨⟩)
  | dacSenseMeasure (ch : Nat) (code : Nat) (reading : Int)
  | commandFrameDiscard (cause : Nat)
  | commandWriteBusy
  | replyRead (bytes : Nat)
  | nrdStretchTimeout
  | sclTimeout (writing : Bool)
  | sdaStuck
  | attentionRequest
  | attentionWaitTimeout
  | attentionArbitrationLost
  | hello (minV maxV : Nat)
  | paramRead (addrs : List Nat)
  | paramWrite (entries : List PWrite)
  | tableRead (table first n : Nat)
  | tableWrite (table first : Nat) (words : List Word)
  | eventRead
  | eventClear (bits : BitVec 64)
  | jobSubmit (descriptor : List Byte)
  | jobWithdraw (job : Nat)
  | jobStatus (job : Nat)
  | profile (p : Nat) (first second : NvmRead)
  | v1Status
  | v1Tune (kHz band : Nat)
  | v1Rds
  | v1Events
  | lnkSetState (state : Nat) (maskPass : Bool) (maskWord : Word)
  | lnkStateApply
  | lnkSend (payload : List Byte)
  | lnkCancel (id : Nat)
  | lnkPeer (idx : Nat)
  | lnkFreqWrite (value : Word)
  | lnkCfgWrite (value : Word)
  | lnkLevelDetect (rssi : Int)
  | lnkPreambleQualified (quality : Nat) (afc level : Int) (aerial : Nat)
  | lnkSyncDetected (rssi : Int)
  | lnkSyncTimeout
  | lnkCaptureRestart (level afc : Int) (aerial corrected n : Nat)
  | lnkFrameEnd (air : List Int)
  | lnkTxDue
  | coexGntRise
  | coexWaitTimeout
  | coexGntFall
  | lnkTxEnd
  | lnkTxLate
  | lnkAlarmCopyDue
  | lnkDutyMinute
  | dacCodeWrite (ch : Nat) (value : Word)
  | dacRangeWrite (ch : Nat) (value : Word)
  | dacSineStart (ch : Nat)
  | dacSineStop (ch : Nat)
  | dacUpdateEdge
  | dacClrNFall (clrsel : Nat)
  | dacClrNRise
  | varKeyLoad (blob : List Byte)
  | varKeyErase (slots : Nat)
  | varStart (ctx slot kind : Nat)
  | varUpdate (ctx : Nat) (msg : List Byte)
  | varFinish (ctx t : Nat) (tag : List Byte)
  | varCtxSave (ctx wrapped : Nat)
  | varCtxLoad (ctx : Nat) (image : List Byte)
  | varAttach (job slot mode t stream : Nat)
  | varDetach (job : Nat)
  | verifiedMessageVerdict (job : Nat)
  | varnishFaultAlarm (use job : Nat)
  | sealOpen (slot : Nat) (nonce : List Byte)
  | sealCmd (counter : Word) (inner : Nat) (payload tag : List Byte) (first second : NvmRead)
  | sealClose
  | sealStatus
  | evtPendWrite (high : Bool) (value : Word)
  | evtMaskWrite (which : Nat) (value : Word)
  | eventRecordEmit (event : Nat)
  | satBitClear (addr : Nat) (bits : Word)
  | commandUnlistedCode (code len : Nat)
  | attentionRequestCompleted
  | sdaStuckEnd
  | wakePinFall
  | stepAlignmentEnd (l : PLoop)
  | laneFirstOutputSample (lane : Nat)
  | windowFirstOutputSample (win : Nat)
  | slotRampInComplete (fm : Bool) (slot : Nat)
deriving DecidableEq, Repr

end Sys2Proof
end

