-- ==== Sys2Proof/Decode.lean ====
section
/-! DEFINITION. Commands spelled by words: the operation table gives no row any bits, since commands and events are structured. -/

namespace Sys2Proof

/-- The command that a word of the operation table spells: no row gives bits, so no word spells one. -/
def decodeTableWord (_nbits _w : Nat) : Option Instr := none

end Sys2Proof
end

