-- ==== Sys2Proof/Machine/Crc.lean ====
section
/-! DEFINITION. The check codes of the manual: CRC-8 of the host bus (R407), CRC-16 of the Studio link (R494) and CRC-32C of the Easel image and the journal (R470). -/

namespace Sys2Proof.Machine

/-- `n` steps of a most-significant-first CRC register of width `w`. -/
def crcBits (w : Nat) (poly : BitVec w) : Nat → BitVec w → BitVec w
  | 0, r => r
  | n + 1, r => crcBits w poly n (if r.msb then (r <<< 1) ^^^ poly else r <<< 1)

/-- CRC-8, polynomial 0x07, from `r` on (R407). -/
def crc8From (r : Byte) : List Byte → Byte
  | [] => r
  | b :: t => crc8From (crcBits 8 0x07 8 (r ^^^ b)) t

/-- CRC-8 with initial value 0x00. -/
def crc8 (l : List Byte) : Byte := crc8From 0 l

/-- CRC-16, polynomial 0x1021, most significant bit first, from `r` on. -/
def crc16From (r : BitVec 16) : List Byte → BitVec 16
  | [] => r
  | b :: t => crc16From (crcBits 16 0x1021 8 (r ^^^ (b.setWidth 16 <<< 8))) t

/-- CRC-16 with initial value 0xFFFF. -/
def crc16 (l : List Byte) : BitVec 16 := crc16From 0xFFFF l

/-- `n` steps of the reflected CRC-32C register. -/
def crc32Bits : Nat → Word → Word
  | 0, r => r
  | n + 1, r => crc32Bits n (if r.getLsbD 0 then (r >>> 1) ^^^ 0x82F63B78 else r >>> 1)

def crc32From (r : Word) : List Byte → Word
  | [] => r
  | b :: t => crc32From (crc32Bits 8 (r ^^^ b.setWidth 32)) t

/-- CRC-32C: reflected polynomial 0x1EDC6F41, initial value and final XOR all ones. -/
def crc32c (l : List Byte) : Word := crc32From 0xFFFFFFFF l ^^^ 0xFFFFFFFF

end Sys2Proof.Machine
end

