-- ==== Sys2Proof/Config.lean ====
section
/-! DEFINITION. What one die or one environment fixes and the manual leaves open: every constant here is opaque, so no proof can see its value. -/

namespace Sys2Proof.Config

/-- Mask step of the die, SYS_ID[23:16] (R574, Table 20-6: "Fixed by the die"). Free value, log entry 5. -/
opaque siliconStep : Byte

/-- Director microcode version, SYS_ID[31:24]. Free value, log entry 5. -/
opaque romVersion : Byte

/-- Coefficient `c` of factory Palette bank `b` (R122, Table 04-6 gives properties, not values). Free value, log entry 6. -/
opaque factoryCoefficient : Nat → Nat → BitVec 18

/-- The n-th free value: what the manual leaves undefined after the machine goes on. Log entry 7. -/
opaque freeValue : Nat → Word

/-- Factory trim of G_x of front end `fe` at -40, 25 and 110 degC (R398), 0.001 dB. Free value, log entry 13. -/
opaque factoryGain : Nat → Nat → BitVec 15

/-- Byte `i` of the device root key of R539. Free value, log entry 8. -/
opaque rootKeyByte : Nat → Byte

/-- Byte `i` of the key that wraps context images of R545. Free value, log entry 8. -/
opaque contextKeyByte : Nat → Byte

/-- The two keys, 32 bytes each. -/
def rootKey : List Byte := (List.range 32).map rootKeyByte
def contextKey : List Byte := (List.range 32).map contextKeyByte

/-- Entry `i` of the quarter-wave table of the sine generators (R533 gives its size and format, not its values). Free value, log entry 10. -/
opaque quarterSine : Nat → BitVec 15

/-- Byte `i` of the noise source's `n`-th output (receiver nonces of R554). Free value, log entry 9. -/
opaque noise : Nat → Nat → Byte

/-! The signal path: tables and coefficients that the manual fixes by their properties and not by their values (log entry 61). -/

/-- Q15 factor that compensates a calibrated attenuation, 0.001 dB, in the samples (R45 gives the ratio between two settings, not the reference). -/
opaque compensation : Nat → Nat

/-- Cosine and sine of the window and lane NCOs for the top 18 bits of the phase, Q1.15, amplitude 32,767 (R73, R103). -/
opaque ncoCos : Nat → BitVec 16
opaque ncoSin : Nat → BitVec 16

/-- The droop compensator's coefficients 0 to 10; 11 to 20 mirror them (R76, Table 03-1). -/
opaque droop : Nat → BitVec 18

/-- Tap `t` of half-band stage `s` (1 to 6), linear or minimum phase (R116, Table 04-4). -/
opaque halfBand : Bool → Nat → Nat → BitVec 18

/-- Taps of the fixed 100 to 120 kHz band-pass of the multiplex noise (R139), of the 2 kHz high-pass of the envelope (R140), Q16. -/
opaque noiseBand : Nat → BitVec 18
opaque envelopeHigh : Nat → BitVec 18

/-- Complex taps of the three bands of R141 at 512 kS/s: 0 the lower, 1 the wanted, 2 the upper band, Q16. -/
opaque adjacentRe : Nat → Nat → BitVec 18
opaque adjacentIm : Nat → Nat → BitVec 18

/-- Proportional and integral gains, Q16, of a loop: 0 the pilot tracker (R138), 1 the RDS subcarrier's own recovery, 2 + b the synchronous
AM loop at DMD_AM_PLL_BW = b (R154). -/
opaque loopGain : Nat → BitVec 18 × BitVec 18

/-- Taps of the 127-tap slot filter and of the 65-tap AM low-pass (R144, R155), Q16. -/
opaque slotTap : Nat → BitVec 18
opaque amTap : Nat → BitVec 18

/-- Coefficients b0, b1, a1 in Q16 of a first-order section at 32 kS/s: the high cut by its corner in 100 Hz (R148), the de-emphasis by
FMS_CFG[1:0] (R149), and the 80 Hz high-pass at 64 kS/s (R155). -/
opaque highCutSection : Nat → Int × Int × Int
opaque deemphasis : Nat → Int × Int × Int
opaque highPass80 : Int × Int × Int

/-- A gain of `n` half decibels as a Q16 factor (R144, R150, R155). -/
opaque gainHalfDb : Int → Nat

/-- Taps of the 127-tap low-pass of the correlation signal at 256 kS/s, Q16, and its first-order sections at 8 kS/s by LNK_CFG[6:5] (R278). -/
opaque corrTap : Nat → BitVec 18
opaque corrDeemphasis : Nat → Int × Int × Int

/-- Tap `j` (0 to 5) of the Farrow resampler at a position of `f` / 65,536 samples, Q16 (R456 gives its performance). -/
opaque farrowTap : Nat → Nat → BitVec 18

/-- Phase of the mode I phase reference at each of the 1,536 carriers, in quarter turns; the profile of a UEP table index, as blocks of 128 bits with their
puncturing vectors (EN 300 401); and the scale from a product to a soft value, Q16 (R170). -/
opaque dabReference : Nat → BitVec 2
opaque uepProfile : Nat → List (Nat × Nat)
opaque dabSoft : Nat

/-! DRM: tables and rules of ES 201 980, and filters that the manual does not state (R204 to R216, log entry 63). Modes are 0 to 4 for A to E. -/

/-- Lowest and highest carrier of a mode at a spectrum occupancy. -/
opaque drmBand : Nat → Nat → Int × Int

/-- Value of the gain reference cell at a symbol of the frame and a carrier; zero where there is none. -/
opaque drmGain : Nat → Nat → Int → Int × Int

/-- Time reference cells of a mode's first symbol, each a carrier and its value; frequency reference carriers. -/
opaque drmTimeCells : Nat → List (Int × Int × Int)
opaque drmFreqCells : Nat → List Int

/-- What a cell carries, by mode, occupancy, frame of the super frame, symbol and carrier: 1 FAC, 2 SDC, 3 MSC, else nothing. -/
opaque drmCell : Nat → Nat → Nat → Nat → Int → Nat

/-- Taps of the resampler by its phase in 2^-24 / 3 samples (R204), and of the interpolation over pilot carriers by spacing, half length and place (R213), Q15. -/
opaque drmResample : Nat → Nat → BitVec 16
opaque drmSinc : Nat → Nat → Nat → Nat → BitVec 16

/-- Half decibels below the strongest tap at which a path counts (R213). -/
opaque drmPathThr : Nat

/-- Bits that amplitude `a` of 2^l carries in one dimension. -/
opaque drmLabel : Nat → Nat → Nat

/-- Which of `n` cells of the interleaved sequence holds cell `p`; which of `n` coded bits of a level holds bit `p` (block kind, level). -/
opaque drmCellPlace : Nat → Nat → Nat
opaque drmBitPlace : Nat → Nat → Nat → Nat → Nat

/-- Puncturing pattern of a level over the mother code, by block kind, mode, levels, level, protection and coded bits, and the decoded bits that belong to part A. -/
opaque drmPuncture : Nat → Nat → Nat → Nat → Nat → Nat → List Bool
opaque drmPartA : Nat → Nat → Nat → Nat → Nat → Nat → Nat

/-- Which of the ten announcement flags of SDC 6 is the alarm flag. -/
opaque drmAlarmFlag : Nat

/-- The scale from a log-likelihood to a soft value, Q16 (R214). -/
opaque drmSoft : Nat

end Sys2Proof.Config
end

