-- ==== Sys2Proof/Machine/Params.lean ====
section
/-! DEFINITION. The parameter space (R572 to R574): one row per parameter of the owning tables, with its field, access code, reset value and SAT bit, and the map from an address to its row. -/

namespace Sys2Proof.Machine

/-- Access codes of Table 00-3. -/
inductive Acc where
  | rw | ro | rs | w1c | wo | rws
deriving DecidableEq, Repr

/-- One row of a parameter table. -/
structure PRow where
  /-- Offset inside its block (page, lane, slot or channel). -/
  off : Nat
  /-- The bits that the table gives the field, reserved sub-fields left out (R10, R572). -/
  mask : Nat
  acc : Acc
  /-- Value after RESET_N (R12). -/
  rst : Nat
  /-- Width of a signed field narrower than 32 bits, else 0 (R572). -/
  sgn : Nat
  /-- The offset and bit of its SAT bit, for a counter (R565). -/
  sat : Option (Nat × Nat)
  /-- Its Meaning says "write 0 to clear" (Table 00-3). -/
  clr : Bool
  /-- How many times the row repeats, and at what step. -/
  cnt : Nat
  stride : Nat
deriving DecidableEq, Repr

/-- A plain row. -/
def prow (off mask : Nat) (acc : Acc) (rst : Nat) : PRow :=
  { off := off, mask := mask, acc := acc, rst := rst, sgn := 0, sat := none, clr := false, cnt := 1, stride := 1 }

/-- A signed field of `w` bits. -/
def PRow.signed (w : Nat) (r : PRow) : PRow := { r with sgn := w }

/-- A counter whose SAT bit is bit `b` of offset `o`. -/
def PRow.satAt (o b : Nat) (r : PRow) : PRow := { r with sat := some (o, b) }

/-- An RS parameter that a write of 0 clears. -/
def PRow.clearable (r : PRow) : PRow := { r with clr := true }

/-- A row repeated `n` times at steps of `k`. -/
def PRow.times (n k : Nat) (r : PRow) : PRow := { r with cnt := n, stride := k }

/-- Whether the row covers offset `o`. -/
def PRow.covers (r : PRow) (o : Nat) : Bool :=
  r.off ≤ o && (o - r.off) % r.stride == 0 && decide ((o - r.off) / r.stride < r.cnt)

/-- Table 20-6, page 0x00. -/
def sysRows : List PRow := [
  prow 0x00 0xFFFFFFFF .ro 0x0,  -- SYS_ID
  prow 0x01 0x7F .ro 0x0,  -- SYS_SUPPLY
  prow 0x02 0xFFFFFFFF .rs 0x0 |>.satAt 0x04 0,  -- SYS_SUPPLY_CNT
  prow 0x03 0xFFFFFFFF .rs 0x0 |>.satAt 0x04 1,  -- SYS_DIR_FAULT_CNT
  prow 0x04 0x3 .w1c 0x0 ]  -- SYS_SAT

/-- Table 20-7, page 0x01. -/
def evtRows : List PRow := [
  prow 0x00 0xFFFFFFFF .w1c 0x0,  -- EVT_PEND_L
  prow 0x01 0xFFFFFFFF .w1c 0x0,  -- EVT_PEND_H
  prow 0x02 0xFFFFFFFF .rw 0x40000,  -- EVT_MASK_L
  prow 0x03 0xFFFFFFFF .rw 0x3000C01,  -- EVT_MASK_H
  prow 0x04 0xFF .w1c 0x0,  -- EVT_SAT_PEND
  prow 0x05 0xFF .rw 0x0,  -- EVT_SAT_MASK
  prow 0x06 0xFFFFFFFF .rw 0x0,  -- EVT_REC_L
  prow 0x07 0xFFFFFFFF .rw 0x0,  -- EVT_REC_H
  prow 0x08 0xFF .rw 0x0,  -- EVT_REC_SAT
  prow 0x09 0xFFFF .rw 0x40,  -- EVT_REC_GAP
  prow 0x0A 0xFFFFFFFF .w1c 0x0,  -- EVT_CNT_SAT_L
  prow 0x0B 0xFFFFFFFF .w1c 0x0,  -- EVT_CNT_SAT_H
  prow 0x40 0xFFFF .rs 0x0 |>.times 64 1 ]  -- EVT_CNT_0

/-- Table 12-13, page 0x02 (the SPLL block; the CPLL and LPLL blocks repeat it). -/
def clkRows : List PRow := [
  prow 0x00 0x7 .ro 0x0,  -- CLK_STATE
  prow 0x01 0xFF .rw 0xF,  -- CLK_LOCK_WINDOW
  prow 0x02 0xFFFF .rw 0x100,  -- CLK_LOCK_COUNT
  prow 0x03 0x1 .rw 0x0,  -- CLK_RELOCK
  prow 0x04 0x1FF .rw 0x100,  -- CLK_SLEW_RATE
  prow 0x05 0xFFFF .rw 0x1F4,  -- CLK_COAST_MAX
  prow 0x06 0xFF .rw 0x14,  -- CLK_DRIFT_MAX
  prow 0x07 0xFFFF .rs 0x0 |>.signed 16,  -- CLK_DRIFT
  prow 0x08 0xFFFFFFFF .rs 0x0,  -- CLK_COAST_LEN
  prow 0x09 0xFFFFFFFF .rs 0x0,  -- CLK_LAST_STEP
  prow 0x0A 0xFFFFFFFF .rs 0x0 |>.satAt 0x0C 0,  -- CLK_COAST_CNT
  prow 0x0B 0xFFFFFFFF .rs 0x0 |>.satAt 0x0C 1,  -- CLK_STOP_CNT
  prow 0x0C 0x3 .w1c 0x0,  -- CLK_LOOP_SAT
  prow 0x30 0xFF .rw 0x31,  -- CLK_TCXO_SETTLE
  prow 0x31 0x3 .ro 0x0,  -- CLK_TCXO_STATE
  prow 0x32 0xFFFF .rs 0x0 |>.signed 16,  -- CLK_AO_PPM
  prow 0x33 0x3 .ro 0x0,  -- CLK_TB_STATE
  prow 0x34 0xFFFFFFFF .rs 0xFFFFFFFF,  -- CLK_TB_ERR
  prow 0x35 0xFFFFFFFF .rs 0x0,  -- CLK_TB_RATE
  prow 0x36 0x1 .rw 0x0,  -- CLK_TICK_MODE
  prow 0x37 0xFF .rw 0x64,  -- CLK_TICK_WIDTH
  prow 0x38 0xFFFF .rw 0x64,  -- CLK_UTC_SLEW
  prow 0x39 0xFFFF .rw 0x7D0,  -- CLK_UTC_STEP
  prow 0x3A 0xFFFFFFFF .rs 0x0 |>.satAt 0x3B 0,  -- CLK_DISC_CNT
  prow 0x3B 0x1 .w1c 0x0,  -- CLK_SAT
  prow 0x3C 0x1 .ro 0x0 ]  -- CLK_AO_FAIL

/-- Table 12-14, page 0x03. -/
def pwrRows : List PRow := [
  prow 0x00 0x3 .rw 0x0,  -- PWR_MODE
  prow 0x01 0x7 .ro 0x0,  -- PWR_STATE
  prow 0x02 0xFFFF .ro 0x8A0A,  -- PWR_DOMAINS
  prow 0x03 0xF .ro 0x0,  -- PWR_HALVES
  prow 0x04 0xFF .rw 0x4,  -- SKT_MIN_SLEEP
  prow 0x05 0xF .rw 0x1,  -- SKT_DAB_DIV
  prow 0x06 0xF .rw 0x1,  -- SKT_DRM_DIV
  prow 0x07 0xFF .rw 0x8,  -- SKT_RDS_GROUPS
  prow 0x08 0xFFFF .rw 0x40,  -- SKT_HOST_HOLD
  prow 0x09 0xFF .rw 0x10,  -- SKT_CAL_LEN
  prow 0x0A 0xFFFF .rw 0x400,  -- SKT_CAL_PERIOD
  prow 0x0B 0xFFFFFFFF .rw 0x0,  -- PWR_DEEP_WAKE
  prow 0x0C 0xFFFFFFFF .rs 0x0 |>.satAt 0x0F 0,  -- SKT_GLIMPSE_CNT
  prow 0x0D 0xFFFFFFFF .rs 0x0 |>.satAt 0x0F 1,  -- SKT_MISS_CNT
  prow 0x0E 0x3FF .rs 0x0,  -- SKT_DUTY
  prow 0x0F 0x3 .w1c 0x0 ]  -- PWR_SAT

/-- Table 16-11, page 0x04. -/
def bootRows : List PRow := [
  prow 0x00 0x7 .ro 0x0,  -- BOOT_CAUSE
  prow 0x01 0xF .ro 0xF,  -- BOOT_PROFILE
  prow 0x02 0x3 .ro 0x0,  -- BOOT_PROF_PINS
  prow 0x03 0x3F .ro 0x0,  -- BOOT_STATUS
  prow 0x04 0xFF .ro 0x0,  -- BOOT_LAST_ERR
  prow 0x05 0xFFFFFFFF .ro 0x0,  -- BOOT_IMAGE_ID
  prow 0x06 0xFFFFFFFF .ro 0x0,  -- BOOT_PROFILE_ID
  prow 0x07 0xF .ro 0xF,  -- BOOT_LAST_GOOD
  prow 0x08 0x1 .ro 0x0,  -- BOOT_NVM_SPEED
  prow 0x09 0xFFFF .rw 0x1388,  -- BOOT_NVM_WAIT
  prow 0x0A 0x1 .rw 0x1,  -- BOOT_JRNL_EN
  prow 0x0B 0x1 .wo 0x0,  -- BOOT_JRNL_CTRL
  prow 0x0C 0x3 .ro 0x0,  -- BOOT_JRNL_STATE
  prow 0x0D 0xFFFFFFFF .rs 0x0,  -- BOOT_JRNL_LAST
  prow 0x0E 0xFFFF .ro 0xFFFF,  -- BOOT_REFUSED_ADDR
  prow 0x0F 0xFFFF .rw 0x168,  -- BOOT_F_RESCAN
  prow 0x10 0xFFFFFFFF .rs 0x0 |>.satAt 0x18 0,  -- BOOT_COUNT
  prow 0x11 0xFFFFFFFF .rs 0x0 |>.satAt 0x18 1,  -- BOOT_READ_CNT
  prow 0x12 0xFFFFFFFF .rs 0x0 |>.satAt 0x18 2,  -- BOOT_CRC_FAIL_CNT
  prow 0x13 0xFFFFFFFF .rs 0x0 |>.satAt 0x18 3,  -- BOOT_ARB_LOST_CNT
  prow 0x14 0xFFFFFFFF .rs 0x0 |>.satAt 0x18 4,  -- BOOT_BUS_CLEAR_CNT
  prow 0x15 0xFFFFFFFF .rs 0x0 |>.satAt 0x18 5,  -- BOOT_JRNL_WR_CNT
  prow 0x16 0xFFFFFFFF .rs 0x0 |>.satAt 0x18 6,  -- BOOT_JRNL_FAIL_CNT
  prow 0x17 0xFFFFFFFF .rs 0x0 |>.satAt 0x18 7,  -- BOOT_REFUSED_CNT
  prow 0x18 0xFF .w1c 0x0 ]  -- BOOT_SAT

/-- Table 14-8, page 0x05. -/
def hbRows : List PRow := [
  prow 0x00 0x7F .ro 0x58,  -- HB_ADDR
  prow 0x01 0x3 .ro 0x1,  -- HB_VERSION
  prow 0x02 0x3 .rw 0x3,  -- HB_VERSION_CAP
  prow 0x03 0x1 .rw 0x0,  -- HB_ATN_EN
  prow 0x04 0xFFFF .rw 0x1F4,  -- HB_STRETCH_MAX
  prow 0x05 0xFFFF .rw 0x3E8,  -- HB_ATN_WAIT
  prow 0x06 0xFFFF .rw 0x10,  -- HB_ATN_GAP
  prow 0x07 0xFF .rw 0x32,  -- HB_ATN_IDLE
  prow 0x08 0x7 .ro 0x0,  -- HB_STATE
  prow 0x09 0xFF .rw 0xFF,  -- HB_V1_LANE
  prow 0x0A 0x1F .rw 0x1F,  -- HB_V1_SLOT
  prow 0x0B 0xFFFF .ro 0x0,  -- HB_GEN
  prow 0x10 0xFFFFFFFF .rs 0x0 |>.satAt 0x18 0,  -- HB_CMD_CNT
  prow 0x11 0xFFFFFFFF .rs 0x0 |>.satAt 0x18 1,  -- HB_CRC_ERR_CNT
  prow 0x12 0xFFFFFFFF .rs 0x0 |>.satAt 0x18 2,  -- HB_BUSY_NACK_CNT
  prow 0x13 0xFFFFFFFF .rs 0x0 |>.satAt 0x18 3,  -- HB_NRD_CNT
  prow 0x14 0xFFFFFFFF .rs 0x0 |>.satAt 0x18 4,  -- HB_SCL_TO_CNT
  prow 0x15 0xFFFFFFFF .rs 0x0 |>.satAt 0x18 5,  -- HB_SDA_STUCK_CNT
  prow 0x16 0xFFFFFFFF .rs 0x0 |>.satAt 0x18 6,  -- HB_ATN_CNT
  prow 0x17 0xFFFFFFFF .rs 0x0 |>.satAt 0x18 7,  -- HB_ATN_IGN_CNT
  prow 0x18 0xFF .w1c 0x0 ]  -- HB_SAT

/-- Table 15-8, page 0x06. -/
def strRows : List PRow := [
  prow 0x00 0x1 .rw 0x0,  -- STR_EN
  prow 0x01 0x7F .rws 0x40,  -- STR_CREDIT_INIT
  prow 0x02 0xFFFF .rs 0x0,  -- STR_CREDIT
  prow 0x03 0xFFFFFF .rs 0x0,  -- STR_QUEUED
  prow 0x04 0x3 .ro 0x0,  -- STR_STATE
  prow 0x05 0xFFFFFFFF .rs 0x0,  -- STR_OWED
  prow 0x06 0xFFFF .ro 0x0,  -- STR_GEN
  prow 0x08 0xFFFFFFFF .rs 0x0 |>.satAt 0x0D 0,  -- STR_REC_CNT
  prow 0x09 0xFFFFFFFF .rs 0x0 |>.satAt 0x0D 1,  -- STR_CRD_OVF_CNT
  prow 0x0A 0xFFFFFFFF .rs 0x0 |>.satAt 0x0D 2,  -- STR_STARVE_CNT
  prow 0x0B 0xFFFFFFFF .rs 0x0 |>.satAt 0x0D 3,  -- STR_DRAIN_FAIL_CNT
  prow 0x0C 0xFFFFFFFF .rs 0x0 |>.satAt 0x0D 4,  -- STR_LOST_CNT
  prow 0x0D 0x1F .w1c 0x0,  -- STR_SAT
  prow 0x40 0xF .rw 0x0,  -- AUD_CFG
  prow 0x41 0x7 .ro 0x0,  -- AUD_STATE
  prow 0x42 0xFFFF .rs 0x0 |>.signed 16,  -- AUD_FS_PPM
  prow 0x43 0xFFFF .ro 0xC00,  -- AUD_DELAY
  prow 0x44 0xFFFF .ro 0x0,  -- AUD_GEN
  prow 0x45 0xFFFFFFFF .ro 0x0,  -- AUD_SRC
  prow 0x46 0xFFFFFFFF .rs 0x0 |>.satAt 0x47 0,  -- AUD_FS_LOSS_CNT
  prow 0x47 0x1 .w1c 0x0 ]  -- AUD_SAT

/-- Tables 11-12, 06-10 and 03-10, page 0x07. -/
def schRows : List PRow := [
  prow 0x00 0x7FFFF .rw 0x40000,  -- SCH_DRAIN_RATE
  prow 0x01 0xFFFF .rw 0x4,  -- SCH_DRAIN_STALL
  prow 0x02 0x7FFFF .rw 0x9C40,  -- SCH_CAP_RATE
  prow 0x03 0xFFFF .rw 0x8,  -- SCH_EXP_BOUND
  prow 0x04 0xFFFFFFF .ro 0xFA00000,  -- SCH_CAPACITY
  prow 0x05 0xFFFFFFF .ro 0x10000,  -- SCH_STR_RESV
  prow 0x06 0xFFFFFF .ro 0x940,  -- SCH_STR_BUF
  prow 0x07 0xFF .ro 0x0,  -- SCH_LANES
  prow 0x08 0x7FF .ro 0x0,  -- SCH_JOBS
  prow 0x09 0xFFFFFFFF .rs 0x0,  -- SCH_TICK
  prow 0x0A 0xFFFFFF .rs 0x0,  -- SCH_LAST_REFUSAL
  prow 0x0B 0xFFFFFFFF .rs 0x0,  -- SCH_LAST_SHORT
  prow 0x0C 0xFFFFFFFF .rs 0x0 |>.satAt 0x11 0,  -- SCH_REFUSED_CNT
  prow 0x0D 0xFFFFFFFF .rs 0x0 |>.satAt 0x11 1,  -- SCH_LATE_CNT
  prow 0x0E 0xFFFFFFFF .rs 0x0 |>.satAt 0x11 2,  -- SCH_SHED_CNT
  prow 0x0F 0xFFFFFFFF .rs 0x0 |>.satAt 0x11 3,  -- SCH_RENEW_FAIL_CNT
  prow 0x10 0xFFFF .rs 0x0 |>.clearable,  -- SCH_MAX_LATE
  prow 0x11 0xF .w1c 0x0,  -- SCH_SAT
  prow 0xA0 0x1FFFF .ro 0x0,  -- TRL_RESERVED
  prow 0xA1 0x1FFFF .rs 0x0 |>.clearable,  -- TRL_PEAK
  prow 0xA2 0xFFFFFFFF .rs 0x0 |>.satAt 0xA4 0,  -- TRL_BLOCK_CNT
  prow 0xA3 0xFFFF .ro 0x0,  -- TRL_GEN
  prow 0xA4 0x1 .w1c 0x0,  -- TRL_SAT
  prow 0xB0 0x1 .wo 0x0,  -- CNV_COMMIT
  prow 0xB1 0x3 .ro 0x0,  -- CNV_STATUS
  prow 0xB2 0x1FF .ro 0x100,  -- CNV_FREE
  prow 0xC0 0x1FFFFFF .rw 0x0 |>.times 16 4,  -- CNV_P0_DESC
  prow 0xC1 0xFFFFFFFF .rs 0x0 |>.times 16 4,  -- CNV_P0_FILL
  prow 0xC2 0x7F .rw 0x5A |>.times 16 4,  -- CNV_P0_HW
  prow 0xC3 0xFFFFFFFF .rs 0x0 |>.clearable |>.times 16 4 ]  -- CNV_P0_PEAK

/-- Table 02-7, pages 0x08 and 0x09, part 1. -/
def feRows0 : List PRow := [
  prow 0x00 0x7 .rw 0x7,  -- FE_PATH_EN
  prow 0x02 0x3 .rw 0x0,  -- FE_AGC_MODE
  prow 0x03 0x1F .rs 0x1E,  -- FE_ATTN
  prow 0x04 0x1F .rw 0x1E,  -- FE_ATTN_MAN
  prow 0x05 0xFF .rw 0x1E,  -- FE_AGC_TARGET
  prow 0x06 0xF .rw 0x4,  -- FE_AGC_HYST
  prow 0x07 0xFFFF .rw 0x40,  -- FE_AGC_RELEASE
  prow 0x08 0x1F .rw 0x0,  -- FE_AGC_ATTN_MIN
  prow 0x09 0x1F .rw 0x1E,  -- FE_AGC_ATTN_MAX
  prow 0x0A 0xFF .rw 0x4,  -- FE_OVL_COUNT
  prow 0x0B 0xF .rw 0x6,  -- FE_OVL_STEP
  prow 0x0C 0xFFFF .rw 0x400,  -- FE_OVL_HOLD
  prow 0x0D 0x3 .ro 0x0,  -- FE_OVL_STATE
  prow 0x10 0xFFFFFFFF .rs 0x0 |>.satAt 0x13 0,  -- FE_OVL_CNT
  prow 0x11 0xFFFFFFFF .rs 0x0 |>.satAt 0x13 1,  -- FE_STEP_CNT
  prow 0x12 0xFFFFFFFF .rs 0x0 |>.satAt 0x13 2,  -- FE_CLIP_CNT
  prow 0x13 0x7 .w1c 0x0,  -- FE_SAT
  prow 0x18 0xFFFF .rs 0x8000 |>.signed 16,  -- FE_RMS
  prow 0x19 0xFFFF .rs 0x8000 |>.signed 16,  -- FE_PEAK
  prow 0x20 0x3 .wo 0x0,  -- FE_INJ_CTRL
  prow 0x21 0x3 .rw 0x0,  -- FE_INJ_CH
  prow 0x22 0xFFFF .rw 0x20,  -- FE_INJ_TICKS
  prow 0x23 0x7 .ro 0x0,  -- FE_INJ_STATUS
  prow 0x24 0xFFFF .rs 0x0 |>.signed 16,  -- FE_INJ_LEVEL
  prow 0x40 0x7 .ro 0x4,  -- ADC_SPARE
  prow 0x41 0xFFF .ro 0x688,  -- ADC_ACTIVE
  prow 0x42 0x1F .ro 0x0,  -- ADC_FAILED
  prow 0x43 0xFFFFFFFF .rs 0x0 |>.satAt 0x45 0,  -- ADC_ROT_CNT
  prow 0x44 0xFFFFFFFF .rs 0x0 |>.satAt 0x45 1,  -- ADC_ROT_FAULT_CNT
  prow 0x45 0x3 .w1c 0x0 ]  -- ADC_SAT

/-- Table 02-7, pages 0x08 and 0x09, part 2. -/
def feRows1 : List PRow := [
  prow 0xE0 0x3 .rw 0x0,  -- DIV_MODE
  prow 0xE1 0xF .rw 0x6,  -- DIV_TC
  prow 0xE2 0xF .rw 0x4,  -- DIV_SEL_HYST
  prow 0xE3 0xFF .rw 0x1 ]  -- DIV_OVL_HOLD

/-- Table 02-7, pages 0x08 and 0x09. -/
def feRows : List PRow := feRows0 ++ feRows1

/-- Table 13-3, page 0x0A (FE-A, ADC-A; FE-B, ADC-B repeat them at +0x10). -/
def calRows : List PRow := [
  prow 0x00 0x7 .wo 0x0,  -- CAL_CTRL
  prow 0x01 0xFFFF .rw 0x400,  -- CAL_ROT_PERIOD
  prow 0x02 0xFF .rw 0x2,  -- CAL_LADDER_AGREE
  prow 0x03 0xFFFF .rw 0x60,  -- CAL_LADDER_GAP
  prow 0x04 0xFF .rw 0x14,  -- CAL_TEMP_STEP
  prow 0x05 0xFFFF .rs 0x8000 |>.signed 16,  -- CAL_TEMP
  prow 0x06 0xF .rw 0x2,  -- CAL_REF_MIN
  prow 0x07 0xFF .rw 0x14,  -- CAL_REF_AGREE
  prow 0x08 0x3 .ro 0x0,  -- CAL_REF_STATE
  prow 0x09 0xFFFFFFFF .rs 0x0,  -- CAL_REF_LAST
  prow 0x0A 0xFFFFFFFF .rs 0x0 |>.satAt 0x0B 0,  -- CAL_REJECT_CNT
  prow 0x0B 0x1 .w1c 0x0,  -- CAL_SAT
  prow 0x10 0xFFF .ro 0x0,  -- CAL_A_STATUS
  prow 0x11 0xFFFF .rs 0x3E8 |>.times 5 1,  -- CAL_A_SECT_1
  prow 0x16 0xFFFF .rs 0x36B0,  -- CAL_A_GAIN
  prow 0x17 0xFFFFFFFF .rs 0x0 |>.satAt 0x38 0,  -- CAL_A_RUN_CNT
  prow 0x18 0xFFFFFFFF .rs 0x0,  -- CAL_A_LAST
  prow 0x19 0xFFFF .rs 0x0,  -- CAL_A_ABORT_CNT
  prow 0x30 0xF .ro 0x0,  -- CAL_ADCA_STATE
  prow 0x31 0xFFFFFFFF .rs 0x0 |>.times 5 1,  -- CAL_ADCA_SUB0
  prow 0x36 0xFFFFFFFF .rs 0x0 |>.satAt 0x38 1,  -- CAL_ADCA_CNT
  prow 0x37 0xFFFFFFFF .rs 0x0,  -- CAL_ADCA_LAST
  prow 0x38 0x3 .w1c 0x0,  -- CAL_ADCA_SAT
  prow 0x50 0xFFFFFFFF .rs 0x0 |>.times 4 1,  -- CAL_DAC_0
  prow 0x54 0xFF .ro 0x0 ]  -- CAL_DAC_STATE

/-- Table 10-11, page 0x0B. -/
def swtRows : List PRow := [
  prow 0x00 0x1FF .ro 0x0,  -- SWT_JOB_CNT
  prow 0x01 0xFFFFFFFF .rs 0x0 |>.satAt 0x03 0,  -- SWT_REC_CNT
  prow 0x02 0xFFFFFFFF .rs 0x0 |>.satAt 0x03 1,  -- SWT_INVALID_CNT
  prow 0x03 0x3 .w1c 0x0,  -- SWT_SAT
  prow 0x04 0xFFFF .ro 0x0,  -- SWT_GEN
  prow 0x08 0xFFFFFFFF .rs 0x0,  -- SWT_LOG_WR
  prow 0x09 0xFFFFFFFF .rw 0x0,  -- SWT_LOG_RD
  prow 0x0A 0xFFFF .rs 0x0,  -- SWT_LOG_FILL
  prow 0x0B 0x7F .rw 0x5A,  -- SWT_LOG_HW
  prow 0x0C 0x1 .rw 0x0,  -- SWT_LOG_POLICY
  prow 0x0D 0xFFFFFFFF .rs 0x0 |>.satAt 0x0F 0,  -- SWT_LOG_LOST_CNT
  prow 0x0E 0xFFFF .rs 0x0 |>.clearable,  -- SWT_LOG_PEAK
  prow 0x0F 0x1 .w1c 0x0,  -- SWT_LOG_SAT
  prow 0x10 0xFFFF .rw 0x0 |>.signed 16,  -- SWT_CORR_A
  prow 0x11 0xFFFF .rw 0x0 |>.signed 16 ]  -- SWT_CORR_B

/-- Tables 08-14, 09-9 and 09-10, page 0x0C, part 1. -/
def galRows0 : List PRow := [
  prow 0x00 0x7FFF .ro 0x0,  -- GAL_COUNT
  prow 0x01 0x3FFF .ro 0x0,  -- GAL_AF_COUNT
  prow 0x02 0xFFFF .rw 0x3C,  -- GAL_IDX_AGE
  prow 0x03 0xFFFF .rw 0xE1,  -- GAL_EVICT_MIN
  prow 0x04 0x3F .rw 0x19,  -- GAL_AF_MAX
  prow 0x05 0x33FFF .wo 0x0,  -- GAL_CTRL
  prow 0x06 0x3 .ro 0x0,  -- GAL_CTRL_STATUS
  prow 0x07 0xFFFF .ro 0x0,  -- GAL_GEN
  prow 0x08 0xFFFFFFFF .rs 0x0 |>.satAt 0x0D 0,  -- GAL_INS_CNT
  prow 0x09 0xFFFFFFFF .rs 0x0 |>.satAt 0x0D 1,  -- GAL_EVICT_CNT
  prow 0x0A 0xFFFFFFFF .rs 0x0 |>.satAt 0x0D 2,  -- GAL_DROP_CNT
  prow 0x0B 0xFFFFFFFF .rs 0x0 |>.satAt 0x0D 3,  -- GAL_AF_DROP_CNT
  prow 0x0C 0xFFFFFFFF .rs 0x0 |>.satAt 0x0D 4,  -- GAL_PI_CONFLICT_CNT
  prow 0x0D 0x1F .w1c 0x0,  -- GAL_SAT
  prow 0x10 0xF .rw 0x2,  -- RDS_CFG
  prow 0x11 0x3F .rw 0x19,  -- RDS_SYNC_LOSS
  prow 0x12 0xFFFFFFFF .rs 0x0 |>.satAt 0x14 0,  -- RDS_GROUP_CNT
  prow 0x13 0xFFFFFFFF .rs 0x0 |>.satAt 0x14 1,  -- RDS_BLOCK_ERR_CNT
  prow 0x14 0x3 .w1c 0x0,  -- RDS_SAT
  prow 0x20 0xF .rw 0x7,  -- TIM_SRC_CFG
  prow 0x21 0xFFFFFFFF .rw 0x0,  -- TIM_SRC_HANDLE
  prow 0x22 0xFFFFFFFF .ro 0x0,  -- TIM_SRC_IN_USE
  prow 0x23 0xFF .rw 0x0 |>.signed 8,  -- TIM_TAI_UTC
  prow 0x24 0x2 .rw 0x0,  -- TIM_LEAP
  prow 0x25 0x1FFFF .rw 0xED04,  -- TIM_MIN_MJD
  prow 0x26 0x1FFFF .rs 0x0,  -- TIM_LAST
  prow 0x27 0x7FFFFFF .rs 0x0,  -- TIM_LAST_MS
  prow 0x30 0xFF .rw 0xAF,  -- ALM_CFG
  prow 0x31 0xF .rw 0x4,  -- ALM_RDS_COUNT
  prow 0x32 0xFFFF .rw 0x2800 ]  -- ALM_9A_TIMEOUT

/-- Tables 08-14, 09-9 and 09-10, page 0x0C, part 2. -/
def galRows1 : List PRow := [
  prow 0x33 0xFFFF .rw 0x1400,  -- ALM_DAB_TIMEOUT
  prow 0x34 0xFFFF .rw 0x2800,  -- ALM_LOST_HOLD
  prow 0x35 0xFFFF .rw 0x400,  -- ALM_PIN_MIN
  prow 0x36 0x7FF .rw 0x0,  -- ALM_DAB_REGION
  prow 0x37 0xF .rw 0xF,  -- ALM_AUD_PROG
  prow 0x38 0x1F .rw 0x1F,  -- ALM_AUD_SLOT
  prow 0x39 0x7F .ro 0x0,  -- ALM_STATUS
  prow 0x3A 0xFFFFFFFF .rs 0x0 |>.satAt 0x3C 0,  -- ALM_START_CNT
  prow 0x3B 0xFFFFFFFF .rs 0x0 |>.satAt 0x3C 1,  -- ALM_NOINST_CNT
  prow 0x3C 0x3 .w1c 0x0,  -- ALM_SAT
  prow 0x40 0xFFFFFFFF .rs 0x0 |>.times 32 1,  -- ALM_INST_0
  prow 0x60 0xF .ro 0x0,  -- LNK_COUNT
  prow 0x61 0xFFFF .rw 0x12C,  -- LNK_FLOOR_FM
  prow 0x62 0xFFFF .rw 0x64,  -- LNK_FLOOR_DAB
  prow 0x63 0xFFFF .rw 0x78,  -- LNK_FLOOR_DRM
  prow 0x64 0x3FF .rw 0x1F4,  -- LNK_RHO_MIN
  prow 0x65 0x3F .rw 0xC,  -- LNK_PSR
  prow 0x66 0xFFFF .rw 0x1000,  -- LNK_AGREE
  prow 0x67 0xFFFF .rw 0x7800,  -- LNK_REEST
  prow 0x68 0xF .rw 0x3,  -- LNK_LOSS_N
  prow 0x69 0xFFFFFFFF .rs 0x0 |>.satAt 0x6E 0,  -- LNK_SW_TOTAL_CNT
  prow 0x6A 0xFFFFFFFF .rs 0x0 |>.satAt 0x6E 1,  -- LNK_HARD_CNT
  prow 0x6B 0xFFFFFFFF .rs 0x0 |>.satAt 0x6E 2,  -- LNK_REARM_CNT
  prow 0x6C 0xFFFFFFFF .rs 0x0 |>.satAt 0x6E 3,  -- LNK_EST_CNT
  prow 0x6D 0xFFFFFFFF .rs 0x0 |>.satAt 0x6E 4,  -- LNK_EST_FAIL_CNT
  prow 0x6E 0x1F .w1c 0x0,  -- LNK_SAT
  prow 0x6F 0xFFFF .ro 0x0,  -- LNK_GEN
  prow 0x70 0xFF0F7F .rw 0xC0231,  -- LNK_CFG
  prow 0x71 0xFFFFFFFF .rw 0x28000040,  -- LNK_TIMING
  prow 0x72 0x1FFF1FFF .rw 0x2BC07D0 ]  -- LNK_LATS

/-- Tables 08-14, 09-9 and 09-10, page 0x0C, part 3. -/
def galRows2 : List PRow := [
  prow 0x73 0x3FFF .rw 0x12C0,  -- LNK_FADE
  prow 0x74 0xFFFF .rw 0x1388,  -- LNK_SLEW
  prow 0x75 0xFFFFFFFF .rw 0x800100,  -- LNK_DWELL
  prow 0x76 0x7 .ro 0x0,  -- LNK_STATE
  prow 0x77 0x1F .ro 0x0,  -- LNK_STATUS
  prow 0x78 0xFFFFFFFF .ro 0x0,  -- LNK_CURRENT
  prow 0x79 0xFFFFFFFF .ro 0x0,  -- LNK_STANDBY
  prow 0x7A 0xFFFFFFFF .rs 0x80000000,  -- LNK_LAG
  prow 0x7B 0xFFFFFFFF .rs 0x0,  -- LNK_EXTRA
  prow 0x7C 0xFFFFFFFF .rs 0x0,  -- LNK_OUT_LAT
  prow 0x7D 0xFFFFFFFF .rs 0x80008000,  -- LNK_Q
  prow 0x7E 0x3F3F3F .ro 0x0,  -- LNK_MEMBERS
  prow 0x7F 0xBFFF .wo 0x0,  -- LNK_FORCE
  prow 0x80 0xFFFFFFFF .rs 0x0 |>.satAt 0x81 0,  -- LNK_SW_CNT
  prow 0x81 0x1 .w1c 0x0 ]  -- LNK_I_SAT

/-- Tables 08-14, 09-9 and 09-10, page 0x0C. -/
def galRows : List PRow := galRows0 ++ galRows1 ++ galRows2

/-- Table 17-12, page 0x0D, part 1. -/
def lnkRows0 : List PRow := [
  prow 0x00 0x7 .ro 0x0,  -- LNK_STATE
  prow 0x01 0x1FFFF .rws 0x1041,  -- LNK_CFG
  prow 0x02 0xFFFFFFFF .rw 0x33C134E0,  -- LNK_FREQ
  prow 0x03 0xFFFFFFFF .rws 0x7A0E93D5,  -- LNK_SYNC
  prow 0x04 0x7F .rws 0x6,  -- LNK_PRE_LEN
  prow 0x05 0xFF .rw 0x0 |>.signed 8,  -- LNK_TX_PWR
  prow 0x06 0xFF .rw 0xE |>.signed 8,  -- LNK_PWR_MAX
  prow 0x07 0xFFFF .rw 0xFBE6 |>.signed 16,  -- LNK_RSSI_THR
  prow 0x08 0xFF .rw 0x80,  -- LNK_QUAL_THR
  prow 0x09 0xF .rw 0x6,  -- LNK_CAPTURE
  prow 0x0A 0xFFFF .rw 0x1F4,  -- LNK_COEX_WAIT
  prow 0x0B 0x7F .rws 0x10,  -- LNK_RAMP
  prow 0x0C 0xFF .rws 0x0,  -- LNK_ADDR
  prow 0x0D 0xFFFF0F .rw 0x2003,  -- LNK_ALM_CFG
  prow 0x0E 0xFFFF00FF .rw 0x7D0000A,  -- LNK_TIME_CFG
  prow 0x0F 0x3 .rw 0x2,  -- LNK_TX_ANT
  prow 0x10 0x3 .rws 0x2,  -- LNK_VERSION_MAX
  prow 0x11 0x7 .rws 0x0,  -- LNK_KEY_SLOT
  prow 0x12 0xFFFF .rs 0x8000 |>.signed 16,  -- LNK_RSSI
  prow 0x13 0xFFFF .rs 0x0 |>.signed 16,  -- LNK_AFC
  prow 0x14 0xFFFFFF01 .ro 0x0,  -- LNK_MASK_STATUS
  prow 0x20 0xFFFFFFFF .rs 0x0 |>.times 6 1,  -- LNK_DC_USED_0
  prow 0x30 0xFFFFFFFF .rs 0x0 |>.satAt 0x3B 0,  -- LNK_RX_CNT
  prow 0x31 0xFFFFFFFF .rs 0x0 |>.satAt 0x3B 1,  -- LNK_CRC_ERR_CNT
  prow 0x32 0xFFFFFFFF .rs 0x0 |>.satAt 0x3B 2,  -- LNK_FALSE_CNT
  prow 0x33 0xFFFFFFFF .rs 0x0 |>.satAt 0x3B 3,  -- LNK_RESTART_CNT
  prow 0x34 0xFFFFFFFF .rs 0x0 |>.satAt 0x3B 4,  -- LNK_PREEMPT_CNT
  prow 0x35 0xFFFFFFFF .rs 0x0 |>.satAt 0x3B 5,  -- LNK_OVERLAP_CNT
  prow 0x36 0xFFFFFFFF .rs 0x0 |>.satAt 0x3B 6,  -- LNK_TX_CNT
  prow 0x37 0xFFFFFFFF .rs 0x0 |>.satAt 0x3B 7 ]  -- LNK_TX_REFUSED_CNT

/-- Table 17-12, page 0x0D, part 2. -/
def lnkRows1 : List PRow := [
  prow 0x38 0xFFFFFFFF .rs 0x0 |>.satAt 0x3B 8,  -- LNK_TAG_FAIL_CNT
  prow 0x39 0xFFFFFFFF .rs 0x0 |>.satAt 0x3B 9,  -- LNK_REPLAY_CNT
  prow 0x3A 0xFFFFFFFF .rs 0x0 |>.satAt 0x3B 10,  -- LNK_VER_DROP_CNT
  prow 0x3B 0x7FF .w1c 0x0,  -- LNK_SAT
  prow 0x3C 0xFFFFFFFF .rs 0x0,  -- LNK_TX_CTR
  prow 0x3D 0xFFFF .ro 0x0,  -- LNK_GEN
  prow 0x40 0xFFFFFFFF .rws 0x0 |>.times 8 1 ]  -- LNK_SHAPE_0

/-- Table 17-12, page 0x0D. -/
def lnkRows : List PRow := lnkRows0 ++ lnkRows1

/-- Table 18-3, page 0x0E (channel 0; channel c at +16c). -/
def dacRows : List PRow := [
  prow 0x00 0xFFFF .rw 0x0,  -- DAC_CODE
  prow 0x01 0x1 .rw 0x0,  -- DAC_RANGE
  prow 0x02 0xFFFF .rw 0x0,  -- DAC_SLEW
  prow 0x03 0xFFFFFFFF .rw 0xFFFF0000,  -- DAC_LIM
  prow 0x04 0xFFFF0003 .rw 0x0,  -- DAC_ALM
  prow 0x05 0x3 .wo 0x0,  -- DAC_SINE_CTRL
  prow 0x06 0xFFFFFFFF .rw 0x0,  -- DAC_SINE_FREQ
  prow 0x07 0xFFFF .rw 0x0,  -- DAC_SINE_AMP
  prow 0x08 0xFFFF .rw 0x8000,  -- DAC_SINE_OFS
  prow 0x09 0x7 .ro 0x1,  -- DAC_STATE
  prow 0x0A 0xFFFF .rs 0x0,  -- DAC_OUT_CODE
  prow 0x0B 0xFFFFFFFF .rs 0x0 |>.satAt 0x0C 0,  -- DAC_CLAMP_CNT
  prow 0x0C 0x1 .w1c 0x0,  -- DAC_SAT
  prow 0x40 0x1F .ro 0x0,  -- DAC_STATUS (its Reset column gives no number: log entry 2)
  prow 0x41 0xFFFF .ro 0x0 ]  -- DAC_GEN

/-- Table 19-8, page 0x0F. -/
def varRows : List PRow := [
  prow 0x00 0x7 .rw 0x1,  -- VAR_CFG
  prow 0x01 0xF .rw 0x4,  -- VAR_DUMMY
  prow 0x02 0x3 .rw 0x2,  -- VAR_FAULT_CFG
  prow 0x03 0xFF .ro 0x0,  -- VAR_SLOTS
  prow 0x04 0xF .rw 0x3,  -- VAR_SEAL_FAIL_MAX
  prow 0x05 0xFF .rs 0x0,  -- VAR_SSN
  prow 0x06 0xFFFFFFFF .rs 0x0,  -- VAR_SSN_CTR
  prow 0x07 0xFFFF .ro 0x0,  -- VAR_GEN
  prow 0x08 0xFFFFFFFF .ro 0x0 |>.times 8 1,  -- VAR_KEY_ID_0
  prow 0x10 0x1FF .ro 0x0 |>.times 8 1,  -- VAR_KEY_ATTR_0
  prow 0x18 0xFFFFFF .ro 0x0,  -- VAR_ATT_RATE
  prow 0x19 0xFFFFFFFF .rs 0x0 |>.satAt 0x1D 0,  -- VAR_OP_CNT
  prow 0x1A 0xFFFFFFFF .rs 0x0 |>.satAt 0x1D 1,  -- VAR_FAIL_CNT
  prow 0x1B 0xFFFFFFFF .rs 0x0 |>.satAt 0x1D 2,  -- VAR_FAULT_CNT
  prow 0x1C 0xFFFFFFFF .rs 0x0 |>.satAt 0x1D 3,  -- VAR_REVK_CNT
  prow 0x1D 0xF .w1c 0x0 ]  -- VAR_SAT

/-- Table 03-9, page 0x10 + n. -/
def winRows : List PRow := [
  prow 0x00 0xFFFFFFFF .rw 0x0,  -- WIN_CENTRE
  prow 0x01 0x3 .rw 0x3,  -- WIN_SRC
  prow 0x02 0x3 .ro 0x0,  -- WIN_STATE
  prow 0x03 0xFFFF .ro 0x0,  -- WIN_GEN
  prow 0x04 0xFFFF .rs 0x8000 |>.signed 16,  -- WIN_RMS
  prow 0x05 0xFFFFFFFF .rs 0x0 |>.satAt 0x06 0,  -- WIN_SAT_CNT
  prow 0x06 0x3 .w1c 0x0,  -- WIN_SAT
  prow 0x08 0x1 .rw 0x0,  -- WIN_EXPORT
  prow 0x10 0xF .wo 0x0,  -- WIN_CAP_CTRL
  prow 0x11 0x1F .rw 0x0,  -- WIN_CAP_SRC
  prow 0x12 0xFFFF .rw 0x0,  -- WIN_CAP_POST
  prow 0x13 0x7 .ro 0x6,  -- WIN_CAP_STATE
  prow 0x14 0xFFFFFFFF .rs 0x0,  -- WIN_CAP_TRIG_L
  prow 0x15 0xFFFFFFFF .rs 0x0,  -- WIN_CAP_TRIG_H
  prow 0x16 0x1F .ro 0x0,  -- WIN_CAP_CAUSE
  prow 0x17 0x7FFF .rw 0x7FFF,  -- WIN_CAP_LEVEL
  prow 0x18 0xFFFFFFFF .rw 0x0,  -- WIN_CAP_AT_L
  prow 0x19 0xFFFFFFFF .rw 0x0,  -- WIN_CAP_AT_H
  prow 0x1A 0xFFFFFFFF .rs 0x0 |>.satAt 0x06 1,  -- WIN_CAP_IGN_CNT
  prow 0x1B 0xFFFFFFFF .rs 0x0 ]  -- WIN_CAP_CNT

/-- Table 06-12, page 0x20 + n. -/
def dabRows : List PRow := [
  prow 0x00 0xFF .ro 0xFF,  -- DAB_LANE
  prow 0x01 0x7 .ro 0x0,  -- DAB_STATE
  prow 0x02 0xFFFF .ro 0x0,  -- DAB_GEN
  prow 0x03 0xFFFFFFFF .rs 0x0,  -- DAB_CFO
  prow 0x04 0xFFFF .rs 0x0 |>.signed 16,  -- DAB_SRO
  prow 0x05 0x3F .rw 0x19,  -- DAB_CFO_RANGE
  prow 0x06 0xFF .rw 0x20,  -- DAB_FFT_ADV
  prow 0x07 0x3F .rw 0x1E,  -- DAB_CIR_THR
  prow 0x08 0xFF .rw 0x8,  -- DAB_LOST_FRAMES
  prow 0x09 0xFF .rw 0x40,  -- DAB_SKETCH_WIN
  prow 0x0A 0x7 .rw 0x2,  -- DAB_CIR_AVG
  prow 0x0B 0xFF71 .rw 0x4030,  -- DAB_TII_CFG
  prow 0x0C 0xFF .rw 0x3C,  -- DAB_TII_THR
  prow 0x0D 0xFFFF .rs 0x0,  -- DAB_CIF_CNT
  prow 0x0E 0x7FF07FF .rs 0x0,  -- DAB_CIR_PATHS
  prow 0x10 0xFFFFFFFF .rs 0x0 |>.satAt 0x14 0,  -- DAB_FIB_OK_CNT
  prow 0x11 0xFFFFFFFF .rs 0x0 |>.satAt 0x14 1,  -- DAB_FIB_ERR_CNT
  prow 0x12 0xFFFFFFFF .rs 0x0 |>.satAt 0x14 2,  -- DAB_NULL_MISS_CNT
  prow 0x13 0xFFFFFFFF .rs 0x0 |>.satAt 0x14 3,  -- DAB_RS_CORR_CNT
  prow 0x14 0x1F .w1c 0x0,  -- DAB_SAT
  prow 0x15 0x3F .ro 0x0,  -- DAB_SC_CNT
  prow 0x20 0xFFFF1FFF .rs 0x0 |>.times 8 1,  -- DAB_TII_0
  prow 0x80 0xFFFFFFF .ro 0x0 |>.times 32 4,  -- DAB_SC_MAP
  prow 0x81 0xFFFF07FF .ro 0x0 |>.times 32 4,  -- DAB_SC_PROT
  prow 0x82 0xFFFFFFFF .ro 0x0 |>.times 32 4,  -- DAB_SC_HANDLE
  prow 0x83 0xFFFFFFFF .rs 0x0 |>.satAt 0x14 4 |>.times 32 4 ]  -- DAB_SC_FAIL_CNT

/-- Table 07-11, page 0x28 + (c >> 1), +0x80 for odd channels. -/
def drmRows : List PRow := [
  prow 0x00 0xFF .ro 0xFF,  -- DRM_LANE
  prow 0x01 0x7 .ro 0x0,  -- DRM_STATE
  prow 0x02 0xFFFF .ro 0x0,  -- DRM_GEN
  prow 0x03 0x1FFF .ro 0x3F,  -- DRM_MODE
  prow 0x04 0xFFFFFFFF .rs 0x0,  -- DRM_CFO
  prow 0x05 0xFFFF .rs 0x0 |>.signed 16,  -- DRM_SRO
  prow 0x06 0x1FFF .rw 0x1F4,  -- DRM_CFO_RANGE
  prow 0x07 0x73 .rw 0x40,  -- DRM_EQ_CFG
  prow 0x08 0xFF .rw 0x5,  -- DRM_LOST_FRAMES
  prow 0x09 0xFF .rw 0x20,  -- DRM_SKETCH_WIN
  prow 0x0A 0xFFFFFFFF .rs 0x80008000,  -- DRM_MER
  prow 0x0B 0xFFFF01FF .ro 0x0,  -- DRM_MSC_STAT
  prow 0x0C 0xFFFFFFFF .ro 0x0,  -- DRM_GLIMPSE
  prow 0x10 0xFFFFFFFF .rs 0x0 |>.satAt 0x15 0,  -- DRM_FAC_OK_CNT
  prow 0x11 0xFFFFFFFF .rs 0x0 |>.satAt 0x15 1,  -- DRM_FAC_ERR_CNT
  prow 0x12 0xFFFFFFFF .rs 0x0 |>.satAt 0x15 2,  -- DRM_SDC_OK_CNT
  prow 0x13 0xFFFFFFFF .rs 0x0 |>.satAt 0x15 3,  -- DRM_SDC_ERR_CNT
  prow 0x14 0xFFFFFFFF .rs 0x0 |>.satAt 0x15 4,  -- DRM_TREF_MISS_CNT
  prow 0x15 0x1F .w1c 0x0 ]  -- DRM_SAT

/-- Table 04-10, lane n at 0x4000 + 16n. -/
def laneRows : List PRow := [
  prow 0x00 0xFF .rws 0xFF,  -- LANE_SRC
  prow 0x01 0xFFFFFFFF .rw 0x0,  -- LANE_NCO
  prow 0x02 0xFF .rws 0x60,  -- LANE_CFG
  prow 0x03 0x3F3F .rws 0x909,  -- LANE_BANK
  prow 0x04 0x3F .wo 0x0,  -- LANE_BANK_NEXT
  prow 0x05 0xFFF .ro 0x0,  -- LANE_STATUS
  prow 0x06 0xFFFF .ro 0x0,  -- LANE_GEN
  prow 0x07 0xFFFFFFFF .ro 0x1F8,  -- LANE_DELAY
  prow 0x08 0xFFFF .ro 0x0,  -- LANE_HB_COST
  prow 0x09 0xFFFFFFFF .rs 0x0 |>.satAt 0x0F 0,  -- LANE_SUPERSEDED
  prow 0x0A 0xFFFFFFFF .rw 0x82CA82CA,  -- LANE_DET_CFG
  prow 0x0B 0xFFFFFFFF .rs 0x80008000,  -- LANE_DET_IF
  prow 0x0C 0xFFFFFFFF .rs 0x80008000,  -- LANE_DET_DEM
  prow 0x0D 0xFFFFFFFF .rs 0x80008000,  -- LANE_DET_ENV
  prow 0x0E 0xFFFFFFFF .rs 0x0 |>.satAt 0x0F 1,  -- LANE_SAT_CNT
  prow 0x0F 0x3 .w1c 0x0 ]  -- LANE_SAT

/-- Table 05-4, page 0x50, slot n at +16n. -/
def fmsRows : List PRow := [
  prow 0x00 0xFF .rw 0xFF,  -- FMS_LANE
  prow 0x01 0xF .rw 0xF,  -- FMS_DEST
  prow 0x02 0xF3F .rw 0x339,  -- FMS_CFG
  prow 0x03 0xFFFFFFFF .rw 0x110543C,  -- FMS_BLEND
  prow 0x04 0xFFFFFF .rw 0x301028,  -- FMS_SOFTMUTE
  prow 0x05 0xFFFFFF .rw 0x144828,  -- FMS_HIGHCUT
  prow 0x06 0xFFFF .rw 0x40,  -- FMS_PILOT_HOLD
  prow 0x07 0xFF .rw 0x0 |>.signed 8,  -- FMS_GAIN
  prow 0x08 0x7F .ro 0x0,  -- FMS_STATUS
  prow 0x09 0xFFFFFFFF .rs 0x0,  -- FMS_Q
  prow 0x0A 0xFFFF01FF .rs 0x0,  -- FMS_AUDIO
  prow 0x0B 0xFFFFFFFF .rs 0x0,  -- FMS_PILOT_LVL
  prow 0x0C 0xFFFF03FF .rs 0x0,  -- FMS_IND
  prow 0x0D 0xFFFFFFFF .rs 0x0 |>.satAt 0x0E 0,  -- FMS_CLIP_CNT
  prow 0x0E 0x1 .w1c 0x0 ]  -- FMS_SAT

/-- Table 05-5, page 0x51, slot n at +16n. -/
def amsRows : List PRow := [
  prow 0x00 0xFF .rw 0xFF,  -- AMS_LANE
  prow 0x01 0xF .rw 0xF,  -- AMS_DEST
  prow 0x02 0x3 .rw 0x3,  -- AMS_CFG
  prow 0x03 0xFFFFFF .rw 0x30108C,  -- AMS_SOFTMUTE
  prow 0x04 0xFF .rw 0x0 |>.signed 8,  -- AMS_GAIN
  prow 0x05 0x7F .ro 0x0,  -- AMS_STATUS
  prow 0x06 0xFFFFFFFF .rs 0x0,  -- AMS_LVL
  prow 0x07 0xFFFFFFFF .rs 0x0 |>.satAt 0x08 0,  -- AMS_CLIP_CNT
  prow 0x08 0x1 .w1c 0x0 ]  -- AMS_SAT

/-- Table 05-6, page 0x51. -/
def dmdRows : List PRow := [
  prow 0x80 0xFFFF .rw 0xE0C0 |>.signed 16,  -- DMD_FOUND_LVL
  prow 0x81 0xFFFF .rw 0xDE68 |>.signed 16,  -- DMD_LOST_LVL
  prow 0x82 0xFFFF .rw 0x100,  -- DMD_LOST_TICKS
  prow 0x83 0xFF .rw 0x28,  -- DMD_PILOT_ON
  prow 0x84 0xFF .rw 0x19,  -- DMD_PILOT_OFF
  prow 0x85 0x3 .rw 0x1,  -- DMD_AM_PLL_BW
  prow 0x86 0xFF .ro 0x0,  -- DMD_FM_CNT
  prow 0x87 0x7F .ro 0x0 ]  -- DMD_AM_CNT

/-- The block that an address lies in (Table 20-5): its rows, its base address, and the offset inside it. -/
def blockOf (a : Nat) : List PRow × Nat × Nat :=
  let page := a / 256
  let off := a % 256
  if page = 0x00 then (sysRows, a - off, off)
  else if page = 0x01 then (evtRows, a - off, off)
  else if page = 0x02 then
    if off < 0x30 then (clkRows.take 13, a - off % 16, off % 16) else (clkRows, a - off, off)
  else if page = 0x03 then (pwrRows, a - off, off)
  else if page = 0x04 then (bootRows, a - off, off)
  else if page = 0x05 then (hbRows, a - off, off)
  else if page = 0x06 then (strRows, a - off, off)
  else if page = 0x07 then (schRows, a - off, off)
  else if page = 0x08 then (feRows, a - off, off)
  else if page = 0x09 then if off < 0xE0 then (feRows, a - off, off) else ([], 0, 0)
  else if page = 0x0A then
    if 0x20 ≤ off ∧ off < 0x30 then (calRows, a - off + 0x10, off - 0x10)
    else if 0x40 ≤ off ∧ off < 0x50 then (calRows, a - off + 0x10, off - 0x10)
    else (calRows, a - off, off)
  else if page = 0x0B then (swtRows, a - off, off)
  else if page = 0x0C then
    if 0x70 ≤ off then
      let k := (off - 0x70) / 18
      if k < 8 then (galRows, a - off + 18 * k, 0x70 + (off - 0x70) % 18) else ([], 0, 0)
    else (galRows, a - off, off)
  else if page = 0x0D then (lnkRows, a - off, off)
  else if page = 0x0E then
    if off < 0x40 then (dacRows, a - off % 16, off % 16) else (dacRows, a - off, off)
  else if page = 0x0F then (varRows, a - off, off)
  else if 0x10 ≤ page ∧ page ≤ 0x1B then (winRows, a - off, off)
  else if 0x20 ≤ page ∧ page ≤ 0x27 then (dabRows, a - off, off)
  else if 0x28 ≤ page ∧ page ≤ 0x2F then (drmRows, a - off % 128, off % 128)
  else if 0x40 ≤ page ∧ page ≤ 0x49 then (laneRows, a - off % 16, off % 16)
  else if page = 0x50 then (fmsRows, a - off % 16, off % 16)
  else if page = 0x51 then
    if off < 0x80 then (amsRows, a - off % 16, off % 16) else (dmdRows, a - off, off)
  else ([], 0, 0)

/-- The row of a parameter address; `none` for a reserved page or offset (R573). -/
def rowAt (a : Nat) : Option PRow :=
  let (rows, _, off) := blockOf a
  rows.find? (·.covers off)

/-- The base address of the block that `a` lies in. -/
def blockBase (a : Nat) : Nat := (blockOf a).2.1

/-- The SAT parameter and bit of counter `a` (R565; for EVT_CNT_n, Table 20-7). -/
def satOf (a : Nat) : Option (Nat × Nat) :=
  if 0x140 ≤ a ∧ a < 0x180 then some (0x10A + (a - 0x140) / 32, (a - 0x140) % 32)
  else match rowAt a with
    | some r => r.sat.map fun x => (blockBase a + x.1, x.2)
    | none => none

/-- The field mask of a parameter; 0 for a reserved address. -/
def maskAt (a : Nat) : Nat := match rowAt a with
  | some r => r.mask
  | none => 0

/-- The Reset column (R12), where a repeated block does not repeat it: the loops' CLK_COAST_MAX, the attenuator sections. -/
def resetAt (a : Nat) : Nat :=
  if a = 0x215 then 2000 else if a = 0x225 then 5
  else if 0xA11 ≤ a ∧ a ≤ 0xA15 then 1000 * 2 ^ (a - 0xA11)
  else if 0xA21 ≤ a ∧ a ≤ 0xA25 then 1000 * 2 ^ (a - 0xA21)
  else match rowAt a with
    | some r => r.rst
    | none => 0

/-- The saturation group of a counter's page (Table 20-5), in the order of EVT_SAT_PEND; EVT_CNT_n by R566. -/
def satGroup (a : Nat) : Nat :=
  let page := a / 256
  if 0x140 ≤ a ∧ a < 0x180 then (a - 0x140) / 8
  else if page ≤ 0x01 then 0
  else if page ≤ 0x03 then 1
  else if page ≤ 0x05 then 6
  else if page ≤ 0x07 then 3
  else if page ≤ 0x0A then 2
  else if page = 0x0B then 5
  else if page = 0x0C then if a % 256 < 0x60 then 5 else 4
  else if page ≤ 0x0F then 7
  else if page ≤ 0x1B then 2
  else if page ≤ 0x2F then 4
  else if page ≤ 0x49 then 2
  else 4

end Sys2Proof.Machine
end

