-- ==== Sys2Proof/Machine/Tbl.lean ====
section
/-! DEFINITION. Sparse tables: what the receiver holds in numbered places (parameters, table words, lanes, slots, jobs) is a list of (index, value) pairs in ONE canonical form, indices strictly rising and no entry equal to what an unlisted index reads as. -/

namespace Sys2Proof.Machine

/-- A sparse table: index and value, indices strictly rising. -/
abbrev Tbl (α : Type) := List (Nat × α)

/-- The entry listed at index `k`. -/
def Tbl.find {α : Type} (t : Tbl α) (k : Nat) : Option α :=
  match t with
  | [] => none
  | (i, v) :: r => if i = k then some v else Tbl.find r k

/-- What index `k` holds; an unlisted index reads as `d`. -/
def Tbl.get {α : Type} (d : α) (t : Tbl α) (k : Nat) : α := (Tbl.find t k).getD d

/-- Insert or replace the entry at `k`, keeping the order. -/
def Tbl.put {α : Type} (t : Tbl α) (k : Nat) (v : α) : Tbl α :=
  match t with
  | [] => [(k, v)]
  | (i, x) :: r =>
    if k < i then (k, v) :: (i, x) :: r
    else if k = i then (k, v) :: r
    else (i, x) :: Tbl.put r k v

/-- Remove what is listed at `k`. -/
def Tbl.del {α : Type} (t : Tbl α) (k : Nat) : Tbl α :=
  match t with
  | [] => []
  | (i, x) :: r => if i = k then Tbl.del r k else (i, x) :: Tbl.del r k

/-- Write `v` at `k`: writing what an unlisted index reads as removes the entry, so equal tables are equal lists. -/
def Tbl.set {α : Type} [DecidableEq α] (d : α) (t : Tbl α) (k : Nat) (v : α) : Tbl α :=
  if v = d then Tbl.del t k else Tbl.put t k v

/-- Every index of `t` lies above `k`. -/
def Tbl.above {α : Type} (k : Nat) : Tbl α → Bool
  | [] => true
  | (i, _) :: r => decide (k < i) && Tbl.above k r

/-- Indices strictly rise. -/
def Tbl.sorted {α : Type} : Tbl α → Bool
  | [] => true
  | (i, _) :: r => Tbl.above i r && Tbl.sorted r

/-- The canonical form: indices strictly rising, and no entry equal to what its index reads as when unlisted. -/
def Tbl.wf {α : Type} [DecidableEq α] (d : Nat → α) (t : Tbl α) : Bool :=
  Tbl.sorted t && t.all fun e => !decide (e.2 = d e.1)

/-- Change the entry at `k` by `f`. -/
def Tbl.mod {α : Type} [DecidableEq α] (d : α) (t : Tbl α) (k : Nat) (f : α → α) : Tbl α :=
  Tbl.set d t k (f (Tbl.get d t k))

/-- The lowest index at or above `k`, among `fuel` of them, that is not listed. -/
def Tbl.lowestFree {α : Type} (t : Tbl α) (k : Nat) : Nat → Option Nat
  | 0 => none
  | n + 1 => if (Tbl.find t k).isNone then some k else Tbl.lowestFree t (k + 1) n

end Sys2Proof.Machine
end

