-- ==== Sys2Proof/Machine/State.lean ====
section
/-! DEFINITION. The receiver's state as plain data: everything the manual gives the SNX-4180, and the queue of waiting commands. -/

namespace Sys2Proof.Machine

/-- Why the machine stops with a fault. No row of the operation table stops it: every happening has an effect in the manual. -/
inductive Fault where
deriving DecidableEq, Repr

/-- Why a command has no meaning. -/
inductive Refusal where
  /-- Raised by `exec` on a command that has no meaning yet. Safe: the machine stops. -/
  | notModelled (mnemonic : String)
deriving DecidableEq, Repr

/-- The raises of one event that its next record will cover (R571). -/
structure EvRec where
  raises : Nat
  masked : Bool
  handle : Nat
  detail : Nat
  first : Nat
deriving DecidableEq, Repr

/-- Event state beside the parameters of page 0x01 (R559 to R571). -/
structure EvSt where
  /-- The CHG bit of the status byte (R413). -/
  chg : Bool
  /-- Raises not yet recorded, by event; 64 + g for group g. -/
  recs : Tbl EvRec
  /-- Tick of each event's previous record. -/
  last : Tbl Nat
  /-- An unmasked event became pending since the last status byte that the host read (R424). -/
  fresh : Bool
  /-- Events 33 and 34, while pending, were raised for the legacy lane (R436): bits 0 and 1. -/
  legacy : Nat
deriving DecidableEq, Repr

/-- A record (R20, R21). -/
structure Rec where
  ty : Nat
  handle : Nat
  seq : Nat
  ts : Nat
  flags : Nat
  body : List Byte
deriving DecidableEq, Repr

/-- A record waiting in the STR partition (R342, R443). -/
structure QRec where
  rec_ : Rec
  /-- The job it belongs to; `none` for a system record. -/
  job : Option Nat
  /-- 0 GUARANTEED or system, 1 ELASTIC, 2 PROBE. -/
  cls : Nat
  /-- Studio time by which its last byte must have left. -/
  deadline : Option Nat
  /-- Order of production. -/
  order : Nat
  /-- First boundary at which it was seen at the head, waiting for credit (R444). -/
  waiting : Option Nat
  /-- Open messages of a hold-mode verified stream that it touches, and whether one has failed (R549). -/
  opens : Nat
  bad : Bool
deriving DecidableEq, Repr

/-- A run of lost records of one stream (R448). -/
structure LostRun where
  first : Nat
  count : Nat
  job : Nat
  handle : Nat
  ty : Nat
deriving DecidableEq, Repr

/-- One sequence stream (R25): its next number, and the flags its next record will carry. -/
structure Stream where
  next : Nat
  /-- The stream has used a number. -/
  born : Bool
  genv : Bool
  disc : Bool
  /-- Its records that were shed since its last record left, each by the order of production that it had, or would have had (R26). -/
  shed : List Nat
  lost : Option LostRun
deriving DecidableEq, Repr

def Stream.fresh : Stream := { next := 0, born := false, genv := false, disc := false, shed := [], lost := none }

/-- The stream port beside the parameters of page 0x06. -/
structure OutSt where
  streams : Tbl Stream
  queue : List QRec
  order : Nat
  /-- O, in 1/32,768 byte (R445), and the studio time up to which it has grown. -/
  owed : Nat
  owedAt : Nat
  /-- Tick of the drain failure in progress (R446). -/
  failing : Option Nat
  /-- A starvation episode is open (R444). -/
  starved : Bool
  /-- Bytes of the last record sent on STR_D. -/
  sent : List Byte
deriving DecidableEq, Repr

/-- Studio time, the timebase and TICK (R28 to R32, R366 to R371). -/
structure TimeSt where
  /-- Studio time, a 64-bit count. -/
  now : Nat
  /-- The next tick boundary to process, as a tick number (R366). -/
  tick : Nat
  /-- U0 in ns, and S0 (R367, R369). -/
  u0 : Int
  s0 : Int
  /-- Correction still to be slewed, ns (R369), and the studio time up to which it has been. -/
  slew : Int
  slewAt : Nat
  /-- The error bound in ns times 32,768,000, and the studio time up to which it has grown (R368). -/
  err : Option Nat
  errAt : Nat
  /-- The studio instant at which TICK falls; `none` while it is low (R370). -/
  tickHigh : Option Nat
  /-- The last second boundary that produced a full-time record (R370), and its UTC seconds. -/
  lastSec : Option Nat
  lastUtc : Nat
  /-- State 2 has been reached since reset (CLK_TICK_MODE). -/
  reached2 : Bool
  /-- A leap second is being inserted: the next full-time record is that of 23:59:60 (R371). -/
  leaping : Bool
  /-- The source in use has announced a leap second for the end of the UTC day (R255). -/
  leapDue : Bool
  /-- A state change that an accepted message asks for at the next tick boundary: 0 none, 1 coarse, 2 disciplined (R368). -/
  pendingMsg : Nat
  /-- Steps of studio time since reset (R303). -/
  steps : Nat
deriving DecidableEq, Repr

/-- One loop beside its parameters (R357 to R363). -/
structure LoopSt where
  /-- Studio time at which the coast or the stop began. -/
  since : Nat
  /-- The output is still being moved into alignment (R361). -/
  aligning : Bool
  /-- The latest studio time at which the loop was coasting, slewing or aligning. -/
  coastedAt : Option Nat
deriving DecidableEq, Repr

def LoopSt.reset : LoopSt := { since := 0, aligning := false, coastedAt := none }

/-- Clocks beside the parameters of page 0x02. -/
structure ClkSt where
  loops : Tbl LoopSt
  /-- The converter offset that every timestamp subtracts, in ps (R30, R361). -/
  offset : Int
  /-- TCXO_EN pin (R354). -/
  tcxoEn : Bool
deriving DecidableEq, Repr

/-- Power, rails, pins and Sketch mode beside the parameters of page 0x03. -/
structure PowerSt where
  /-- Rails below their valid threshold, one bit per rail in the order of SYS_SUPPLY. -/
  invalid : Nat
  /-- VDD_IO class sensed: 0 none, 1 1.8 V, 2 3.3 V (R579). -/
  ioClass : Nat
  /-- RESET_N pin level. -/
  resetN : Bool
  /-- In deep sleep (R377). -/
  deep : Bool
  /-- A write of 2 to PWR_MODE takes effect at the next tick boundary. -/
  deepPending : Bool
  /-- Studio time at which PWR_DEEP_WAKE ends the deep sleep (R377). -/
  deepWakeAt : Option Nat
  /-- Studio time at which a converter rail fell below its valid threshold (R580). -/
  convAt : Option Nat
  /-- WAKE pin level, and the tick at which the effect of its fall ends (R376). -/
  wake : Bool
  wakeUntil : Option Nat
  /-- Tick until which CTL stays awake for the host (R376). -/
  hostHold : Nat
  /-- The boot count held in the AO domain (R481). -/
  aoBoots : Option Nat
  /-- The last 1,024 ticks, one bit each, newest lowest: the CPLL ran; and how many of them (SKT_DUTY). -/
  duty : Nat
  dutyOn : Nat
  /-- The 1,024 edges of XO32K after VDD_AO became valid have passed, or their 2 s (R581). -/
  aoReady : Bool
  /-- BOOT_CAUSE of the boot that is still to start (R461). -/
  cause : Option Nat
  /-- Levels of ADDR[1:0] and PROF[1:0] (R460). -/
  addrPins : Nat
  profPins : Nat
deriving DecidableEq, Repr

/-- A V1_TUNE that waits for the end of the previous legacy job (R434): frequency, band, the counter of the sealed command that carries it, and the
generation of the lane that it names, as it was at its acceptance (R33). -/
structure TuneWait where
  kHz : Nat
  band : Nat
  sealedBy : Option Nat
  gen : Nat
deriving DecidableEq, Repr

/-- The host bus beside the parameters of page 0x05. -/
structure BusSt where
  /-- The held reply's body (R411). -/
  reply : List Byte
  /-- The held reply is complete. -/
  complete : Bool
  /-- The command held from before boot done (R421). -/
  held : Option Instr
  /-- Tick of the last attention request (R424), and the consecutive ignored ones (R426). -/
  atnAt : Option Nat
  ignored : Nat
  /-- An attention request is on the bus. -/
  atnActive : Bool
  /-- The bus is being ignored after SDA stuck (R417). -/
  stuck : Bool
  /-- Page 0x05 writes waiting for the first STOP after their reply has been read (R438). -/
  staged : Tbl Word
  /-- A profile switch has staged them: they wait for the first STOP alone (Table 14-7). -/
  atStop : Bool
  /-- A read of this many bytes holds SCL low until the reply is complete (R414). -/
  stretch : Option Nat
  /-- Bytes the receiver sent in the last read transaction or attention request. -/
  out : List Byte
  /-- The legacy job of V1_TUNE, its frequency in kHz, and the tune that waits for the old job's end (R434). -/
  v1Job : Option Nat
  v1kHz : Nat
  v1Wait : Option TuneWait
deriving DecidableEq, Repr

/-- A front end beside its parameters (R41 to R54, R66 to R69, R393 to R397). -/
structure FeSt where
  /-- The base attenuation of the overload episode, when one is open (R52). -/
  base : Option Nat
  /-- Tick of the last overload declaration. -/
  lastOvl : Option Nat
  /-- Consecutive ticks below target minus hysteresis (R44). -/
  below : Nat
  /-- Tick of the last return step (R52). -/
  lastReturn : Option Nat
  /-- Injection: tick at which it ends (R68). -/
  injEnd : Option Nat
  /-- The level measured for a stop that waits for the next tick boundary (R68, R70). -/
  injLevel : Option Int
  /-- Gain-ladder run: section under comparison, and the first of a pair of results, 0.001 dB. -/
  ladSection : Option Nat
  ladFirst : Option (Nat × Int)
  /-- A comparison has been aborted by an overload step. -/
  ladAborted : Bool
  /-- Sections accepted in the run that is active. -/
  ladDone : Nat
  /-- Accepted section values waiting for the next tick boundary (R397). -/
  ladStaged : Tbl Nat
  /-- Tick of the last comparison (R395), and die temperature at the run start (R396). -/
  ladAt : Nat
  runTemp : Option Int
  /-- Latest studio time at which a calibration step touched the path (R402). -/
  calAt : Option Nat
  /-- The branch weight of combining lanes is held at zero after overload (R61). -/
  divOff : Bool
  /-- A release or return step waits for a gain-ladder comparison (R48). -/
  owedStep : Bool
  /-- A ladder run is due (R396), as it is after RESET_N. -/
  runDue : Bool
  /-- Die temperature recorded with the sections that the journal loaded (R398). -/
  ladJournal : Option Int
  /-- Die temperature at the last acceptance, or as the journal gave it (Table 16-7). -/
  ladTemp : Option Int
  /-- Clipped samples of the tick in progress that a declared overload has counted (R50). -/
  counted : Nat
  /-- Latest studio time at which test injection ran (R67). -/
  injAt : Option Nat
  /-- Calibrated attenuations, 0.001 dB, with the studio time from which each was in force, newest first (R45). -/
  gains : List (Nat × Nat)
deriving DecidableEq, Repr

def FeSt.reset : FeSt :=
  { base := none, lastOvl := none, below := 0, lastReturn := none, injEnd := none, injLevel := none, ladSection := none, ladFirst := none,
    ladAborted := false, ladDone := 0, ladStaged := [], ladAt := 0, runTemp := none, calAt := none, divOff := false, owedStep := false, runDue := true, ladJournal := none, ladTemp := none, counted := 0, injAt := none, gains := [] }

/-- A converter beside its parameters (R63 to R65, R389 to R392). -/
structure AdcSt where
  /-- Consecutive failed comparisons by sub-converter. -/
  fails : Tbl Nat
  /-- The previous pass of four turns: offset, gain, skew. -/
  prevPass : Option (Int × Int × Int)
  /-- The spare's accepted corrections wait for a handover. -/
  accepted : Bool
  /-- Tick of the last handover. -/
  lastHand : Nat
  /-- Slots in the order of their last handover, longest active first. -/
  ages : List Nat
  /-- The slot that the spare shadows. -/
  shadow : Option Nat
  /-- Stopped by two failed sub-converters (R65). -/
  stopped : Bool
  /-- Sub-converters accepted since RESET_N, one bit each. -/
  okSubs : Nat
deriving DecidableEq, Repr

def AdcSt.reset : AdcSt :=
  { fails := [], prevPass := none, accepted := false, lastHand := 0, ages := [0, 1, 2, 3], shadow := none, stopped := false, okSubs := 0 }

/-! The signal path. -/

/-- A complex sample. -/
abbrev Smp := Int × Int

/-- A CIC decimator (R75, R105): integrators, combs, and inputs taken since its last output. -/
structure CicSt where
  ints : List Smp
  combs : List Smp
  count : Nat
deriving DecidableEq, Repr

/-- A cleared CIC of `n` stages. -/
def CicSt.clear (n : Nat) : CicSt := { ints := List.replicate n (0, 0), combs := List.replicate n (0, 0), count := 0 }

/-- A half-band stage: its delay line, newest first, and whether an input waits for the second of its pair (R116). -/
structure FirSt where
  line : List Smp
  half : Bool
deriving DecidableEq, Repr

/-- A detector set (R131): mean square with 16 fraction bits, peak, envelope, and whether a sample was other than zero since the restart. -/
structure DetSt where
  s : Int
  p : Int
  e : Int
  seen : Bool
deriving DecidableEq, Repr

def DetSt.clear : DetSt := { s := 0, p := 0, e := 0, seen := false }

/-- A tracking loop: its phase, 2^32 to the turn, and its frequency word. -/
structure PllSt where
  phase : Int
  freq : Int
deriving DecidableEq, Repr

def PllSt.clear : PllSt := { phase := 0, freq := 0 }

/-- A window's datapath (R73 to R80). -/
structure WinDsp where
  phase : Nat
  cic : CicSt
  /-- Droop compensator delay line, newest first. -/
  droop : List Smp
  /-- Outputs that are still discarded after a restart (R80), and the studio time of the restart. -/
  drop : Nat
  since : Nat
  /-- The live export's block that is being filled, oldest first, and the studio time of its first sample (R85). -/
  block : List Smp
  blockAt : Nat
  /-- The capture ring, newest first, and the studio time of its newest sample (R96 to R99). -/
  ring : List Smp
  ringAt : Nat
  /-- The last output met WIN_CAP_LEVEL (Table 03-7). -/
  loud : Bool
deriving DecidableEq, Repr

def WinDsp.reset : WinDsp :=
  { phase := 0, cic := CicSt.clear 5, droop := [], drop := 32, since := 0, block := [], blockAt := 0, ring := [], ringAt := 0, loud := false }

/-- A weight pair of a combining lane, Q15: that of branch A, and that of branch B with its rotation (R58 to R60). -/
structure Weights where
  a : Int
  b : Smp
deriving DecidableEq, Repr

/-- A bank fade (R125): the studio time of its acceptance, the requested bank, and the output samples that it has taken. -/
structure FadeSt where
  from_ : Nat
  new : Nat
  n : Nat
deriving DecidableEq, Repr

/-- What a lane adds up over a tick for R138 to R141, R153 and R154. -/
structure LaneAcc where
  /-- Multiplex samples, and the sum of squares of the filtered ones. -/
  n : Nat
  noise : Nat
  /-- Magnitudes of the lane outputs and their sum, and the sum of squares after the high-pass. -/
  envN : Nat
  envSum : Nat
  envHigh : Nat
  /-- Sums of the multiplex against the pilot's cosine and sine. -/
  pilotI : Int
  pilotQ : Int
  /-- Powers of the three bands of R141. -/
  bands : Nat × Nat × Nat
  /-- Largest magnitude of the AM output, and the sum of squares of the loop's phase error in units of 2π / 2^16. -/
  peak : Nat
  phErr : Nat
  phN : Nat
deriving DecidableEq, Repr

def LaneAcc.clear : LaneAcc :=
  { n := 0, noise := 0, envN := 0, envSum := 0, envHigh := 0, pilotI := 0, pilotQ := 0, bands := (0, 0, 0), peak := 0, phErr := 0, phN := 0 }

/-- A candidate bit boundary of the RDS decoder: the biphase sum of the bit that runs, the sum of the bit before, the mean power of its sums, and the studio
time at which the bit that runs began (0 before the first). -/
structure RdsArm where
  sum : Smp
  prev : Smp
  power : Nat
  start : Nat
deriving DecidableEq, Repr

/-- The RDS decoder's bit recovery (R230): the place in the bit in 2^-32 cycles of the 57 kHz reference, 48 cycles a bit, the sixteen candidate boundaries, and
the bits not yet taken, each with the studio time of its start, oldest first; `seen` is the time of the last multiplex sample (0 before any). -/
structure RdsDsp where
  place : Nat
  seen : Nat
  arms : List RdsArm
  bits : List (Nat × Bool)
deriving DecidableEq, Repr

def RdsDsp.reset : RdsDsp := { place := 0, seen := 0, arms := List.replicate 16 { sum := (0, 0), prev := (0, 0), power := 0, start := 0 }, bits := [] }

/-- The correlation signal of an FM lane (R278): multiplex samples since its last one, its 50 µs and 75 µs sections, and its samples since the last boundary,
newest first: time of the multiplex sample, without de-emphasis, with 50 µs, with 75 µs. -/
structure CorrSt where
  count : Nat
  de50 : Int × Int
  de75 : Int × Int
  out : List (Nat × Int × Int × Int)
deriving DecidableEq, Repr

def CorrSt.clear : CorrSt := { count := 0, de50 := (0, 0), de75 := (0, 0), out := [] }

/-- A lane's datapath (R102 to R132) and its FM or AM demodulator (R136 to R141, R153, R154). -/
structure LaneDsp where
  phase : Nat
  /-- Studio time of the last restart: no output leaves before the whole filter span lies after it (R111). -/
  since : Nat
  cicA : CicSt
  cicB : CicSt
  /-- Weight pairs with the studio time from which each is approached, newest first (R59). -/
  weights : List (Nat × Weights)
  hb : List FirSt
  fir : List Smp
  /-- The bank that the channel FIR computes with, and the fades that follow, oldest first (R125, R127). -/
  bank : Nat
  fades : List FadeSt
  /-- Studio time of the first output since the restart. -/
  first : Option Nat
  ifDet : DetSt
  demDet : DetSt
  /-- The last lane output, and the multiplex and magnitude delay lines, newest first. -/
  last : Option Smp
  mpx : List Int
  env : List Int
  st3 : List Smp
  pilot : PllSt
  rds : PllSt
  rdsBits : RdsDsp
  /-- AM: the carrier mean with 16 fraction bits, the loop, and lane samples left of the cross-fade of option 0x04 (R154). -/
  carrier : Int
  am : PllSt
  amFade : Nat
  acc : LaneAcc
  corr : CorrSt
deriving DecidableEq, Repr

def LaneDsp.reset : LaneDsp :=
  { phase := 0, since := 0, cicA := CicSt.clear 4, cicB := CicSt.clear 4, weights := [], hb := [], fir := [], bank := 0, fades := [], first := none, ifDet := DetSt.clear,
    demDet := DetSt.clear, last := none, mpx := [], env := [], st3 := [], pilot := PllSt.clear, rds := PllSt.clear, rdsBits := RdsDsp.reset, carrier := 0, am := PllSt.clear,
    amFade := 0, acc := LaneAcc.clear, corr := CorrSt.clear }

/-- An audio-grade slot's datapath (R144 to R155). -/
structure SlotDsp where
  /-- Delay lines of the sum and difference filters (the AM low-pass uses the first), newest first, and inputs since the last output. -/
  mid : List Int
  side : List Int
  count : Nat
  /-- Input and output of the first-order sections: high pass, high cut left and right, de-emphasis left and right. -/
  hp : Int × Int
  hcL : Int × Int
  hcR : Int × Int
  deL : Int × Int
  deR : Int × Int
  /-- Soft mute before the last change, and audio samples since that change (R150). -/
  muteOld : Nat
  muteN : Nat
  /-- Audio samples of the ramp-in that have left, and those left of a ramp-out from the last output (R152). -/
  rampIn : Nat
  rampOut : Nat
  last : Int × Int
  /-- Studio time at which the lane's first new output has passed the audio path; `none` while it has not begun (R152). -/
  start : Option Nat
  /-- Decoded samples that the next audio instants will take, oldest first, each with its studio time. -/
  fifo : List (Nat × Int × Int)
  /-- Audio samples of the last tick, oldest first, each with its audio instant. -/
  out : List (Nat × Int × Int)
deriving DecidableEq, Repr

def SlotDsp.reset : SlotDsp :=
  { mid := [], side := [], count := 0, hp := (0, 0), hcL := (0, 0), hcR := (0, 0), deL := (0, 0), deR := (0, 0), muteOld := 0, muteN := 32,
    rampIn := 0, rampOut := 0, last := (0, 0), start := none, fifo := [], out := [] }

/-- A window beside its parameters (R79 to R99). -/
structure WinSt where
  /-- Boundary (tick) at which the phase was cleared (R79). -/
  phaseAt : Nat
  /-- The window has discarded its samples since the restart (R80). -/
  settled : Bool
  /-- Studio time of arm, and samples written since, when the ring was emptied last (R97, R98). -/
  capSince : Nat
  /-- Trigger sample time. -/
  capTrig : Nat
  capTrunc : Bool
  capPartial : Bool
  /-- Pre-trigger and post-trigger samples of the frozen ring. -/
  capPre : Nat
  capPost : Nat
  /-- Attenuation at the trigger sample, and centre and source in force. -/
  capAttn : Nat
  capCentre : Nat
  capSrc : Nat
  /-- Samples of the frozen ring already exported, and the live export's next sample time. -/
  capSent : Nat
  expJob : Option Nat
  capJob : Option Nat
  /-- Its datapath (R73 to R80). -/
  dsp : WinDsp
deriving DecidableEq, Repr

def WinSt.reset : WinSt :=
  { phaseAt := 0, settled := false, capSince := 0, capTrig := 0, capTrunc := false, capPartial := false, capPre := 0, capPost := 0,
    capAttn := 0, capCentre := 0, capSrc := 0, capSent := 0, expJob := none, capJob := none, dsp := WinDsp.reset }

/-- Canvas (R86 to R94). -/
structure CanvasSt where
  /-- The active map: descriptor word by partition. -/
  active : Tbl Word
  /-- A valid commit waits for the next tick boundary, with the map committed. -/
  pending : Option (Tbl Word)
  /-- Partitions above their high-water threshold (event 28 not re-armed). -/
  high : Tbl Bool
deriving DecidableEq, Repr

/-- What one front end and its converter gave over the tick that ends (R43, Table 02-7): composite RMS and peak in 0.01 dBFS, the clipped samples,
and the studio counts at which they fell. -/
structure FeMeas where
  fe : Nat
  rms : Int
  peak : Int
  clipped : Nat
  clips : List Nat
deriving DecidableEq, Repr

/-- What one running lane gave over the tick that ends: the detector latches of R132 as their 16-bit fields, and the FM figures of R138 to
R141 or AM figures of R153. -/
structure LaneMeas where
  lane : Nat
  ifRms : BitVec 16
  ifPeak : BitVec 16
  demRms : BitVec 16
  demPeak : BitVec 16
  ifEnv : BitVec 16
  demEnv : BitVec 16
  /-- MNR of the tick, 0.1 dB (FM). -/
  mnr : Int
  pilotDev : Nat
  pilotErr : Int
  /-- Multipath indicator, per mille, and the two adjacent-channel indicators (FM). -/
  multipath : Nat
  adjLo : Int
  adjHi : Int
  /-- Carrier mean, 0.01 dBFS, and peak modulation, per mille (AM). -/
  carrier : Int
  modulation : Nat
  /-- Sum of squares of the AM loop's phase error, in units of 2π / 2^16, and its samples. -/
  phErr : Nat
  phN : Nat
deriving DecidableEq, Repr

/-- One RDS block as the decoder takes it: its 16 information bits, the offset word that its syndrome matches (0 A, 1 B, 2 C, 3 D, 4 C'; none where no
offset matches), the bits corrected, and whether the syndrome could be cleared. -/
structure RdsBlock where
  bits : BitVec 16
  offset : Option Nat
  corrected : Nat
  ok : Bool
deriving DecidableEq, Repr

/-- A group as its four blocks. -/
structure Group where
  a : RdsBlock
  b : RdsBlock
  c : RdsBlock
  d : RdsBlock
deriving DecidableEq, Repr

/-- RDS decoding on one FM lane (R230 to R235). -/
structure RdsSt where
  sync : Bool
  /-- Results of the last 50 blocks, newest first, and the offset expected next (0 A to 3 D; 4 before any match). -/
  recent : List Bool
  expect : Nat
  /-- The blocks of the group that runs, each with the studio time of its first bit, and the groups not yet taken with the time of their first, oldest first. -/
  group : List (Nat × RdsBlock)
  ready : List (Nat × Group)
  /-- Start of the last bit taken. -/
  lastBit : Nat
  /-- Last received value by field, and last confirmed value by field (R232). -/
  seen : Tbl Nat
  conf : Tbl Nat
  /-- The confirmed PI, and the studio time at which the lane first carried it (R246). -/
  pi : Option Nat
  piAt : Nat
  /-- AF codes of the list being received, and of the list before it (R234). -/
  afCur : List Nat
  afPrev : List Nat
  /-- Runs of Table 08-11: groups with PTY 31 and with another PTY, each with the reference time of its first. -/
  ptyRun : Nat
  ptyFirst : Nat
  clearRun : Nat
  clearFirst : Nat
  /-- Reference times of the groups 9A of the last 10 s, oldest first. -/
  nines : List Nat
  /-- By PI(ON): groups 14A variant 13 with PTY 31 and with another PTY in a row, each with its first reference time. -/
  eonOn : Tbl (Nat × Nat)
  eonOff : Tbl (Nat × Nat)
  /-- By PI(ON): AF codes of the list being received, and of the list before it. -/
  eonAf : Tbl (List Nat × List Nat)
  /-- The last group passed on: its twelve body bytes and its tick (R435). -/
  last : Option (List Byte × Nat)
deriving DecidableEq, Repr

def RdsSt.reset : RdsSt :=
  { sync := false, recent := [], expect := 4, group := [], lastBit := 0, ready := [], seen := [], conf := [], pi := none, piAt := 0, afCur := [], afPrev := [], ptyRun := 0,
    ptyFirst := 0, clearRun := 0, clearFirst := 0, nines := [], eonOn := [], eonOff := [], eonAf := [], last := none }

/-- A lane beside its parameters. -/
structure LaneSt where
  /-- The lane or follow job that holds it, and its option byte (R134). -/
  job : Option Nat
  option : Nat
  /-- The lane has started (R108); its filters are filled (R111); its job is suspended (R351). -/
  started : Bool
  filled : Bool
  suspended : Bool
  /-- Tick of the last start or retune. -/
  phaseAt : Nat
  /-- Pointer B is active (Table 04-10). -/
  actB : Bool
  /-- A bank fade runs towards the inactive pointer; a linking cross-fade runs on the lane (R128). -/
  fading : Bool
  /-- Studio time from which the bank fade runs. -/
  fadeAt : Nat
  linkFade : Bool
  /-- Pending bank, pending linking cross-fade (follow instance), and whether the cross-fade was accepted first. -/
  pend : Option Nat
  /-- Studio time at which the pending bank request was accepted. -/
  pendAt : Nat
  pendLink : Option Nat
  linkFirst : Bool
  /-- Carrier found, and the runs of ticks above and below the thresholds (R142). -/
  found : Bool
  foundRun : Nat
  lostRun : Nat
  /-- Pilot lock, its runs, and the ticks of lock (R138). -/
  pilot : Bool
  pilotOn : Nat
  pilotOff : Nat
  pilotTicks : Nat
  /-- Synchronous AM loop lock, with its runs of ticks of small and of large phase error; option 0x04 in envelope detection (R154). -/
  amLock : Bool
  amGood : Nat
  amBad : Nat
  amEnv : Bool
  /-- Combining: the weight pair (pa, pb, c), branch B selected, and branches held at zero (R58 to R61). -/
  pa : Nat
  pb : Nat
  cRe : Int
  cIm : Int
  rotRe : Int
  rotIm : Int
  selB : Bool
  single : Bool
  /-- A generation step restarted the lane since the last tick boundary. -/
  voided : Bool
  rds : RdsSt
  /-- The last measurements of the lane, as the boundary latched them. -/
  meas : Option LaneMeas
  /-- MNR of the last 256 ticks since the restart, newest first (R275). -/
  mnrs : List Int
  /-- Tick until which an ended alarm instance keeps the lane running in Sketch mode (R262). -/
  watch : Nat
  /-- Further groups or frames until an alarm condition that a unit may have opened is decided (R381). -/
  undecided : Nat
  /-- Its datapath (R102 to R132). -/
  dsp : LaneDsp
deriving DecidableEq, Repr

/-- A lane at reset. A combining lane in SELECT has branch A, with the weights of A alone, before its first change (DESIGN CHOICE, log entry 62: R60 names no first branch). -/
def LaneSt.reset : LaneSt :=
  { job := none, option := 0, started := false, filled := false, suspended := false, phaseAt := 0, actB := false, fading := false,
    fadeAt := 0, linkFade := false, pend := none, pendAt := 0, pendLink := none, linkFirst := false, found := false, foundRun := 0, lostRun := 0, pilot := false,
    pilotOn := 0, pilotOff := 0, pilotTicks := 0, amLock := false, amGood := 0, amBad := 0, amEnv := false, pa := 0, pb := 0, cRe := 0, cIm := 0, rotRe := 1, rotIm := 0,
    selB := false, single := false, voided := false, rds := RdsSt.reset, meas := none, mnrs := [], watch := 0, undecided := 0, dsp := LaneDsp.reset }

/-- An admitted job (R323 to R352). -/
structure Job where
  /-- The descriptor's 28 bytes as admitted (Table 11-1). -/
  desc : List Byte
  /-- 1 scheduled, 2 running, 3 suspended, 4 held without output, 5 ending (Table 11-11). -/
  state : Nat
  reason : Nat
  /-- Tick at which it starts and, for a job with a duration, ends. -/
  start : Nat
  stop : Option Nat
  allowance : Nat
  lmin : Nat
  /-- Stream reservation, mean rate, burst, Trellis steps per tick. -/
  rate : Nat
  mean : Nat
  burst : Nat
  trellis : Nat
  /-- Lane slots held, and Canvas pages (KiB) by partition. -/
  lanes : List Nat
  pages : Tbl Nat
  /-- 0 host, 1 profile, 2 parameter write. -/
  origin : Nat
  records : Nat
  late : Nat
  shed : Nat
  maxLate : Nat
  sat : Nat
  lateRun : Bool
  shedRun : Bool
  /-- Tick at which a withdrawal takes effect. -/
  ending : Option Nat
  /-- A generation step has made the job discard data since its admission (R35). -/
  voided : Bool
deriving DecidableEq, Repr

/-- The Director beside the parameters of page 0x07. -/
structure SchedSt where
  /-- A NO_CAPACITY refusal has been given since the last event 31 (R351). -/
  wanting : Bool
  /-- Resources were released since the last boundary; suspended jobs resumed since the last boundary. -/
  released : Bool
  resumed : Nat
deriving DecidableEq, Repr

/-- One entry of the glimpse plan (Table 12-9). -/
structure Glimpse where
  handle : Nat
  kind : Nat
  divider : Nat
  misses : Nat
  nextG : Nat
  span : Nat
  /-- The glimpse is in progress; RDS blocks received in it, and whether the first failed (R380). -/
  active : Bool
  blocks : Nat
  failed : Bool
deriving DecidableEq, Repr

/-- A member of a follow instance (R270 to R280). -/
structure MemberSt where
  /-- 0 FM, 1 DAB, 2 DRM. -/
  kind : Nat
  kHz : Nat
  /-- PI, SId or DRM service identifier. -/
  ident : Nat
  regional : Bool
  /-- Tick of the last identity evidence; the member counted as verified at the last boundary. -/
  evidence : Option Nat
  verified : Bool
  /-- Score S, 0.1 dB. -/
  score : Option Int
  aligned : Bool
  /-- Lag relative to the anchor, studio counts, and the last estimate that has not been adopted (R280). -/
  lag : Int
  prev : Option Int
  /-- A lag that moves at the next tick boundary. -/
  move : Option Int
  fails : Nat
  estAt : Nat
  /-- An estimate is wanted or running. -/
  wanted : Bool
deriving DecidableEq, Repr

/-- A background lane of a follow instance (R273, R274). -/
structure BgSt where
  lane : Nat
  member : Option Nat
  /-- Excerpts that it is parked for; 0 while it visits (R274). -/
  park : Nat
  /-- Tick of its first output sample on the member, once there, or of the start of the park. -/
  since : Option Nat
  /-- Sum and number of the MNR figures of the visit (Table 09-3). -/
  mnr : Int × Nat := (0, 0)
deriving DecidableEq, Repr

/-- A change of carrier that is decided (R286 to R292). -/
structure ChangeSt where
  dst : Nat
  /-- 1 quality, 2 failure, 3 forced, 4 re-armed. -/
  cause : Nat
  /-- The incoming lane of an FM member. -/
  lane : Nat
  decided : Nat
  /-- The lag in force at arming (R293). -/
  lag : Int
  /-- Connector time c_s of a change with a DAB or DRM member (R290); of another, the first faded connector time, and 0 before its fade. -/
  cs : Nat
  fading : Bool
  hard : Bool
deriving DecidableEq, Repr

/-- An excerpt of an FM member (R279): the lane it is taken on, the connector time of its first sample, and its samples, newest first. -/
structure Excerpt where
  key : Nat
  lane : Nat
  tx : Nat
  xs : List Int
deriving DecidableEq, Repr

/-- The programme of a linking instance (R282 to R291): the ring with the samples of the slot that writes it, and the fade buffer with those of the incoming slot,
each sample with its audio instant, newest first. -/
structure LinkAud where
  slot : Nat
  ring : List (Nat × Int × Int)
  incSlot : Nat
  inc : List (Nat × Int × Int)
  /-- e at which the ring is read, once it is, and that of the incoming member, in 1/3,000,000 counts. -/
  e : Option Int
  eInc : Int
  /-- 0 steady, 1 a change is armed, 2 cross-fade, 3 ramp-out before a hard switch. -/
  phase : Nat
  /-- Studio time at which the fade starts, and F (R289, R290). -/
  at_ : Nat
  len : Nat
  /-- A DAB or DRM member is current: now, and after the change. -/
  dig : Bool
  digInc : Bool
  /-- Samples of the ramp-in that have left, and those left of a ramp-out. -/
  rampIn : Nat
  rampOut : Nat
deriving DecidableEq, Repr

def LinkAud.reset : LinkAud :=
  { slot := 31, ring := [], incSlot := 31, inc := [], e := none, eInc := 0, phase := 0, at_ := 0, len := 0, dig := false, digInc := false, rampIn := 0, rampOut := 0 }

/-- A follow instance beside its parameters (R266 to R295). -/
structure FollowSt where
  job : Option Nat
  /-- Its members by key (AF pool entry for FM, 16,384 + Gallery entry for DAB and DRM), R270. -/
  members : Tbl MemberSt
  /-- The current member, the anchor's member, and the standby (R277, R278). -/
  current : Option Nat
  anchor : Option Nat
  standby : Option Nat
  onAir : Nat
  bgs : List BgSt
  /-- The slots of the pair: that of the current FM member or anchor, and the free one. -/
  slotCur : Nat
  slotFree : Nat
  /-- q of the on-air lane, R146 with k = 3, once it has started. -/
  q : Option Int
  /-- Consecutive ticks with S below 0, tick of the last change, and successive quality decisions (R286). -/
  failTicks : Nat
  changedAt : Nat
  holdRuns : Nat
  /-- A slew runs towards this extra delay (R285), and the studio time up to which it has moved. -/
  slew : Option Int
  slewAt : Nat
  /-- A forced change waits for the next boundary. -/
  force : Option Nat
  /-- The change that is armed, fading or hard switching. -/
  change : Option ChangeSt
  /-- The current member's carrier was lost since the last boundary. -/
  carrierLost : Bool
  /-- The programme has ramped in. -/
  rampedIn : Bool
  /-- Gallery entries that contribute a member (R270). -/
  entries : List Nat
  /-- A change that a lane restart has re-armed since the last boundary (Table 09-6). -/
  rearmed : Bool
  /-- The anchor's correlation signal of the last 12.000 s: connector time and sample, newest first (R278). -/
  hist : List (Nat × Int)
  /-- Excerpts of FM members (R279). -/
  exs : List Excerpt
  /-- Its programme (R282 to R291). -/
  aud : LinkAud
deriving DecidableEq, Repr

def FollowSt.reset : FollowSt :=
  { job := none , members := [], current := none, anchor := none, standby := none, onAir := 0xFF, bgs := [], slotCur := 31,
    slotFree := 31, q := none, failTicks := 0, changedAt := 0, holdRuns := 0, slew := none, slewAt := 0, force := none, change := none, carrierLost := false,
    rampedIn := false, entries := [], rearmed := false, hist := [], exs := [], aud := LinkAud.reset }

/-- A read transaction on the NVM bus: device address, word address, bytes (R462, R466). -/
structure NvmTx where
  dev : Nat
  word : Nat
  len : Nat
deriving DecidableEq, Repr

/-- Start-up beside the parameters of page 0x04 (R460 to R488). -/
structure BootSt where
  /-- Boot is done (R475). -/
  done : Bool
  /-- The receiver runs on factory profile F after a check-word failure (FBK, R413). -/
  fbk : Bool
  /-- The step of the boot sequence that is due: 0 not started, 1 header, 2 journal, 3 profile read, 4 apply, 5 job section, 6 boot done, 7 running. -/
  phase : Nat
  /-- The header as read at boot: format (0 when it is not valid), directory, journal pointer, journal flag, page size, and a first read that failed (R467, R468). -/
  fmt : Nat
  dir : List (Nat × Nat)
  jptr : Option Nat
  jen : Bool
  page : Nat
  reread : Bool
  /-- The checked profile that waits to be applied, at boot or at the switch boundary; no bytes for F. -/
  prof : Option (Nat × List Byte)
  /-- A PROFILE command that waits for a pending switch or a journal write (R477, R488), with the counter of the sealed command that carries it. -/
  wait : Option (Nat × NvmRead × NvmRead × Option Nat)
  /-- Tick of the parameter step, or of a pending switch, and the jobs that wait for the job section (R474, R477). -/
  appliedAt : Nat
  jobs : List (List Byte)
  /-- The transactions of the last read of the NVM (R466). -/
  reads : List NvmTx
  /-- Consecutive arbitration losses, and bus clearings of the episode (R463, R465). -/
  losses : Nat
  clears : Nat
  /-- Newest valid journal slot and its sequence, the content last written, and the studio time of the last due moment (R480 to R482). -/
  jnew : Option (Nat × Nat)
  jlast : List Byte
  jat : Nat
  /-- A write of 1 to BOOT_JRNL_CTRL waits for the next due moment; a write runs: its bytes and slot (R482, R483). -/
  jask : Bool
  jwrite : Option (List Byte × Nat)
  /-- Studio time since which the profile in force has run without a fallback. -/
  goodAt : Nat
  /-- Profile F's scan (R485, R486): running; visits ended by FM scan lane; blocks visited; block by DAB watch lane. -/
  scan : Bool
  fmRound : Tbl Nat
  dabNext : Nat
  dabOn : Tbl Nat
  /-- FM candidates of the scan, kHz and IF RMS, and kept carriers by watch lane. -/
  cands : List (Nat × Int)
  kept : Tbl (Nat × Int)
  /-- Tick at which the last scan began. -/
  scanAt : Nat
deriving DecidableEq, Repr

def BootSt.reset : BootSt :=
  { done := false, fbk := false, phase := 0, fmt := 0, dir := [], jptr := none, jen := false, page := 0, reread := false, prof := none, wait := none,
    appliedAt := 0, jobs := [], reads := [], losses := 0, clears := 0, jnew := none, jlast := [], jat := 0, jask := false, jwrite := none, goodAt := 0,
    scan := false, fmRound := [], dabNext := 0, dabOn := [], cands := [], kept := [], scanAt := 0 }

/-- A subchannel as FIG 0/1 organises it (R183). -/
structure SubCh where
  start : Nat
  size : Nat
  /-- [6:0] table index or level, [7] EEP, [8] set B, as DAB_SC_PROT packs them. -/
  prot : Nat
  rate : Nat
deriving DecidableEq, Repr

/-- A component of a DAB service: its SubChId, or its SCId in packet mode, whether it is DAB+, its SCIdS when given, the tick at which it was last listed,
and whether the last FIG 0/2 of its service listed it. -/
structure CompSt where
  stream : Bool
  id : Nat
  plus : Bool
  scids : Option Nat
  seen : Nat
  listed : Bool
deriving DecidableEq, Repr

/-- A service with its components by index. -/
structure SvcSt where
  sid : Nat
  seen : Nat
  comps : Tbl CompSt
deriving DecidableEq, Repr

/-- A client of the Trellis engine, with what its decoded block is (R193, R194): a FIC block, a logical frame of an MSC job, a level of a DRM block
(kind 0 FAC, 1 SDC, 2 MSC), a segment of a link frame. -/
inductive TrlClient where
  | fic (ens ref block : Nat)
  | msc (job ens ref cif : Nat)
  | drm (ch kind level : Nat)
  | link
deriving DecidableEq, Repr

/-- A block that waits for the Trellis engine (R194): deadline in ticks, order of arrival, its length in steps, and its soft values, four to a step;
a link segment carries none. -/
structure TrlBlock where
  client : TrlClient
  deadline : Nat
  order : Nat
  size : Nat
  soft : List (List Int)
deriving DecidableEq, Repr

/-- A FIC block as the engine delivers it: the reference point of its frame, its place in the frame, and its 96 bytes (R178). -/
structure FicBlock where
  ref : Nat
  block : Nat
  bytes : List Byte
deriving DecidableEq, Repr

/-- A logical frame as the engine delivers it: its CIF count and reference point, the bits corrected, and its bytes (R185, R190). -/
structure MscFrame where
  cif : Nat
  ref : Nat
  corrected : Nat
  bytes : List Byte
deriving DecidableEq, Repr

/-- The samples and symbols of an ensemble (R166 to R170, R197, R198). Sample i is the lane output of the studio counts from 16 i on. -/
structure EnsDsp where
  /-- Lane outputs, newest first, and the number of the newest. -/
  line : List Smp
  last : Nat
  /-- The first sample not yet searched for a dip, and the nulls found in the last frame (R166). -/
  seen : Nat
  dips : List Nat
  /-- First sample of the null of the frame in progress, and whether a null was found there (R171); the samples have a gap before them (R175). -/
  start : Nat
  nullOk : Bool
  woke : Bool
  /-- The frame's FIC is received and the frame is not yet judged (R171). -/
  due : Bool
  /-- Symbols taken of the frame; the carriers of the last one, and the magnitudes of the last eight, newest first (R170). -/
  sym : Nat
  prev : List Smp
  amps : List (List Nat)
  /-- Guard interval correlation summed over the frame (R168). -/
  corr : Smp
  /-- Soft values since the FIC or the CIF began, in order. -/
  soft : List Int
  /-- CIFs that are complete and not yet decoded, oldest first: CIF count, reference point, soft values; and the last 16 decoded, newest first (R185). -/
  ready : List (Nat × Nat × List Int)
  cifs : List (Nat × Nat × List Int)
  /-- Powers of the impulse responses, newest first (R198); the move of the window that the last one asks for, and the moves made, newest first (R169). -/
  cirs : List (List Nat)
  move : Int
  moves : List Int
  /-- Mean carrier power; frames since the TII measurements began, null-symbol carrier powers summed over the TII frames of the measurement in progress,
  and those of a complete measurement (R197). -/
  mean : Nat
  tiiN : Nat
  tii : List Nat
  tiiDone : Option (List Nat)
  /-- Signal and error power of the frame's products (R316). -/
  sig : Nat
  err : Nat
deriving DecidableEq, Repr

def EnsDsp.reset : EnsDsp :=
  { line := [], last := 0, seen := 0, dips := [], start := 0, nullOk := false, woke := false, due := false, sym := 0, prev := [], amps := [], corr := (0, 0), soft := [], ready := [],
    cifs := [], cirs := [], move := 0, moves := [], mean := 0, tiiN := 0, tii := [], tiiDone := none, sig := 0, err := 0 }

/-- A DAB ensemble demodulator beside its parameters (R166 to R198). -/
structure EnsSt where
  /-- Failed phase references in state 2 (R167); frames without a good FIB in state 3; frames in state 5 (R171, R172). -/
  phaseFails : Nat
  noGood : Nat
  held : Nat
  /-- A FIB of the frame being decoded has passed. -/
  good : Bool
  /-- Its samples and symbols; the FIC blocks that the Trellis engine delivered, oldest first; a CIF count of FIG 0/0, as that of the first CIF of its frame,
  with the frame's reference point. -/
  dsp : EnsDsp
  fic : List FicBlock
  cif : Option (Nat × Nat)
  /-- FIG change counts held: confirmed and candidate version by FIG (R238). -/
  versions : Tbl Nat
  candidates : Tbl Nat
  /-- Subchannels in force and as last received, by SubChId (R183, R186). -/
  subs : Tbl SubCh
  next : Tbl SubCh
  /-- A reconfiguration is announced by FIG 0/0, for the CIF count of its low part (R186). -/
  announced : Bool
  occurs : Nat
  /-- SubChId of packet-mode components by SCId (FIG 0/3), and services by index (R14, R247): in force, and as last received. -/
  pkts : Tbl Nat
  packets : Tbl Nat
  org : Tbl SvcSt
  svcs : Tbl SvcSt
  /-- A confirmed change of version waits for the next tick boundary (R238). -/
  changed : Bool
  /-- EId of the last FIG 0/0, its Al flag, and the local offset of FIG 0/9. -/
  eid : Option Nat
  al : Bool
  lto : Nat
  /-- MER at the last boundary, 0.1 dB (R275). -/
  mer : Option Int
deriving DecidableEq, Repr

def EnsSt.reset : EnsSt :=
  { phaseFails := 0, noGood := 0, held := 0, good := false, dsp := EnsDsp.reset, fic := [], cif := none, versions := [], candidates := [], subs := [], next := [],
    announced := false, occurs := 0, pkts := [], packets := [], org := [], svcs := [],
    changed := false, eid := none, al := false, lto := 0x80, mer := none }

/-- A stream of the DRM multiplex: bytes of parts A and B per multiplex frame. -/
structure DrmStream where
  a : Nat
  b : Nat
deriving DecidableEq, Repr

/-- A DRM service by its index: identifier, short identifier, the tick at which it was last received, and its components: by index the stream and the tick at
which the SDC last gave it to the service (R14, R221, R247). -/
structure DrmSvc where
  sid : Nat
  short : Nat
  seen : Nat
  comps : Tbl (Nat × Nat)
deriving DecidableEq, Repr

/-- An equalised cell (R214): Z and the weight, both with 16 fraction bits. -/
structure DrmCell where
  z : Smp
  w : Nat
deriving DecidableEq, Repr

/-- A DRM block on its way through the Trellis engine, level by level (R214, R216): reference point, frame index or frame count, levels, protection, its cells,
the bits of the levels decoded, the bits corrected, its deadline and the steps declared. -/
structure DrmBlock where
  ref : Nat
  frame : Nat
  count : Nat
  prot : Nat
  cells : List DrmCell
  levels : List (List Bool)
  corrected : Nat
  deadline : Nat
  declared : Nat
deriving DecidableEq, Repr

/-- The samples and symbols of a DRM channel at its native rate (R204 to R215). -/
structure DrmDsp where
  /-- Inputs of the resampler, newest first, and the studio time of the newest; its position after the newest, in units of 2^-24 / 3 input samples; the phase
  of the derotator. -/
  input : List Smp
  inAt : Nat
  pos : Nat
  rot : Nat
  /-- Native samples, newest first, each with the studio time of the lane output at it, and the number of the newest. -/
  line : List (Nat × Smp)
  last : Nat
  /-- Native sample at which the mode was identified, and the first sample of the frame in progress; whether its time reference was found (R206, R209);
  the samples have a gap before them (R226). -/
  from_ : Nat
  start : Nat
  trefOk : Bool
  woke : Bool
  /-- A frame is received and not yet judged; the carrier offset in 2^-8 of DRM_CFO's unit (R207). -/
  due : Bool
  cfo : Int
  /-- Phase of the derotator, 2^32 to the turn, at native sample `phAt`; first sample of the frame before. -/
  ph : Nat
  phAt : Nat
  prev : Nat
  /-- Symbols taken of the frame, and in all; the carriers of the last symbols, newest first. -/
  sym : Nat
  n : Nat
  syms : List (List Smp)
  /-- Raw estimates by place of the carrier, newest first, and averaged ones, each with its symbol (R211, R212). -/
  raw : Tbl (List Smp)
  est : Tbl (List (Nat × Smp))
  /-- First path of the pilot-derived impulse response, native samples (R213). -/
  tau : Nat
  /-- Sum and number of |raw estimate - interpolated estimate|² in this frame and in the one before it (R214). -/
  noise : Nat × Nat
  sigma : Nat × Nat
  /-- Cells equalised in the frame: FAC, SDC, MSC, oldest first; the MSC cells of the last frames with their reference points, newest first (R220). -/
  fac : List DrmCell
  sdc : List DrmCell
  msc : List DrmCell
  depth : List (Nat × List DrmCell)
  /-- Σ|a|², Σ|e|² and the same weighted by |H|² (R215). -/
  mer : Nat × Nat
  wmer : Nat × Nat
deriving DecidableEq, Repr

def DrmDsp.reset : DrmDsp :=
  { input := [], inAt := 0, pos := 0, rot := 0, line := [], last := 0, from_ := 0, start := 0, trefOk := false, woke := false, due := false, cfo := 0, ph := 0, phAt := 0, prev := 0, sym := 0, n := 0, syms := [], raw := [], est := [], tau := 0,
    noise := (0, 0), sigma := (0, 0), fac := [], sdc := [], msc := [], depth := [], mer := (0, 0), wmer := (0, 0) }

/-- A DRM channel beside its parameters (R205 to R226). -/
structure DrmSt where
  /-- Frames in state 5 (R210). -/
  held : Nat
  /-- The FAC of the frame being judged has passed. -/
  good : Bool
  versions : Tbl Nat
  candidates : Tbl Nat
  svcs : Tbl DrmSvc
  /-- The multiplex in force and as last received: protection and mapping, and streams; the short Id that claims each stream; a reconfiguration is announced, and
  its frame has come (R220, R221). -/
  mux : Option (Nat × List DrmStream)
  next : Option (Nat × List DrmStream)
  claims : Tbl Nat
  announced : Bool
  recDue : Bool
  changed : Bool
  /-- A SDC block has passed since sync, and a frame has been judged since then (R219). -/
  sdcOk : Bool
  armed : Bool
  /-- Multiplex frames since sync (Table 07-7), and the index of the frame in progress in its super frame, when known. -/
  frames : Nat
  index : Option Nat
  /-- The mode identified (R205): 0 to 4 for A to E. -/
  mode : Nat
  /-- Event 24 has been raised for the occupancy, and for the signalling in force (R208, R219). -/
  toldOcc : Bool
  toldMsc : Option (Nat × Bool)
  /-- The service that the FAC names last: its identifier. -/
  sid : Option Nat
  /-- Its samples and symbols (R204 to R216). -/
  dsp : DrmDsp
  /-- Blocks in the Trellis engine by kind: 0 FAC, 1 SDC, 2 MSC; and the blocks delivered, oldest first: reference point, frame index or count, bits corrected, bits. -/
  blocks : Tbl DrmBlock
  facs : List (Nat × Nat × Nat × List Bool)
  sdcs : List (Nat × Nat × Nat × List Bool)
  mscs : List (Nat × Nat × Nat × List Bool)
deriving DecidableEq, Repr

def DrmSt.reset : DrmSt :=
  { held := 0, good := false, versions := [], candidates := [], svcs := [], mux := none, next := none, claims := [], announced := false, recDue := false, changed := false,
    sdcOk := false, armed := false, frames := 0, index := none, mode := 7, toldOcc := false, toldMsc := none, sid := none, dsp := DrmDsp.reset, blocks := [], facs := [],
    sdcs := [], mscs := [] }

/-- An FM or AM audio-grade slot beside its parameters (R143 to R160). -/
structure SlotSt where
  /-- The lane it is attached to. -/
  lane : Option Nat
  /-- It has ramped in (state running). -/
  ramped : Bool
  /-- Soft mute attenuation in force, 0.5 dB; q has started; ticks in the running state (R288). -/
  mute : Nat
  qSet : Bool
  ready : Nat
  /-- Its datapath (R144 to R155). -/
  dsp : SlotDsp
deriving DecidableEq, Repr

def SlotSt.reset : SlotSt := { lane := none, ramped := false, mute := 0, qSet := false, ready := 0, dsp := SlotDsp.reset }

/-- A broadcast alarm instance (R256 to R263). -/
structure AlarmSt where
  kind : Nat
  source : Nat
  identity : Nat
  /-- Order of start, tick of its last signalling, and studio time of the loss of its source. -/
  order : Nat
  lastSig : Nat
  lostAt : Option Nat
  subch : Nat

deriving DecidableEq, Repr

/-- An alarm start or end that waits for its tick boundary (R257). -/
structure AlmPend where
  start : Bool
  kind : Nat
  source : Nat
  identity : Nat
  /-- Reference points of the first unit of its run, and of the last one received. -/
  ts : Nat
  heard : Nat
  subch : Nat
  order : Nat
deriving DecidableEq, Repr

/-- The Gallery beside its words (R241 to R250). -/
structure GalSt where
  /-- Lowest entry changed since the last boundary (R243). -/
  dirty : Option Nat
  /-- Entries received since the last ageing boundary (R244). -/
  seen : Tbl Bool
  /-- Event 44 has been raised and not re-armed (R245). -/
  full : Bool
  /-- Entries carried by a lane, in order of reception (held bit, R246). -/
  holds : Tbl (List Nat)
deriving DecidableEq, Repr

/-- A broadcast time source (R251 to R253). -/
structure TimSrc where
  /-- UTC of its last message, ms, and the message's reference point. -/
  utc : Int
  ref : Nat
  /-- Studio time of its last accepted message. -/
  accepted : Option Nat
deriving DecidableEq, Repr

/-- An MSC job's decoder (R183 to R188, R219 to R221). -/
structure MscSt where
  /-- Order of admission. -/
  order : Nat
  /-- The subchannel it resolves to. -/
  sub : Option Nat
  /-- That subchannel as it was when decoding began. -/
  cfg : Option SubCh
  plus : Bool
  exceeds : Bool
  decoding : Bool
  /-- CIFs, or transmission frames, taken since decoding began. -/
  fill : Nat
  /-- Logical frames delivered and not yet reported; those of the superframe in progress (R187). -/
  out : List MscFrame
  sf : List MscFrame
  /-- The next unit is the first after a start or restart. -/
  first : Bool
  sync : Bool
  /-- Consecutive superframes that failed the fire code. -/
  fails : Nat
  /-- DAB_SC_FAIL_CNT. -/
  failCnt : Nat
  /-- Failed superframes among the last eight (R276). -/
  recent : List Bool
deriving DecidableEq, Repr

def MscSt.reset : MscSt :=
  { order := 0, sub := none, cfg := none, plus := false, exceeds := false, decoding := false, fill := 0, out := [], sf := [], first := true, sync := false, fails := 0,
    failCnt := 0, recent := [] }

/-- A sealed message whose verdict is open (R547 to R551). -/
structure MsgSt where
  bytes : List Byte
  /-- Orders of production of the queued records that it touches (hold mode). -/
  orders : List Nat
  first : Nat
  last : Nat
  count : Nat
  handle : Nat
  ty : Nat
  complete : Bool
deriving DecidableEq, Repr

/-- A verified stream (R546). -/
structure VerSt where
  slot : Nat
  prov : Bool
  tlen : Nat
  stream : Nat
  ctr : Nat
  /-- Event 62 has been raised. -/
  told : Bool
  msgs : List MsgSt
  lastSeq : Option Nat
deriving DecidableEq, Repr

/-- A measurement, at a time at the aerial connector (R301, R308 to R317). -/
inductive SwtPoint where
  /-- A channel FIR output, with the calibrated attenuation in force on the primary and the other branch, 0.001 dB (R309). -/
  | lane (t : Nat) (y : Smp) (own other : Nat)
  /-- A combining lane's front: power of the primary branch, of the other and of the combined sample (R310). -/
  | front (t p1 p2 p : Nat)
  /-- A multiplex sample, and a tick of an FM lane: pilot lock, what the lane added up, the tracker's frequency word (R313). -/
  | mpx (t : Nat) (m : Int)
  | fm (t : Nat) (locked : Bool) (a : LaneAcc) (freq : Int)
  /-- An RDS block, with its state, at its last bit. -/
  | rds (t state : Nat)
  /-- A detector sample of an AM lane, with the carrier mean (16 fraction bits) and Im z (R311); a tick of it: loop lock and frequency word. -/
  | am (t : Nat) (v c im : Int)
  | amTick (t : Nat) (locked : Bool) (freq : Int)
  /-- LANE_DET_IF, LANE_DET_DEM and LANE_DET_ENV of a tick (R132). -/
  | det (t ifs dem env : Nat)
  /-- A DAB frame: state, Σ|z|² of the ideal points and Σ|e|² (R316), whether its null was found, DAB_CIR_PATHS, DAB_SRO, DAB_CFO. -/
  | ens (t state sig err : Nat) (nullOk : Bool) (paths : Nat) (sro cfo : Int)
  /-- An impulse-response average over `n` frames (R317), and a TII measurement (Table 10-7). -/
  | cir (t n : Nat) (taps : List Nat)
  | tii (t : Nat) (l : List Nat)
  /-- A DRM frame: state, MER and WMER sums (R215), DRM_CFO. -/
  | drm (t state : Nat) (mer wmer : Nat × Nat) (cfo : Int)
  /-- A FIB, FAC block or SDC block (`kind` 0, 1, 2) that passed or failed. -/
  | block (t kind : Nat) (ok : Bool)
  /-- A tick of a front end: FE_RMS, FE_PEAK, clipped samples, FE_OVL_STATE; an overload declaration, an attenuation change. -/
  | fe (t : Nat) (rms peak : Int) (clips state : Nat)
  | feOvl (t : Nat)
  | feStep (t : Nat)
  /-- A tick of the Studio link: idle or not, with its RSSI in 0.1 dBm (R315). -/
  | link (t : Nat) (idle : Bool) (rssi : Int)
deriving DecidableEq, Repr

/-- A measurement interval that has ended and whose Swatch is due (R301 to R307), with what it measured, newest first. -/
structure SwtEnd where
  start : Nat
  stop : Nat
  ticks : Nat
  /-- Cause bits (Table 10-3), and the attenuation range. -/
  causes : Nat
  attnMin : Nat
  attnMax : Nat
  genv : Bool
  disc : Bool
  data : List SwtPoint
deriving DecidableEq, Repr

/-- A measurement job's intervals (R301 to R307). -/
structure SwtSt where
  /-- An interval runs, from this studio time. -/
  running : Bool
  start : Nat
  /-- Boundaries follow the TICK pulses (R302). -/
  aligned : Bool
  /-- Generation of the Swatch unit, sum of the object's generations and the count of steps of studio time at the start. -/
  unit : Nat
  gens : Nat
  steps : Nat
  stopped : Bool
  clipped : Bool
  attnMin : Nat
  attnMax : Nat
  /-- The next record carries GENV (R307). -/
  genv : Bool
  /-- What the running interval has measured, newest first. -/
  data : List SwtPoint
  ended : List SwtEnd
deriving DecidableEq, Repr

def SwtSt.reset : SwtSt :=
  { running := false, start := 0, aligned := false, unit := 0, gens := 0, steps := 0, stopped := false, clipped := false, attnMin := 0, attnMax := 0,
    genv := false, data := [], ended := [] }

/-- A control output beside its parameters (R525 to R535). -/
structure DacSt where
  /-- VDD_DAC newly valid: the CLRSEL code until another source takes the channel. -/
  fresh : Bool
  /-- The code that source 6 moves to, and a write that waits for the next update edge (R529). -/
  code : Nat
  pend : Bool
  /-- The generator runs; its phase; a start or stop that waits for the next tick boundary (R533). -/
  sine : Bool
  phase : Nat
  sineReq : Option Bool
  /-- The alarm code is held after the alarm (R535). -/
  hold : Bool
  /-- The next limited code raises event 63 (R531). -/
  armed : Bool
  /-- Update edges left of a range change (R532). -/
  rangeEdges : Nat
  /-- DAC_CODE as the active profile set it (R527). -/
  prof : Nat
  /-- The last 64 pairs of code and reading, newest first (R400). -/
  pairs : List (Nat × Int)
deriving DecidableEq, Repr

def DacSt.reset : DacSt :=
  { fresh := true, code := 0, pend := false, sine := false, phase := 0, sineReq := none, hold := false, armed := false, rangeEdges := 0, prof := 0, pairs := [] }

/-- A queued or running transmission of the Studio link (R504, R509). -/
structure TxEnt where
  /-- Identifier; 0xFFFF for internal frames. -/
  id : Nat
  /-- 0 data, 1 alarm, 2 time. -/
  kind : Nat
  dest : Nat
  secured : Bool
  pri : Bool
  /-- Studio time of the last sync bit of a timed frame. -/
  timed : Option Nat
  payload : List Byte
  ctr : Nat
  tag : List Byte
  ver : Nat
deriving DecidableEq, Repr

/-- A peer (R501). -/
structure PeerSt where
  ver : Nat
  aerial : Nat
  rssi : Int
  ctr : Nat
  /-- Order of its last frame. -/
  heard : Nat
deriving DecidableEq, Repr

/-- A reception in progress (R497 to R499): 1 level, 2 preamble qualified, 3 after sync. -/
structure RxSt where
  stage : Nat
  level : Int
  aerial : Nat
  afc : Int
  /-- RSSI over the sync word, and the studio time of its last bit. -/
  rssi : Int
  syncAt : Nat
  overlap : Bool
deriving DecidableEq, Repr

/-- A transmission in progress: before the grant, or on air. -/
structure TxSt where
  ent : TxEnt
  onAir : Bool
  /-- Studio time of its ramp-up; COEX_REQ rises 20 µs before. -/
  at_ : Nat
  aerial : Nat
  /-- The state that a refusal before ramp-up returns to. -/
  back : Nat
  /-- Power in force at its ramp-up, dBm (R492). -/
  power : Int
deriving DecidableEq, Repr

/-- Copies of an alarm frame that are still to be queued (R511). -/
structure CopySt where
  payload : List Byte
  left : Nat
  due : Nat
deriving DecidableEq, Repr

/-- The Studio link beside the parameters of page 0x0D. -/
structure LinkSt where
  /-- The state last commanded (0 OFF, 1 STANDBY, 2 RX), and one that waits for a frame's end (R514). -/
  want : Nat
  req : Option Nat
  queue : List TxEnt
  rx : Option RxSt
  tx : Option TxSt
  /-- The COEX pins. -/
  coexReq : Bool
  coexPri : Bool
  coexGnt : Bool
  nextId : Nat
  peers : Tbl PeerSt
  heard : Nat
  /-- Duty accounts of the sub-bands, µs: the current minute first, then whole minutes (R510). -/
  duty : Tbl (List Nat)
  told : Bool
  copies : List CopySt
  /-- The bytes of the last frame sent, length byte to CRC. -/
  sent : List Byte
  /-- Studio time of the last change of state, transmission or detected packet, and the channel at the last boundary (R315). -/
  busyAt : Nat
  lastHz : Nat
deriving DecidableEq, Repr

/-- A computation in progress in a host context (R538, R544). -/
structure CtxSt where
  /-- A generation, else a verification. -/
  gen : Bool
  slot : Nat
  /-- Message bytes so far, chaining value, and the bytes of the block not yet chained. -/
  count : Nat
  chain : List Byte
  part : List Byte
deriving DecidableEq, Repr

/-- Varnish beside the key slots and the parameters of page 0x0F. -/
structure VarSt where
  ctxs : Tbl CtxSt
  /-- Last accepted counter of each slot's sealed sessions (R554). -/
  ctrs : Tbl Nat
  /-- Nonces of the sealed session, host's and receiver's. -/
  nh : List Byte
  nr : List Byte
  /-- Slots whose exhausted session counter has raised event 62 (R555). -/
  told : Tbl Bool
  /-- Outputs taken from the noise source. -/
  drawn : Nat
deriving DecidableEq, Repr

def VarSt.reset : VarSt := { ctxs := [], ctrs := [], nh := [], nr := [], told := [], drawn := 0 }

/-- A programme's resampler channel (R451, R455): its source (0 none, else 64 times the AUD_SRC code plus the slot or instance), the source's samples with their
audio instants, newest first, the last sample out, and those left of a ramp-out. -/
structure ProgSt where
  src : Nat
  line : List (Nat × Int × Int)
  last : Int × Int
  rampOut : Nat
deriving DecidableEq, Repr

def ProgSt.reset : ProgSt := { src := 0, line := [], last := (0, 0), rampOut := 0 }

/-- The audio port (R451 to R457): the AUD_CFG it runs with, frames left of the ramp-out before a new one, samples of the ramp-in that have left since it runs,
the time of its last frame in thirds of a count, and the programmes. -/
structure PortSt where
  cfg : Nat
  left : Nat
  rampIn : Nat
  last3 : Nat
  progs : Tbl ProgSt
deriving DecidableEq, Repr

def PortSt.reset : PortSt := { cfg := 0, left := 0, rampIn := 0, last3 := 0, progs := [] }

/-- Everything the manual gives the receiver but its key slots. -/
structure Chip where
  time : TimeSt
  clk : ClkSt
  power : PowerSt
  /-- Parameters whose value in force differs from the Reset column, by address (R572). -/
  regs : Tbl Word
  /-- Writes accepted that take effect at the next tick boundary, by address. -/
  staged : Tbl Word
  /-- Generation numbers of the blocks that no parameter reports: 0 FE-A, 1 FE-B, 2 ADC-A, 3 ADC-B, 4 half-band engine, 16 + p Canvas partition p (R33). -/
  gens : Tbl Nat
  ev : EvSt
  out : OutSt
  bus : BusSt
  fes : Tbl FeSt
  adcs : Tbl AdcSt
  wins : Tbl WinSt
  canvas : CanvasSt
  lanes : Tbl LaneSt
  /-- By lane, the primary windows that LANE_SRC has named, newest first, each with the studio time from which it did (R16). -/
  srcs : Tbl (List (Nat × Nat))
  /-- Palette words that a table write or a profile has changed from their reset value (R122). -/
  palette : Tbl Word
  jobs : Tbl Job
  sched : SchedSt
  glimpses : Tbl Glimpse
  /-- Gallery words, 8 per entry (Table 08-7), and AF pool words, 2 per entry (Table 08-8). -/
  gallery : Tbl Word
  afPool : Tbl Word
  /-- Swatch coverage log words, 4 per entry (Table 10-10). -/
  swtLog : Tbl Word
  /-- Link reference table words (Table 09-4). -/
  linkRef : Tbl Word
  follows : Tbl FollowSt
  boot : BootSt
  enss : Tbl EnsSt
  /-- Blocks that wait for the Trellis engine, and the number of the next to arrive; steps taken in this tick, and those of the next block that earlier ticks took (R194). -/
  trl : List TrlBlock
  trlOrder : Nat
  trlUsed : Nat
  trlPart : Nat
  drms : Tbl DrmSt
  fms : Tbl SlotSt
  ams : Tbl SlotSt
  alarms : Tbl AlarmSt
  /-- Alarm starts and ends waiting for their boundary, in order, and the running order number. -/
  almPend : List AlmPend
  almOrder : Nat
  /-- Tick at which ALERT was last driven low (R259). -/
  alertAt : Nat
  gal : GalSt
  /-- Time sources by rank * 256 + lane, the source in use, and whether it may be replaced (R253). -/
  times : Tbl TimSrc
  timeUse : Option Nat
  timeStale : Bool
  mscs : Tbl MscSt
  mscOrder : Nat
  vers : Tbl VerSt
  swts : Tbl SwtSt
  /-- Event 47 has been raised and not re-armed (R321). -/
  swtHigh : Bool
  /-- The audio port beside its parameters (R451 to R457). -/
  aport : PortSt
  /-- What the audio port carried in the frames of the last tick, by 8 times the line of AUD_DO plus the first channel: two slots of 32 bits a frame (R157, R451). -/
  audio : Tbl (List (Word × Word))
  dacs : Tbl DacSt
  link : LinkSt
  varn : VarSt
  /-- The model's own: how many free values the run has used. -/
  free : Nat
deriving DecidableEq, Repr

/-- A Varnish key slot that holds a key (R540, Table 19-2). -/
structure Key where
  bytes : List Byte
  ident : Word
  /-- [3:0] usage bits, [8] AES-256, as VAR_KEY_ATTR packs them. -/
  attr : Nat
deriving DecidableEq, Repr

/-- The whole receiver, with its key slots apart, and the queue of commands. -/
structure State where
  /-- Commands and events waiting, first in, first out. -/
  pending : List Instr
  chip : Chip
  /-- The occupied key slots, by slot number. -/
  keys : Tbl Key
deriving DecidableEq, Repr

/-- The chip right after reset: parameters at their Reset column (R12), boot not yet begun. -/
def Chip.reset : Chip where
  time := { now := 0, tick := 1, u0 := 0, s0 := 0, slew := 0, slewAt := 0, err := none, errAt := 0, tickHigh := none, lastSec := none,
            lastUtc := 0, reached2 := false, leaping := false, leapDue := false, pendingMsg := 0, steps := 0 }
  clk := { loops := [], offset := 0, tcxoEn := false }
  power := { invalid := 0, ioClass := 0, resetN := true, deep := false, deepPending := false, deepWakeAt := none, convAt := none, wake := false,
             wakeUntil := none, hostHold := 0, aoBoots := none, duty := 0, dutyOn := 0,
             aoReady := false, cause := some 0, addrPins := 0, profPins := 0 }
  regs := []
  staged := []
  gens := []
  ev := { chg := false, recs := [], last := [], fresh := false, legacy := 0 }
  out := { streams := [], queue := [], order := 0, owed := 0, owedAt := 0, failing := none, starved := false, sent := [] }
  bus := { reply := [0x00], complete := true, held := none, atnAt := none, ignored := 0, atnActive := false, stuck := false, staged := [], atStop := false,
           stretch := none, out := [], v1Job := none, v1kHz := 0, v1Wait := none }
  fes := []
  adcs := []
  wins := []
  canvas := { active := [], pending := none, high := [] }
  lanes := []
  srcs := []
  palette := []
  jobs := []
  sched := { wanting := false, released := false, resumed := 0 }
  glimpses := []
  gallery := []
  afPool := []
  swtLog := []
  linkRef := []
  follows := []
  boot := BootSt.reset
  enss := []
  trl := []
  trlOrder := 0
  trlUsed := 0
  trlPart := 0
  drms := []
  fms := []
  ams := []
  alarms := []
  almPend := []
  almOrder := 0
  alertAt := 0
  gal := { dirty := none, seen := [], full := false, holds := [] }
  times := []
  timeUse := none
  timeStale := false
  mscs := []
  mscOrder := 0
  vers := []
  swts := []
  swtHigh := false
  aport := PortSt.reset
  audio := []
  dacs := []
  link := { want := 0, req := none, queue := [], rx := none, tx := none, coexReq := false, coexPri := false, coexGnt := false, nextId := 0,
            peers := [], heard := 0, duty := [], told := false, copies := [], sent := [], busyAt := 0, lastHz := 0 }
  varn := VarSt.reset
  free := 0

/-- The machine right after reset: the chip reset, every key slot empty (R542), no command waiting. -/
def State.reset : State where
  pending := []
  chip := Chip.reset
  keys := []

/-- Act on the chip alone: the key slots and the queue stay as they are. -/
def State.onChip (s : State) (f : Chip → Chip) : State := { s with chip := f s.chip }

/-- Act on the chip with the key slots at hand, which stay as they are. -/
def State.withKeys (s : State) (f : Tbl Key → Chip → Chip) : State := { s with chip := f s.keys s.chip }

end Sys2Proof.Machine
end

