-- ==== Sys2Proof/Machine/Ops.lean ====
section
/-! DEFINITION. The named operations over the parameters, the generations and the sub-states of the receiver, and the little-endian and signed conversions (R9, R572). -/

namespace Sys2Proof.Machine

/-- `n` bytes of `v`, least significant first (R9). -/
def le (n v : Nat) : List Byte :=
  match n with
  | 0 => []
  | k + 1 => b8 v :: le k (v / 256)

/-- The number that bytes spell, least significant first (R9). -/
def unle : List Byte → Nat
  | [] => 0
  | b :: r => b.toNat + 256 * unle r

/-- Bytes `i` to `i + n - 1` of a list as a number. -/
def leAt (l : List Byte) (i n : Nat) : Nat := unle ((l.drop i).take n)

/-- `w` bits of `v` from bit `lo`. -/
def bits (v lo w : Nat) : Nat := (v / 2 ^ lo) % 2 ^ w

/-- `v` with the `w` bits from `lo` replaced by `x`. -/
def setBits (v lo w x : Nat) : Nat := v - bits v lo w * 2 ^ lo + (x % 2 ^ w) * 2 ^ lo

/-- A `w`-bit field as a two's complement integer. -/
def toSigned (w v : Nat) : Int := if v % 2 ^ w < 2 ^ (w - 1) then (v % 2 ^ w : Nat) else ((v % 2 ^ w : Nat) : Int) - (2 ^ w : Nat)

/-- An integer as a `w`-bit two's complement field. -/
def ofSigned (w : Nat) (i : Int) : Nat := (i % ((2 ^ w : Nat) : Int)).toNat

/-- An integer limited to a range. -/
def clampInt (lo hi i : Int) : Int := if i < lo then lo else if hi < i then hi else i

/-- An integer saturated to a signed field of `w` bits, as the field. -/
def satSigned (w : Nat) (i : Int) : Nat :=
  ofSigned w (clampInt (-((2 ^ (w - 1) : Nat) : Int)) (((2 ^ (w - 1) : Nat) : Int) - 1) i)

/-- Division rounded up; 0 by 0. -/
def ceilDiv (a b : Nat) : Nat := if b = 0 then 0 else (a + b - 1) / b

/-- Pad a body with zero bytes to a multiple of 4 (R21). -/
def pad4 (l : List Byte) : List Byte := l ++ List.replicate ((4 - l.length % 4) % 4) 0

/-- Keep or drop an effect. -/
def Chip.when (c : Chip) (b : Bool) (f : Chip → Chip) : Chip := if b then f c else c

/-- Apply `f` for each index in a list. -/
def Chip.each {α : Type} (c : Chip) (l : List α) (f : Chip → α → Chip) : Chip := l.foldl f c

/-! Parameters. -/

/-- The word in force at a parameter address. -/
def Chip.raw (c : Chip) (a : Nat) : Word := Tbl.get (w32 (resetAt a)) c.regs a

/-- The value in force at a parameter address. -/
def Chip.reg (c : Chip) (a : Nat) : Nat := (c.raw a).toNat

/-- Put a value in force at a parameter address, in the bits its table gives (R572). -/
def Chip.put (c : Chip) (a v : Nat) : Chip :=
  { c with regs := Tbl.set (w32 (resetAt a)) c.regs a (w32 (v &&& maskAt a)) }

/-- Bit `i` of the value in force. -/
def Chip.bit (c : Chip) (a i : Nat) : Bool := (c.reg a).testBit i

/-- A field of the value in force. -/
def Chip.field (c : Chip) (a lo w : Nat) : Nat := bits (c.reg a) lo w

/-- Replace a field of the value in force. -/
def Chip.putField (c : Chip) (a lo w v : Nat) : Chip := c.put a (setBits (c.reg a) lo w v)

/-- Set or clear one bit of the value in force. -/
def Chip.putBit (c : Chip) (a i : Nat) (b : Bool) : Chip := c.putField a i 1 (if b then 1 else 0)

/-- A signed parameter of `w` bits, as an integer. -/
def Chip.int (c : Chip) (a w : Nat) : Int := toSigned w (c.reg a)

/-- Put a signed parameter of `w` bits, saturating. -/
def Chip.putInt (c : Chip) (a w : Nat) (i : Int) : Chip := c.put a (satSigned w i)

/-- A parameter back at its Reset column. -/
def Chip.unput (c : Chip) (a : Nat) : Chip := c.put a (resetAt a)

/-- The value a write left waiting for the next tick boundary, else the value in force. -/
def Chip.view (c : Chip) (a : Nat) : Nat := ((Tbl.find c.staged a).getD (c.raw a)).toNat

/-- Hold a write until the next tick boundary; the field is taken from its bits (R572). -/
def Chip.stage (c : Chip) (a v : Nat) : Chip := { c with staged := Tbl.put c.staged a (w32 (v &&& maskAt a)) }

/-! Parameter addresses of repeated blocks. -/

/-- FE-A, ADC-A (0) or FE-B, ADC-B (1), page 0x08 or 0x09. -/
def feA (fe off : Nat) : Nat := 0x800 + 0x100 * fe + off
def winA (w off : Nat) : Nat := 0x1000 + 0x100 * w + off
def laneA (k off : Nat) : Nat := 0x4000 + 16 * k + off
def fmsA (k off : Nat) : Nat := 0x5000 + 16 * k + off
def amsA (k off : Nat) : Nat := 0x5100 + 16 * k + off
def dabA (e off : Nat) : Nat := 0x2000 + 0x100 * e + off
def drmA (n off : Nat) : Nat := 0x2800 + 0x80 * n + off
def lnkA (i off : Nat) : Nat := 0xC70 + 18 * i + off
def dacA (ch off : Nat) : Nat := 0xE00 + 16 * ch + off
def cnvA (p off : Nat) : Nat := 0x7C0 + 4 * p + off

/-! Sub-states of numbered blocks. -/

def Chip.fe (c : Chip) (k : Nat) : FeSt := Tbl.get FeSt.reset c.fes k
def Chip.modFe (c : Chip) (k : Nat) (f : FeSt → FeSt) : Chip := { c with fes := Tbl.mod FeSt.reset c.fes k f }
def Chip.adc (c : Chip) (k : Nat) : AdcSt := Tbl.get AdcSt.reset c.adcs k
def Chip.modAdc (c : Chip) (k : Nat) (f : AdcSt → AdcSt) : Chip := { c with adcs := Tbl.mod AdcSt.reset c.adcs k f }
def Chip.win (c : Chip) (k : Nat) : WinSt := Tbl.get WinSt.reset c.wins k
def Chip.modWin (c : Chip) (k : Nat) (f : WinSt → WinSt) : Chip := { c with wins := Tbl.mod WinSt.reset c.wins k f }
def Chip.lane (c : Chip) (k : Nat) : LaneSt := Tbl.get LaneSt.reset c.lanes k
def Chip.modLane (c : Chip) (k : Nat) (f : LaneSt → LaneSt) : Chip := { c with lanes := Tbl.mod LaneSt.reset c.lanes k f }
def Chip.loop (c : Chip) (l : Nat) : LoopSt := Tbl.get LoopSt.reset c.clk.loops l
def Chip.modLoop (c : Chip) (l : Nat) (f : LoopSt → LoopSt) : Chip :=
  { c with clk := { c.clk with loops := Tbl.mod LoopSt.reset c.clk.loops l f } }
def Chip.job? (c : Chip) (j : Nat) : Option Job := Tbl.find c.jobs j
def Chip.setJob (c : Chip) (j : Nat) (x : Job) : Chip := { c with jobs := Tbl.put c.jobs j x }
def Chip.modJob (c : Chip) (j : Nat) (f : Job → Job) : Chip :=
  match c.job? j with
  | some x => c.setJob j (f x)
  | none => c

/-! Time. -/

/-- The tick in progress (R32). -/
def Chip.tick (c : Chip) : Nat := c.time.now / 32000

/-- The front end and converter of a WIN_SRC value: 0 A, 1 B. -/
def srcOk (v : Nat) : Bool := decide (v < 2)

/-! Generations (R33). -/

/-- Step a generation number that a parameter reports. -/
def Chip.stepGenAt (c : Chip) (a : Nat) : Chip := c.put a ((c.reg a + 1) % 65536)

/-- Step a generation number that no parameter reports. -/
def Chip.stepGen (c : Chip) (k : Nat) : Chip :=
  { c with gens := Tbl.set 0 c.gens k ((Tbl.get 0 c.gens k + 1) % 65536) }

/-! Handles (R15, Table 01-3). -/

/-- Level-5 handle of a block selector (Table 01-4). -/
def handleBlock (sel : Nat) : Nat := 0xA0000000 + sel

/-- Level-4 handle of a window. -/
def handleWin (w : Nat) : Nat := 0x80000000 + w * 2 ^ 25

/-- Level-3 handle of a lane, with its primary window (R16). -/
def Chip.handleLane (c : Chip) (k : Nat) : Nat := 0x60000000 + c.field (laneA k 0) 0 4 * 2 ^ 25 + k * 2 ^ 17

/-- The primary window of lane `k` at studio time `ts`, as LANE_SRC named it then (R16). -/
def Chip.winAt (c : Chip) (k ts : Nat) : Nat := match (Tbl.get [] c.srcs k).find? fun e => decide (e.1 ≤ ts) with
  | some e => e.2
  | none => c.field (laneA k 0) 0 4

/-- Put LANE_SRC in force, and note from when its window is the primary one. -/
def Chip.putSrc (c : Chip) (k v : Nat) : Chip :=
  let old := Tbl.get [] c.srcs k
  let before := if old.isEmpty then [(0, c.field (laneA k 0) 0 4)] else old
  { c with srcs := Tbl.set [] c.srcs k ((c.time.now, bits v 0 4) :: before) }.put (laneA k 0) v

/-- Lanes whose LANE_SRC differs from what `old` held have changed their primary window now. -/
def Chip.noteSrcs (c : Chip) (old : Chip) : Chip :=
  c.each (List.range 160) fun c k =>
    let v := c.reg (laneA k 0)
    if old.reg (laneA k 0) = v then c else (c.put (laneA k 0) (old.reg (laneA k 0))).putSrc k v

/-- Level-3 handle of a lane in a record whose timestamp is `ts` (R16). -/
def Chip.handleLaneAt (c : Chip) (k ts : Nat) : Nat := 0x60000000 + c.winAt k ts * 2 ^ 25 + k * 2 ^ 17

/-- Level-0 handle of a unit of a lane in a record whose timestamp is `ts`: service, component and unit type fields (R16). -/
def Chip.handleUnit (c : Chip) (k ts svc comp unit : Nat) : Nat :=
  c.winAt k ts * 2 ^ 25 + k * 2 ^ 17 + svc * 2 ^ 11 + comp * 2 ^ 6 + unit

def hLevel (h : Nat) : Nat := bits h 29 3
def hWin (h : Nat) : Nat := bits h 25 4
def hLane (h : Nat) : Nat := bits h 17 8
def hSvc (h : Nat) : Nat := bits h 11 6
def hComp (h : Nat) : Nat := bits h 6 5
def hUnit (h : Nat) : Nat := bits h 0 6

/-- A handle that a host sends is well formed (R15, R17): no reserved level, selector or unit type, windows and lanes in
range, and zero in every field that R15 requires to be zero. The window field at levels 0 to 3 is ignored, whatever its value (R16). -/
def handleOk (h : Nat) : Bool :=
  let l := hLevel h
  let z := fun lo w => bits h lo w == 0
  if l = 5 then z 25 4 && z 17 8 && z 11 6 && z 6 5 && decide (hUnit h ≤ 0x13)
  else if l = 4 then decide (hWin h ≤ 11) && z 17 8 && z 11 6 && z 6 5 && z 0 6
  else if l = 3 then decide (hLane h < 160) && z 11 6 && z 6 5 && z 0 6
  else if l = 2 then decide (hLane h < 160) && z 6 5 && z 0 6
  else if l = 1 then decide (hLane h < 160) && z 0 6
  else if l = 0 then
    let u := hUnit h
    if u = 0x08 then z 17 8 && z 11 6 && z 6 5
    else if u = 0x0B then z 17 8 && z 11 6 && z 6 5
    else if u = 0x03 ∨ u = 0x04 ∨ u = 0x07 then decide (hLane h < 160)
    else decide (1 ≤ u ∧ u ≤ 0x0A) && decide (hLane h < 160) && z 11 6 && z 6 5
  else false

/-- The next free value (what the manual leaves undefined after the machine goes on), and the chip that has used it. -/
def Chip.freeWord (c : Chip) : Word × Chip := (Config.freeValue c.free, { c with free := c.free + 1 })

end Sys2Proof.Machine
end

