-- ==== Sys2Proof/Machine/Flags.lean ====
section
/-! DEFINITION. Events, saturating counters and the reply status byte (R413, R559 to R571). -/

namespace Sys2Proof.Machine

/-- Event `n` is masked (EVT_MASK_L, EVT_MASK_H; for 64 + g, EVT_SAT_MASK). -/
def Chip.masked (c : Chip) (n : Nat) : Bool :=
  if n < 64 then c.bit (0x102 + n / 32) (n % 32) else c.bit 0x105 (n - 64)

/-- Event `n` is pending (EVT_PEND_L, EVT_PEND_H; for 64 + g, EVT_SAT_PEND). -/
def Chip.isPending (c : Chip) (n : Nat) : Bool :=
  if n < 64 then c.bit (0x100 + n / 32) (n % 32) else c.bit 0x104 (n - 64)

/-- ATN: an unmasked event or an unmasked group saturation event is pending (R560). -/
def Chip.atn (c : Chip) : Bool :=
  c.reg 0x100 &&& (0xFFFFFFFF - c.reg 0x102) != 0 || c.reg 0x101 &&& (0xFFFFFFFF - c.reg 0x103) != 0 ||
    c.reg 0x104 &&& (0xFF - c.reg 0x105 % 256) != 0

/-- Carry a raise of event `n` into its next record (R571); raises made while STR_EN is 0 are not carried. -/
def Chip.noteRaise (c : Chip) (n handle detail : Nat) : Chip :=
  if c.reg 0x600 = 1 then
    let r : EvRec := match Tbl.find c.ev.recs n with
      | some r => { r with raises := min 0xFFFF (r.raises + 1) }
      | none => { raises := 1, masked := c.masked n, handle := handle, detail := detail, first := c.time.now }
    { c with ev := { c.ev with recs := Tbl.put c.ev.recs n r } }
  else c

/-- Make event `n` pending: CHG toggles where it was not (R559, R566). -/
def Chip.makePending (c : Chip) (n : Nat) : Chip :=
  if c.isPending n then c
  else
    let c := if n < 64 then c.putBit (0x100 + n / 32) (n % 32) true else c.putBit 0x104 (n - 64) true
    { c with ev := { c.ev with chg := !c.ev.chg, fresh := c.ev.fresh || !c.masked n } }

/-- The group saturation event of counter `a`, whose SAT bit has just set (R566). -/
def Chip.raiseSat (c : Chip) (group counter : Nat) : Chip :=
  (c.noteRaise (64 + group) 0xA0000000 counter).makePending (64 + group)

/-- Set the SAT bit of counter `a`; where it was clear, raise its group's event (R565, R566). -/
def Chip.setSat (c : Chip) (a : Nat) : Chip :=
  match satOf a with
  | none => c
  | some (sa, b) => if c.bit sa b then c else (c.putBit sa b true).raiseSat (satGroup a) a

/-- Add `n` to the saturating counter at `a` (R565): the value stops at its field's largest value, and an increment lost
there sets the SAT bit. -/
def Chip.countBy (c : Chip) (a n : Nat) : Chip :=
  if c.reg a + n ≤ maskAt a then c.put a (c.reg a + n)
  else (c.put a (maskAt a)).setSat a

/-- One increment of the saturating counter at `a`. -/
def Chip.count (c : Chip) (a : Nat) : Chip := c.countBy a 1

/-- Whether pending events 33 and 34 concern the legacy lane HB_V1_LANE (R436). -/
def Chip.noteLegacy (c : Chip) (n handle : Nat) : Chip :=
  if n = 33 ∨ n = 34 then
    let hit := hLevel handle == 3 && hLane handle == c.reg 0x509
    let old := c.isPending n && c.ev.legacy.testBit (n - 33)
    { c with ev := { c.ev with legacy := setBits c.ev.legacy (n - 33) 1 (if hit || old then 1 else 0) } }
  else c

/-- Raise event `n` for object `handle`, with the detail of Table 20-2 (R559). -/
def Chip.raise (c : Chip) (n handle detail : Nat) : Chip :=
  (((c.noteLegacy n handle).noteRaise n handle (detail % 2 ^ 32)).makePending n).count (0x140 + n)

/-- Clear pending events (R561, R432); counts stay. -/
def Chip.clearEvents (c : Chip) (lo hi : Nat) : Chip :=
  let c := c.put 0x100 (c.reg 0x100 &&& (0xFFFFFFFF - lo % 2 ^ 32))
  c.put 0x101 (c.reg 0x101 &&& (0xFFFFFFFF - hi % 2 ^ 32))

/-- A loop is coasting or slewing: CLK_STATE 3 or 5. -/
def Chip.loopCoasts (c : Chip) (l : Nat) : Bool := c.reg (0x200 + 16 * l) == 3 || c.reg (0x200 + 16 * l) == 5

/-- The CTL domain is clocked and powered: AO and core rails valid, RESET_N high, not in deep sleep. -/
def Chip.ctlOn (c : Chip) : Bool :=
  c.power.resetN && !c.power.deep && !c.power.invalid.testBit 3 && !c.power.invalid.testBit 0

/-- The receiver is in Sketch sleep (PWR_STATE 2). -/
def Chip.asleep (c : Chip) : Bool := c.reg 0x301 == 2

/-- The receiver sleeps, or only CTL is awake (R374, R375). -/
def Chip.blocksAsleep (c : Chip) : Bool := c.reg 0x301 == 2 || c.reg 0x301 == 3

end Sys2Proof.Machine
end

