-- ==== Sys2Proof/Machine/Records.lean ====
section
/-! DEFINITION. Records: sequence streams, production into the STR partition, loss, shedding and the order of sending (R20 to R27, R342 to R344, R441 to R449), with the fill of Canvas partitions (R93). -/

namespace Sys2Proof.Machine

/-! Canvas descriptors (Table 03-10). -/

def dBase (d : Nat) : Nat := bits d 0 8
def dSize (d : Nat) : Nat := bits d 8 9
def dUse (d : Nat) : Nat := bits d 17 3
def dRetain (d : Nat) : Bool := d.testBit 20
def dWin (d : Nat) : Nat := bits d 21 4

/-- The active descriptor of partition `p`; 0 where unused. -/
def Chip.desc (c : Chip) (p : Nat) : Nat := (Tbl.get 0 c.canvas.active p).toNat

/-- The used partitions of one use, lowest first. -/
def Chip.partsOf (c : Chip) (use : Nat) : List Nat :=
  (List.range 16).filter fun p => dSize (c.desc p) != 0 && dUse (c.desc p) == use

/-- Size of a partition in bytes. -/
def Chip.partBytes (c : Chip) (p : Nat) : Nat := dSize (c.desc p) * 65536

/-- The STR partition, where the active map has one. -/
def Chip.strPart (c : Chip) : Option Nat := (c.partsOf 1).head?

/-- Size of the STR partition in bytes; 0 without one. -/
def Chip.strBytes (c : Chip) : Nat := (c.strPart.map c.partBytes).getD 0

/-- A partition's fill has changed: CNV_Pn_FILL, CNV_Pn_PEAK and the high-water event with its hysteresis (R93). -/
def Chip.setFill (c : Chip) (p fill : Nat) : Chip :=
  let size := c.partBytes p
  let hw := c.reg (cnvA p 2)
  let c := c.put (cnvA p 1) fill
  let c := if c.reg (cnvA p 3) < fill then c.put (cnvA p 3) fill else c
  if Tbl.get false c.canvas.high p then
    if 10 ≤ hw ∧ fill * 100 < (hw - 10) * size then { c with canvas := { c.canvas with high := Tbl.set false c.canvas.high p false } } else c
  else if size ≠ 0 ∧ hw * size ≤ fill * 100 then
    { c with canvas := { c.canvas with high := Tbl.set false c.canvas.high p true } }.raise 28 (handleBlock 0x05) p
  else c

/-! The queue. -/

/-- Bytes of a record on the port (R20, R21). -/
def Rec.size (r : Rec) : Nat := 16 + r.body.length

/-- Bytes queued (STR_QUEUED). -/
def Chip.queued (c : Chip) : Nat := (c.out.queue.map fun q => q.rec_.size).foldl (· + ·) 0

/-- O grows while records queue and STR_CLK runs (R445), in 1/32,768 byte: SCH_DRAIN_RATE per studio count. -/
def Chip.syncOwed (c : Chip) : Chip :=
  let grow := if c.out.queue.isEmpty ∨ c.reg 0x600 = 0 then 0 else (c.time.now - c.out.owedAt) * c.reg 0x700
  let owed := if c.out.queue.isEmpty then 0 else c.out.owed + grow
  { c with out := { c.out with owed := owed, owedAt := max c.out.owedAt c.time.now } }.put 0x605 (min 0xFFFFFFFF (owed / 32768))

/-- The queue has changed: STR_QUEUED and the STR partition's fill. -/
def Chip.queueChanged (c : Chip) : Chip :=
  let n := c.queued
  let c := c.put 0x603 n
  match c.strPart with
  | some p => c.setFill p n
  | none => c

/-- A step of studio time by `x` counts moves the deadlines of the queued records with it, so that their order stands (R25, R366). -/
def Chip.moveDeadlines (c : Chip) (x : Int) : Chip :=
  let move := fun (t : Nat) => ((t : Int) + x).toNat
  { c with out := { c.out with queue := c.out.queue.map fun q => { q with deadline := q.deadline.map move, waiting := q.waiting.map move } } }

/-- Serving order of R342 and R443: class, deadline (none last), system records first, job identifier, order of production. -/
def QRec.before (a b : QRec) : Bool :=
  let da := a.deadline.getD (2 ^ 80)
  let db := b.deadline.getD (2 ^ 80)
  let ja := match a.job with | none => 0 | some j => j + 1
  let jb := match b.job with | none => 0 | some j => j + 1
  if a.cls ≠ b.cls then decide (a.cls < b.cls)
  else if da ≠ db then decide (da < db)
  else if ja ≠ jb then decide (ja < jb)
  else decide (a.order < b.order)

/-! Sequence streams (R25). -/

/-- The key of the sequence stream of type `ty` for the producing object of `handle`: the unit type does not split a stream, nor does the window field at levels 0 to 3, but for window sample blocks. -/
def streamKey (ty h : Nat) : Nat :=
  let h' := if hLevel h = 5 then h
    else if hLevel h = 4 then h
    else if hLevel h = 0 ∧ hUnit h = 0x0B then h
    else setBits (if hLevel h = 0 then setBits h 0 6 0 else h) 25 4 0
  ty * 2 ^ 32 + h'

/-- The stream of a record. -/
def Rec.stream (r : Rec) : Nat := streamKey r.ty r.handle

/-- Insert a record at its place in the serving order, behind every record of its own stream: a stream leaves in sequence order (R25). -/
def insertQ (q : QRec) : List QRec → List QRec
  | [] => [q]
  | x :: r => if q.before x && !(x :: r).any (fun y => y.rec_.stream == q.rec_.stream) then q :: x :: r else x :: insertQ q r

/-- A record that no open message holds back (R549). -/
def QRec.free (q : QRec) : Bool := q.opens == 0 && !q.bad

/-- The record that leaves next: the first that is free, with no earlier record of its stream held back (R25, R191). `held` lists the streams of the
records held back so far. -/
def headOf (held : List Nat) : List QRec → Option QRec
  | [] => none
  | q :: r => if q.free && !held.contains q.rec_.stream then some q else headOf (q.rec_.stream :: held) r

/-- The head of the queue. -/
def Chip.head (c : Chip) : Option QRec := headOf [] c.out.queue

def Chip.stream (c : Chip) (k : Nat) : Stream := Tbl.get Stream.fresh c.out.streams k

def Chip.modStream (c : Chip) (k : Nat) (f : Stream → Stream) : Chip :=
  { c with out := { c.out with streams := Tbl.mod Stream.fresh c.out.streams k f } }

/-- A key of the streams that a job emits, for the object it reads: its lane, its window or its block. -/
def Job.objectKey (x : Job) : Nat :=
  let h := leAt x.desc 4 4
  if leAt x.desc 0 1 = 7 then streamKey 0x60 (hWin h * 2 ^ 25 + 0x0B) else if leAt x.desc 0 1 = 8 then streamKey 0x61 h else streamKey 0x40 h

/-- Mark every stream whose key satisfies `p`: its next record will carry GENV, DISC. The running jobs that have still to emit their first record
carry GENV on it too: they have discarded data (R35). -/
def Chip.markStreams (c : Chip) (p : Nat → Bool) (genv disc : Bool) : Chip :=
  let mark : Nat × Stream → Nat × Stream := fun e =>
    if (p e.1) = true then (e.1, { e.2 with genv := e.2.genv || genv, disc := e.2.disc || disc }) else e
  let void : Nat × Job → Nat × Job := fun e => if genv && decide (2 ≤ e.2.state) && p e.2.objectKey then (e.1, { e.2 with voided := true }) else e
  { c with out := { c.out with streams := c.out.streams.map mark }, jobs := c.jobs.map void }

/-- Lane field of a stream key at levels 0 to 3, when its handle names a lane. -/
def keyLane (k : Nat) : Option Nat :=
  let h := k % 2 ^ 32
  if hLevel h ≤ 3 ∧ (k / 2 ^ 32 ≠ 0x1D) ∧ ¬ (k / 2 ^ 32 = 0x60 ∨ k / 2 ^ 32 = 0x62) then some (hLane h) else none

/-- Window of a stream key: window sample blocks and capture records. -/
def keyWin (k : Nat) : Option Nat :=
  let h := k % 2 ^ 32
  if k / 2 ^ 32 = 0x60 ∨ k / 2 ^ 32 = 0x61 ∨ k / 2 ^ 32 = 0x62 then some (hWin h) else none

/-- COAST: a loop of the record's path was coasting, slewing or aligning at any time since the record's reference (R22, R358, R361, R362), or XO32K has failed with the CPLL stopped (R356). -/
def Chip.coastFlag (c : Chip) (loops : List Nat) (ref : Nat) : Nat :=
  let one := fun l => c.loopCoasts l || (c.loop l).aligning || match (c.loop l).coastedAt with
    | some t => decide (ref ≤ t)
    | none => false
  if loops.any one || (c.reg 0x23C == 1 && c.reg 0x210 == 4) then 0x01 else 0

/-- What a producer hands over: type, handle, timestamp, latency reference (studio time), body, job and the flags COAST and CAL. -/
structure RecSpec where
  ty : Nat
  handle : Nat
  ts : Nat
  ref : Nat
  body : List Byte
  job : Option Nat
  flags : Nat
deriving DecidableEq, Repr

/-- The job of a record has discarded data since its admission (R35). -/
def RecSpec.voided (r : RecSpec) (c : Chip) : Bool := match r.job with
  | none => false
  | some j => match c.job? j with | some x => x.voided | none => false

/-- The body of a stream-port record (Table 15-2). -/
def strBody (code ty job handle first count value : Nat) : List Byte :=
  [b8 code, b8 ty] ++ le 2 job ++ le 4 handle ++ le 2 first ++ le 2 count ++ le 4 value

/-- A record is lost: it uses up its number, the run of lost records of its stream grows, and STR_LOST_CNT counts it (R448). -/
def Chip.lose (c : Chip) (k seq ty handle : Nat) (job : Option Nat) : Chip :=
  let run : LostRun := match (c.stream k).lost with
    | some r => { r with count := r.count + 1 }
    | none => { first := seq, count := 1, job := job.getD 0xFFFF, handle := handle, ty := ty }
  (c.modStream k fun st => { st with lost := some run }).count 0x60C

/-- Shed a PROBE record of stream `k` (R344), `order` in the order of production: its number is used up, the next record of the stream that leaves after it
carries SHED, the job and SCH_SHED_CNT count it, and event 26 is raised at the first shed of a run. -/
def Chip.shedRec (c : Chip) (k j order : Nat) : Chip :=
  let c := (c.modStream k fun st => { st with shed := if st.shed.contains order then st.shed else st.shed ++ [order] }).count 0x70E
  match c.job? j with
  | none => c
  | some x =>
    let c := if x.shedRun then c else c.raise 26 (handleBlock 0x08) j
    let sat := x.shed = 0xFFFFFFFF
    let c := if sat ∧ ¬ x.sat.testBit 4 then c.raiseSat 3 (0xFFFF + j * 65536) else c
    c.setJob j { x with shedRun := true, shed := if sat then x.shed else x.shed + 1, sat := if sat then x.sat ||| 16 else x.sat }

/-- Bytes of queued system records. -/
def Chip.queuedSystem (c : Chip) : Nat := ((c.out.queue.filter fun q => q.job.isNone).map fun q => q.rec_.size).foldl (· + ·) 0

/-- Whether a new record finds room (R443, R448): a system record in the reserve of 2,048 bytes or outside it, a job's record outside it. -/
def Chip.fits (c : Chip) (len : Nat) (system : Bool) : Bool :=
  if system then decide (c.queued + len ≤ c.strBytes)
  else decide (c.queued - min 2048 c.queuedSystem + len + 2048 ≤ c.strBytes)

/-- The newest queued ELASTIC record, by order of production. -/
def newestElastic (q : List QRec) : Option QRec :=
  q.foldl (fun best x => if x.cls = 1 then match best with
    | some b => if b.order < x.order then some x else best
    | none => some x else best) none

/-- Discard newest queued ELASTIC records until a record of `need` bytes finds room (R448). -/
def Chip.dropElastic (c : Chip) (need : Nat) (system : Bool) : Nat → Chip
  | 0 => c
  | n + 1 =>
    if c.fits need system then c
    else match newestElastic c.out.queue with
      | none => c
      | some x =>
        let c := { c with out := { c.out with queue := c.out.queue.filter fun y => y.order != x.order } }
        (c.lose (streamKey x.rec_.ty x.rec_.handle) x.rec_.seq x.rec_.ty x.rec_.handle x.job).dropElastic need system n

/-- Put a record with its number into the queue. -/
def Chip.enqueue (c : Chip) (r : Rec) (job : Option Nat) (cls : Nat) (deadline : Option Nat) : Chip :=
  let c := c.syncOwed
  let q : QRec := { rec_ := r, job := job, cls := cls, deadline := deadline, order := c.out.order, waiting := none, opens := 0, bad := false }
  { c with out := { c.out with queue := insertQ q c.out.queue, order := c.out.order + 1 } }.queueChanged

/-- Produce a record (R20 to R27, R442 to R448). It takes the next number of its stream. A system record while STR_EN is 0 is
discarded. One that finds no room is shed (PROBE outside a drain failure), or lost as R448 gives, after the newest ELASTIC
records have made room for a GUARANTEED or system record. A kept record carries the stream's GENV and DISC and ends a run of
lost records, which a code-3 record reports. -/
def Chip.produceN (c : Chip) (r : RecSpec) : Nat → Chip
  | 0 => c
  | fuel + 1 =>
    let k := streamKey r.ty r.handle
    let st := c.stream k
    let known := (Tbl.find c.out.streams k).isSome
    let body := pad4 r.body
    let len := 16 + body.length
    let cls := match r.job with
      | none => 0
      | some j => match c.job? j with | some x => (x.desc.getD 1 0).toNat | none => 0
    let bound := match r.job with
      | none => 0
      | some j => match c.job? j with | some x => leAt x.desc 8 2 | none => 0
    let deadline := match r.job with
      | none => some r.ts
      | some _ => if bound = 0 then none else some (r.ref + bound * 32000)
    let seq := st.next
    let c := c.modStream k fun x => { x with next := (x.next + 1) % 65536, born := true }
    if r.job = none ∧ c.reg 0x600 = 0 then c
    else
      let c := if cls = 0 ∧ ¬ c.fits len r.job.isNone then c.dropElastic len r.job.isNone c.out.queue.length else c
      if c.fits len r.job.isNone then
        let flags := r.flags ||| (if st.disc then 0x10 else 0) ||| (if st.genv || (r.voided c && !known) then 0x40 else 0)
        let rec_ : Rec := { ty := r.ty, handle := r.handle, seq := seq, ts := r.ts % 2 ^ 48, flags := flags, body := body }
        let c := c.modStream k fun x => { x with genv := false, disc := false, lost := none }
        let c := c.enqueue rec_ r.job cls deadline
        match st.lost with
        | some run =>
          c.produceN { ty := 0x08, handle := handleBlock 0x11, ts := c.time.now, ref := c.time.now, job := none, flags := c.coastFlag [1] c.time.now,
                       body := strBody 3 run.ty run.job run.handle run.first run.count 0 } fuel
        | none => c
      else match r.job with
        | some j => if cls = 2 ∧ c.out.failing = none then c.shedRec k j c.out.order else c.lose k seq r.ty r.handle r.job
        | none => c.lose k seq r.ty r.handle none

/-- Produce a record. -/
def Chip.produce (c : Chip) (r : RecSpec) : Chip := c.produceN r 3

/-- Produce a system record (Table 11-4) of the receiver itself, whose reference is its timestamp. -/
def Chip.system (c : Chip) (ty handle ts : Nat) (body : List Byte) : Chip :=
  c.produce { ty := ty, handle := handle, ts := ts, ref := ts, body := body, job := none, flags := c.coastFlag [1] ts }

/-- Every queued record is lost: the STR partition has been stepped (R88). -/
def Chip.loseQueue (c : Chip) : Chip :=
  let q := c.out.queue
  let c := { c with out := { c.out with queue := [] } }
  (c.each q fun c x => c.lose (streamKey x.rec_.ty x.rec_.handle) x.rec_.seq x.rec_.ty x.rec_.handle x.job).queueChanged

/-- Remove the queued records of one job without sending them. -/
def Chip.dropJobRecords (c : Chip) (j : Nat) : Chip :=
  { c with out := { c.out with queue := c.out.queue.filter fun q => q.job != some j } }.queueChanged

/-- The sixteen header bytes of a record (Table 01-6). -/
def Rec.header (r : Rec) : List Byte :=
  [b8 0xA5, b8 r.ty] ++ le 4 r.handle ++ le 2 r.seq ++ le 6 r.ts ++ [b8 r.flags, b8 (r.body.length / 4)]

/-- The bytes of a record on STR_D. -/
def Rec.bytes (r : Rec) : List Byte := r.header ++ r.body

/-- The head record leaves (R342, R343, R441, R445, R447): the credit and O fall by its length, STR_REC_CNT and its job count
it, SHED is set where records of its PROBE stream were shed before it (R23, R26), and an ELASTIC record past its bound carries LATE and the trailer. -/
def Chip.sendHead (c : Chip) : Chip :=
  match c.head with
  | none => c
  | some q =>
    let rest := c.out.queue.filter fun y => y.order != q.order
    let c := c.syncOwed
    let k := streamKey q.rec_.ty q.rec_.handle
    let st := c.stream k
    let passed := match q.deadline with | some d => c.time.now - d | none => 0
    let lateTicks := ceilDiv passed 32000
    let late := q.cls = 1 ∧ 0 < lateTicks
    let body := if late then q.rec_.body ++ le 2 (min lateTicks 0xFFFF) ++ [0, 0] else q.rec_.body
    let shed := q.cls == 2 && st.shed.any fun o => decide (o ≤ q.order)
    let flags := q.rec_.flags ||| (if late then 0x02 else 0) ||| (if shed then 0x20 else 0)
    let r := { q.rec_ with body := body, flags := flags }
    if c.reg 0x602 < r.size then c
    else
      let c := c.modStream k fun x => { x with shed := x.shed.filter fun o => decide (q.order < o) }
      let c := c.put 0x602 (c.reg 0x602 - r.size)
      let owed := if rest.isEmpty then 0 else c.out.owed - r.size * 32768
      let c := { c with out := { c.out with queue := rest, owed := owed, sent := r.bytes, starved := false } }
      let c := c.put 0x605 (min 0xFFFFFFFF (owed / 32768))
      let c := if c.reg 0x604 = 2 then c.put 0x604 1 else c
      let c := (c.count 0x608).queueChanged
      match q.job with
      | none => c
      | some j => match c.job? j with
        | none => c
        | some x =>
          let c := if late then (c.count 0x70D) else c
          let c := if late ∧ c.reg 0x710 < min lateTicks 0xFFFF then c.put 0x710 (min lateTicks 0xFFFF) else c
          let c := if late ∧ ¬ x.lateRun then c.raise 25 (handleBlock 0x08) lateTicks else c
          let satR := x.records = 0xFFFFFFFF
          let satL := late ∧ x.late = 0xFFFFFFFF
          let c := if satR ∧ ¬ x.sat.testBit 2 then c.raiseSat 3 (0xFFFF + j * 65536) else c
          let c := if satL ∧ ¬ x.sat.testBit 3 then c.raiseSat 3 (0xFFFF + j * 65536) else c
          let reason := if q.cls = 0 ∧ 0 < lateTicks ∧ c.out.failing.isSome then 0x0F else x.reason
          c.setJob j { x with
            records := if satR then x.records else x.records + 1
            late := if late then (if satL then x.late else x.late + 1) else x.late
            maxLate := if late then max x.maxLate (min lateTicks 0xFFFF) else x.maxLate
            lateRun := if q.cls = 1 then decide late else x.lateRun
            shedRun := false
            reason := reason
            sat := x.sat ||| (if satR then 4 else 0) ||| (if satL then 8 else 0) }

/-- End the open runs of lost records, each with its code-3 record (R448). -/
def Chip.endLostRuns (c : Chip) : Chip :=
  let runs := c.out.streams.filterMap fun e => e.2.lost.map fun r => (e.1, r)
  c.each runs fun c x =>
    let c := c.modStream x.1 fun st => { st with lost := none }
    c.system 0x08 (handleBlock 0x11) c.time.now (strBody 3 x.2.ty x.2.job x.2.handle x.2.first x.2.count 0)

end Sys2Proof.Machine
end

