-- ==== Sys2Proof/Machine/Operands.lean ====
section
/-! DEFINITION. The operand forms that several rows share: the job descriptor (Table 11-1) with its kind fields, the lane configuration with the half-band figures of Table 04-4, the Palette's entries, and Gallery and AF pool entries. -/

namespace Sys2Proof.Machine

/-! The job descriptor. -/

def dKind (d : List Byte) : Nat := leAt d 0 1
def dClass (d : List Byte) : Nat := leAt d 1 1
def dOption (d : List Byte) : Nat := leAt d 2 1
def dFlags (d : List Byte) : Nat := leAt d 3 1
def dHandle (d : List Byte) : Nat := leAt d 4 4
def dBound (d : List Byte) : Nat := leAt d 8 2
def dStart (d : List Byte) : Nat := leAt d 12 4
def dDuration (d : List Byte) : Nat := leAt d 16 4
def dF0 (d : List Byte) : Nat := leAt d 20 4
def dF1 (d : List Byte) : Nat := leAt d 24 4
def dTimed (d : List Byte) : Bool := (dFlags d).testBit 1
def dNeedCal (d : List Byte) : Bool := (dFlags d).testBit 0

/-- A descriptor built by a parameter write or a legacy tune: open, untimed, without kind fields (R323). -/
def mkDesc (kind cls option handle bound : Nat) : List Byte :=
  [b8 kind, b8 cls, b8 option, 0] ++ le 4 handle ++ le 2 bound ++ List.replicate 18 0

/-! The half-band stages of Table 04-4, in studio counts. -/

def hbDelay (min : Bool) : List Nat := if min then [12, 28, 64, 144, 320, 704] else [56, 144, 352, 960, 2432, 5888]
def hbSpan (min : Bool) : List Nat := if min then [48, 128, 320, 768, 1792, 4096] else [112, 288, 704, 1920, 4864, 11776]
def hbCost (min : Bool) : List Nat := if min then [6720, 4320, 2640, 1560, 900, 510] else [3840, 2400, 1440, 960, 600, 360]

def sumList (l : List Nat) : Nat := l.foldl (· + ·) 0

/-! Lane configuration. -/

def Chip.laneStages (c : Chip) (k : Nat) : Nat := c.field (laneA k 2) 0 3
def Chip.laneMin (c : Chip) (k : Nat) : Bool := c.bit (laneA k 2) 3
def Chip.laneFade (c : Chip) (k : Nat) : Nat := c.field (laneA k 2) 4 4
def Chip.laneWin (c : Chip) (k : Nat) : Nat := c.field (laneA k 0) 0 4
def Chip.laneWin2 (c : Chip) (k : Nat) : Nat := c.field (laneA k 0) 4 4
/-- The lane combines two aerials: a second window is named (R56). -/
def Chip.laneCombines (c : Chip) (k : Nat) : Bool := c.laneWin2 k != 15
/-- Lane output period P, studio counts. -/
def Chip.lanePeriod (c : Chip) (k : Nat) : Nat := 8 * 2 ^ c.laneStages k
/-- The bank of pointer A or B. -/
def Chip.laneBankOf (c : Chip) (k : Nat) (b : Bool) : Nat := c.field (laneA k 3) (if b then 8 else 0) 6
/-- The active bank. -/
def Chip.laneBank (c : Chip) (k : Nat) : Nat := c.laneBankOf k (c.lane k).actB

/-! The Palette (R118, R122, Tables 04-5 and 04-6). -/

/-- T and G (1/8 sample) of a factory bank. -/
def factoryTG (b : Nat) : Nat × Nat :=
  if b = 1 then (63, 96) else if b = 3 then (95, 376) else if b = 9 then (1, 0) else (127, 504)

/-- Reset value of Palette word `i`: the factory banks 0 to 9, zero above. Bank 9 passes through: its one tap is unity. -/
def paletteReset (i : Nat) : Word :=
  let b := i / 128
  let e := i % 128
  if 10 ≤ b then 0
  else if e = 127 then w32 ((factoryTG b).1 + (factoryTG b).2 * 256)
  else if e < (factoryTG b).1 then (if b = 9 then 65536 else (Config.factoryCoefficient b e).setWidth 32) else 0

/-- A Palette word. -/
def Chip.pal (c : Chip) (i : Nat) : Word := Tbl.get (paletteReset i) c.palette i

/-- The bits of a Palette entry that are not reserved (Table 04-5). -/
def paletteMask (i : Nat) : Nat := if i % 128 = 127 then 0x3FF7F else 0x3FFFF

/-- Write one Palette word. -/
def Chip.setPal (c : Chip) (i v : Nat) : Chip :=
  { c with palette := Tbl.set (paletteReset i) c.palette i (w32 (v &&& paletteMask i)) }

def Chip.bankT (c : Chip) (b : Nat) : Nat := bits (c.pal (b * 128 + 127)).toNat 0 7
def Chip.bankG (c : Chip) (b : Nat) : Nat := bits (c.pal (b * 128 + 127)).toNat 8 10

/-- A bank's descriptor is valid (R118). -/
def Chip.bankOk (c : Chip) (b : Nat) : Bool := decide (1 ≤ c.bankT b) && decide (c.bankG b ≤ 8 * (c.bankT b - 1))

/-- The disclosed lane delay D (R130), studio counts. -/
def Chip.laneDelay (c : Chip) (k : Nat) : Nat :=
  let n := c.laneStages k
  496 + sumList ((hbDelay (c.laneMin k)).take n) + c.bankG (c.laneBank k) * 2 ^ n + c.lanePeriod k + 3 * k

/-- The studio time at which a signal that leaves the receiver's path at count `t` was at the aerial connector (R30): it subtracts 2 counts of front end and
converter, 523/32 counts of window (R78), `extra` counts, and the converter offset of R361, and rounds the result once, to the nearest count. -/
def Chip.pathStamp (c : Chip) (t extra : Nat) : Nat :=
  (((((t : Int) - extra) * 32 - 587) * 1000000000 - c.clk.offset * 1048576 + 16000000000) / 32000000000).toNat

/-- The timestamp of what leaves a demodulator of lane `k` at count `t`, `demod` counts after the lane output (R30, R130, R156). -/
def Chip.laneStamp (c : Chip) (k demod t : Nat) : Nat := c.pathStamp t (c.laneDelay k + demod)

/-- Half-band cost per 16 rounds (R115). -/
def Chip.laneCost (c : Chip) (k : Nat) : Nat := sumList ((hbCost (c.laneMin k)).take (c.laneStages k))

/-- Filter fill after a start or restart (Table 04-3), studio counts. -/
def Chip.laneFill (c : Chip) (k : Nat) : Nat :=
  let n := c.laneStages k
  496 + sumList ((hbSpan (c.laneMin k)).take n) + c.bankT (c.laneBank k) * c.lanePeriod k

/-! The lane's demodulator, by the job that holds it. -/

/-- A lane job (or a follow job) is held on the lane, running or suspended, and is not the second front of a pair. -/
def Chip.laneHeld (c : Chip) (k : Nat) : Bool := (c.lane k).job.isSome

/-- Lane `k` is the second lane front of a combining pair (R113). -/
def Chip.laneSecond (c : Chip) (k : Nat) : Bool :=
  k % 2 == 1 && (c.lane k).job.isNone && (c.lane (k - 1)).job.isSome && c.laneCombines (k - 1)

/-- The lane runs: started and not suspended. -/
def Chip.laneRuns (c : Chip) (k : Nat) : Bool := (c.lane k).job.isSome && (c.lane k).started && !(c.lane k).suspended

/-- The option byte of the job on a lane; 0 without one. -/
def Chip.laneOption (c : Chip) (k : Nat) : Nat := if c.laneHeld k then (c.lane k).option else 0

def Chip.laneIsFm (c : Chip) (k : Nat) : Bool := c.laneOption k == 0x01
def Chip.laneIsAm (c : Chip) (k : Nat) : Bool := c.laneOption k == 0x02 || c.laneOption k == 0x03 || c.laneOption k == 0x04
def Chip.laneIsDab (c : Chip) (k : Nat) : Bool := c.laneOption k == 0x10
def Chip.laneIsDrm (c : Chip) (k : Nat) : Bool := c.laneOption k == 0x20 || c.laneOption k == 0x21 || c.laneOption k == 0x22

/-- The ensemble demodulator on lane `k` (DAB_LANE). -/
def Chip.ensOf (c : Chip) (k : Nat) : Option Nat := (List.range 8).find? fun e => c.reg (dabA e 0) == k && k != 0xFF

/-- The DRM channel on lane `k` (DRM_LANE). -/
def Chip.drmOf (c : Chip) (k : Nat) : Option Nat := (List.range 16).find? fun n => c.reg (drmA n 0) == k && k != 0xFF

/-- The follow instance whose job is `j`. -/
def Chip.followOf (c : Chip) (j : Nat) : Option Nat := (c.follows.find? fun e => e.2.job == some j).map (·.1)

/-- The state of follow instance `i`. -/
def Chip.follow (c : Chip) (i : Nat) : FollowSt := Tbl.get FollowSt.reset c.follows i
def Chip.modFollow (c : Chip) (i : Nat) (f : FollowSt → FollowSt) : Chip :=
  { c with follows := Tbl.mod FollowSt.reset c.follows i f }

/-! Linking fields of a follow job (Table 09-1). -/

def fEntry (d : List Byte) : Nat := bits (dF0 d) 0 14
def fCount (d : List Byte) : Nat := bits (dF0 d) 14 2
def fProg (d : List Byte) : Nat := bits (dF0 d) 16 4
def fSlotA (d : List Byte) : Nat := bits (dF0 d) 20 5
def fSlotB (d : List Byte) : Nat := bits (dF0 d) 25 5
def fOnAir (d : List Byte) : Nat := bits (dF1 d) 0 8
def fBg1 (d : List Byte) : Nat := bits (dF1 d) 8 8
def fBg2 (d : List Byte) : Nat := bits (dF1 d) 16 8
def fRange (d : List Byte) : Nat := bits (dF1 d) 24 5

/-- The lanes a follow job names, on-air lane first. -/
def fLanes (d : List Byte) : List Nat := [fOnAir d] ++ (if fBg1 d = 0xFF then [] else [fBg1 d]) ++ (if fBg2 d = 0xFF then [] else [fBg2 d])

/-- The FM slots a follow job names. -/
def fSlots (d : List Byte) : List Nat := (if fSlotA d = 31 then [] else [fSlotA d]) ++ (if fSlotB d = 31 then [] else [fSlotB d])

/-- The descriptor of a held job. -/
def Chip.jobDesc (c : Chip) (j : Nat) : List Byte := match c.job? j with | some x => x.desc | none => []

/-! Gallery and AF pool words (Tables 08-7 and 08-8). -/

def Chip.galW (c : Chip) (e w : Nat) : Nat := (Tbl.get 0 c.gallery (8 * e + w)).toNat
def Chip.setGalW (c : Chip) (e w v : Nat) : Chip := { c with gallery := Tbl.set 0 c.gallery (8 * e + w) (w32 v) }
def Chip.galKind (c : Chip) (e : Nat) : Nat := bits (c.galW e 1) 0 3
def Chip.afW (c : Chip) (e w : Nat) : Nat := (Tbl.get 0 c.afPool (2 * e + w)).toNat
def Chip.setAfW (c : Chip) (e w v : Nat) : Chip := { c with afPool := Tbl.set 0 c.afPool (2 * e + w) (w32 v) }

end Sys2Proof.Machine
end

