-- ==== Sys2Proof/Machine/Admission.lean ====
section
/-! DEFINITION. Admission control (R323 to R353): the checks of a job descriptor in the order of R346, its costs (Table 11-5), the promise arithmetic, the calendar test, and what an admission or a refusal leaves. -/

namespace Sys2Proof.Machine

/-! Reason codes (Table 11-9). -/

def rOk : Nat := 0x00
def rNoCapacity : Nat := 0x01
def rLatency : Nat := 0x02
def rStopped : Nat := 0x03
def rVoid : Nat := 0x04
def rCoex : Nat := 0x05
def rLate : Nat := 0x06
def rNotNegotiated : Nat := 0x07
def rSealFail : Nat := 0x08
def rExhausted : Nat := 0x09
def rBad : Nat := 0x0A
def rCalibrating : Nat := 0x0B
def rDuty : Nat := 0x0C
def rNotInProfile : Nat := 0x0D
def rBusFault : Nat := 0x0E
def rDrain : Nat := 0x0F

/-- A verdict: reason, resource and shortfall (Table 11-7). -/
structure Verdict where
  reason : Nat
  res : Nat
  short : Nat
deriving DecidableEq, Repr

def Verdict.ok : Verdict := { reason := 0, res := 0, short := 0 }
def Verdict.plain (r : Nat) : Verdict := { reason := r, res := 0, short := 0 }

/-! What a descriptor asks for. -/

/-- A DRM option byte (Table 07-2). -/
def optDrm (o : Nat) : Bool := o == 0x20 || o == 0x21 || o == 0x22
def optAm (o : Nat) : Bool := o == 0x02 || o == 0x03 || o == 0x04

/-- The stage count that an option byte requires; `none` where any serves (0x30), 7 for an unlisted byte. -/
def optStages (o : Nat) : Option Nat :=
  if o = 0x01 then some 4 else if optAm o then some 6 else if o = 0x10 then some 1
  else if o = 0x20 ∨ o = 0x21 then some 6 else if o = 0x22 then some 4
  else if o = 0x30 then none else some 7

/-- Measurement fields (Table 10-1). -/
def mInterval (d : List Byte) : Nat := bits (dF0 d) 0 16
def mAlign (d : List Byte) : Bool := (dF0 d).testBit 16
def mRecords (d : List Byte) : Bool := (dF0 d).testBit 17
def mLog (d : List Byte) : Bool := (dF0 d).testBit 18
def mType (d : List Byte) : Nat := bits (dF0 d) 24 8

/-- Body length of a Swatch kind (Table 10-2). -/
def swatchBody (ty : Nat) : Nat :=
  if ty = 0x41 then 32 else if ty = 0x42 then 20 else if ty = 0x43 then 32 else if ty = 0x44 then 528
  else if ty = 0x45 then 44 else if ty = 0x46 then 32 else 24

/-- The descriptor is of a kind that emits records (Table 11-5). -/
def emits (d : List Byte) : Bool :=
  let k := dKind d
  (k == 1 && optDrm (dOption d)) || k == 2 || k == 3 || k == 4 || k == 5 || k == 7 || k == 8

/-- The job itself emits records: a measurement only with records set. -/
def emitsNow (d : List Byte) : Bool := emits d && (dKind d != 5 || mRecords d)

/-- Instance class of a job, with its limit (Table 11-3): AM, ensemble, DRM channel, MSC decoder, follow, measurement. -/
def instClass (d : List Byte) : Option (Nat × Nat) :=
  let k := dKind d
  if k = 1 then
    if optAm (dOption d) then some (1, 64) else if dOption d = 0x10 then some (2, 8) else if optDrm (dOption d) then some (3, 16) else none
  else if k = 2 then some (4, 32) else if k = 5 then some (6, 256) else if k = 6 then some (5, 8) else none

/-- Costs of a job (Table 11-5). -/
structure Cost where
  lanes : List Nat
  trellis : Nat
  tdi : Nat
  lnk : Nat
  mean : Nat
  burst : Nat
  lmin : Nat
deriving DecidableEq, Repr

/-- Audio-port rate (AUD_CFG[2]). -/
def Chip.audRate (c : Chip) : Nat := if c.bit 0x640 2 then 32000 else 48000

/-- The lane of an MSC, stream or measurement job carries DRM+ (option 0x22). -/
def Chip.isDrmPlus (c : Chip) (k : Nat) : Bool := c.laneOption k == 0x22

/-- What a descriptor costs (R333, Table 11-5). -/
def Chip.cost (c : Chip) (d : List Byte) : Cost :=
  let k := dKind d
  let lane := hLane (dHandle d)
  let o := dOption d
  let none_ : Cost := { lanes := [], trellis := 0, tdi := 0, lnk := 0, mean := 0, burst := 0, lmin := 0 }
  if k = 1 then
    let ls := if c.laneCombines lane then [lane, lane + 1] else [lane]
    if o = 0x10 then { none_ with lanes := ls, trellis := 774 }
    else if o = 0x20 ∨ o = 0x21 then { none_ with lanes := ls, trellis := 99, mean := 1024, burst := 1040, lmin := 588 }
    else if o = 0x22 then { none_ with lanes := ls, trellis := 111, mean := 4096, burst := 1040, lmin := 133 }
    else { none_ with lanes := ls }
  else if k = 2 then
    let cu := bits (dF0 d) 0 10
    let s := bits (dF0 d) 16 8
    let raw := (dF0 d).testBit 24
    let u := 24 * s + 24 * ceilDiv (24 * s) 1008
    let sf := 4 * ceilDiv (110 * s) 4 + 24 * ceilDiv (110 * s) 1008
    { none_ with trellis := ceilDiv (192 * s + 6) 24, tdi := ceilDiv cu 2, mean := ceilDiv (u * 125) 3, burst := max u sf, lmin := if raw then 496 else 596 }
  else if k = 3 then
    let r := bits (dF0 d) 0 11 * 100
    let long := (dF0 d).testBit 11
    let streams := (List.range 4).filter fun i => (dF0 d).testBit (12 + i)
    let plus := c.isDrmPlus lane
    let n := if plus then ceilDiv r 80 else ceilDiv (r * 4) 80
    let u := n + 28 * (ceilDiv n 1008 + streams.length)
    let steps := if plus then ceilDiv r 10 + 12 else ceilDiv (r * 4) 10 + 18
    { none_ with
      trellis := if plus then ceilDiv steps 25 else ceilDiv steps 100
      tdi := if plus then 96 else if long then 64 else 16
      mean := if plus then u * 10 else ceilDiv (u * 10) 4
      burst := u
      lmin := if plus then (if long then 650 else 138) else (if long then 2286 else 648) }
  else if k = 4 then
    if o = 0x10 then { none_ with mean := 320, burst := 28, lmin := 4 } else { none_ with mean := 6500, burst := 624, lmin := 14 }
  else if k = 5 then
    let ty := mType d
    let extra := if ty = 0x43 ∨ ty = 0x44 ∨ ty = 0x45 then 110 else if ty = 0x46 then (if c.isDrmPlus lane then 115 else 550) else 3
    let len := 16 + swatchBody ty
    { none_ with mean := if mRecords d then ceilDiv (len * 1024) (mInterval d) else 0, burst := if mRecords d then len else 0, lmin := mInterval d + extra }
  else if k = 6 then
    let b := if fProg d = 15 then 0 else ceilDiv ((fRange d + 1) * c.audRate) 1024
    { none_ with lanes := fLanes d, lnk := b }
  else if k = 7 then { none_ with mean := 135168000, burst := 528, lmin := 2 }
  else { none_ with mean := c.reg 0x702 * 1000, burst := 528 }

/-! R324: the checks that refuse with BAD_PARAMETER, and R17, R325: OBJECT_STOPPED. -/

/-- A window runs: WIN_STATE settling or running (R72). -/
def Chip.winRuns (c : Chip) (w : Nat) : Bool := c.reg (winA w 2) == 1 || c.reg (winA w 2) == 2

/-- The window's converter, 0 or 1. -/
def Chip.winSrc (c : Chip) (w : Nat) : Nat := c.reg (winA w 1)

/-- A combining lane would break R57. -/
def Chip.combineBad (c : Chip) (k : Nat) : Bool :=
  let w1 := c.laneWin k
  let w2 := c.laneWin2 k
  c.laneCombines k && (k % 2 == 1 || (c.lane (k + 1)).job.isSome || c.winSrc w1 == c.winSrc w2 || c.reg (winA w1 0) != c.reg (winA w2 0))

/-- Magnitude of a lane's NCO word. -/
def Chip.ncoMag (c : Chip) (k : Nat) : Nat := (toSigned 32 (c.reg (laneA k 1))).natAbs

/-- A lane may not start (R109), or its option byte does not suit it (R134, R163, R164, R202). The second front of a pair is no case of R57: its slot is taken (R56), so the calendar refuses it. -/
def Chip.laneBad (c : Chip) (k option : Nat) : Bool :=
  let n := c.laneStages k
  11 < c.laneWin k || n == 7 || !(decide (4 ≤ c.laneFade k) && decide (c.laneFade k ≤ 10)) || !c.bankOk (c.laneBank k) ||
    c.combineBad k ||
    (match optStages option with
      | some m => m == 7 || n != m
      | none => 6 < n) ||
    (option == 0x10 && 0x60580000 < c.ncoMag k)

/-- Another held job emits the same record type for the same producing object (R25, R324). -/
def Chip.sameStream (c : Chip) (d : List Byte) : Bool :=
  let k := dKind d
  let same := fun (x : Job) =>
    dKind x.desc == k &&
    (if k = 2 ∨ k = 3 ∨ k = 7 ∨ k = 8 then setBits (dHandle x.desc) 25 4 (if k = 7 ∨ k = 8 then hWin (dHandle x.desc) else 0) == setBits (dHandle d) 25 4 (if k = 7 ∨ k = 8 then hWin (dHandle d) else 0)
     else if k = 4 then hLane (dHandle x.desc) == hLane (dHandle d) && dOption x.desc == dOption d
     else if k = 5 then mRecords x.desc && mRecords d && mType x.desc == mType d && setBits (dHandle x.desc) 25 4 0 == setBits (dHandle d) 25 4 0
     else false)
  c.jobs.any fun e => same e.2

/-- The handle's level and fields suit the kind, and the kind fields pass their owning chapter's checks. -/
def Chip.kindBad (c : Chip) (d : List Byte) : Bool :=
  let k := dKind d
  let h := dHandle d
  let lane := hLane h
  let f := dF0 d
  if k = 1 then hLevel h != 3 || f != 0 || dF1 d != 0 || c.laneBad lane (dOption d)
  else if k = 2 then
    hLevel h != 1 || dF1 d != 0 || bits f 10 6 != 0 || bits f 25 7 != 0 || bits f 0 10 == 0 || 864 < bits f 0 10 || bits f 16 8 == 0 || 216 < bits f 16 8 ||
      (c.laneHeld lane && !c.laneIsDab lane)
  else if k = 3 then
    hLevel h != 3 || dF1 d != 0 || bits f 16 16 != 0 || bits f 0 11 == 0 || bits f 12 4 == 0 ||
      (c.laneHeld lane && (!c.laneIsDrm lane || (if c.isDrmPlus lane then 1900 else 800) < bits f 0 11))
  else if k = 4 then
    hLevel h != 3 || dF1 d != 0 ||
      (if dOption d = 0x10 then f == 0 || (c.laneHeld lane && !c.laneIsFm lane)
       else if dOption d = 0x11 then f != 1 || (c.laneHeld lane && !c.laneIsDab lane)
       else true)
  else if k = 5 then
    let ty := mType d
    let lev := if ty = 0x48 then h == handleBlock 0x01 || h == handleBlock 0x02 else if ty = 0x49 then h == handleBlock 0x0D else hLevel h == 3
    let dem := if ty = 0x41 then c.laneIsFm lane else if ty = 0x42 then c.laneIsAm lane
      else if ty = 0x43 ∨ ty = 0x44 ∨ ty = 0x45 then c.laneIsDab lane else if ty = 0x46 then c.laneIsDrm lane else true
    dF1 d != 0 || bits f 19 5 != 0 || !(decide (0x40 ≤ ty) && decide (ty ≤ 0x49)) || mInterval d == 0 || (mAlign d && mInterval d % 1024 != 0) ||
      (!mRecords d && !mLog d) || (mLog d && !(ty == 0x40 || ty == 0x41 || ty == 0x43 || ty == 0x46)) || !lev ||
      (hLevel h == 3 && c.laneHeld lane && !dem) ||
      (ty == 0x45 && match c.ensOf lane with | some e => !c.bit (dabA e 0x0B) 0 | none => false)
  else if k = 6 then
    let ls := fLanes d
    let ss := fSlots d
    let others := c.follows.filterMap fun e => e.2.job.map fun j => c.jobDesc j
    let kd := c.galKind (fEntry d)
    h != handleBlock 0x0A || bits (dF0 d) 30 2 != 0 || bits (dF1 d) 29 3 != 0 || fCount d == 3 || !(kd == 1 || kd == 3 || kd == 4) ||
      others.any (fun x => fEntry x == fEntry d) ||
      ls.any (fun k => 159 < k || (c.lane k).job.isSome || c.laneSecond k || c.laneStages k != 4 || !c.bankOk (c.laneBank k) || 1 < ls.count k) ||
      ls.length != 1 + fCount d || (8 ≤ fProg d && fProg d != 15) ||
      (fProg d < 8 && (fSlotA d == 31 || fSlotB d == 31)) || (fProg d == 15 && (fSlotA d != 31 || fSlotB d != 31)) ||
      ss.any (fun s => 15 < s || c.reg 0xC38 == s || c.reg (fmsA s 0) != 0xFF || others.any (fun x => (fSlots x).contains s) || 1 < ss.count s) ||
      (fProg d < 8 && others.any (fun x => fProg x == fProg d)) || fRange d == 0 || 16 < fRange d
  else h == 0 || hLevel h != 4 || dF0 d != 0 || dF1 d != 0 || (k == 8 && dBound d != 0)

/-- The descriptor is refused with BAD_PARAMETER (R17, R324, R327). -/
def Chip.descBad (c : Chip) (d : List Byte) : Bool :=
  let k := dKind d
  k == 0 || 8 < k || 2 < dClass d || 3 < dFlags d || leAt d 10 2 != 0 || (k != 1 && k != 4 && dOption d != 0) || !handleOk (dHandle d) ||
    (!emits d && dBound d != 0) || (emits d && dClass d == 0 && dBound d == 0) ||
    c.kindBad d || c.sameStream d ||
    (dTimed d && (let x := (dStart d + 2 ^ 32 - c.tick % 2 ^ 32) % 2 ^ 32; x == 0 || 65536 < x))

/-- The object named is not running (R17, R325). -/
def Chip.descStopped (c : Chip) (d : List Byte) : Bool :=
  let k := dKind d
  let h := dHandle d
  let lane := hLane h
  if k = 1 then !c.winRuns (c.laneWin lane)
  else if k = 2 ∨ k = 3 ∨ k = 4 then !c.laneHeld lane || (c.lane lane).suspended
  else if k = 5 then
    if hLevel h = 3 then !c.laneHeld lane || (c.lane lane).suspended
    else if h = handleBlock 0x0D then c.reg 0xD00 == 0 || c.reg 0xD00 == 6
    else !c.bit 0x303 (h - handleBlock 0x01)
  else if k = 7 then !c.winRuns (hWin h)
  else if k = 8 then c.reg (winA (hWin h) 0x13) != 4
  else false

/-- A front end that feeds the descriptor's object, 0 or 1. -/
def Chip.feedingFes (c : Chip) (d : List Byte) : List Nat :=
  let h := dHandle d
  let ofWin := fun w => if w ≤ 11 ∧ c.winSrc w < 2 then [c.winSrc w] else []
  if hLevel h = 4 then ofWin (hWin h)
  else if h = handleBlock 0x01 then [0] else if h = handleBlock 0x02 then [1]
  else if hLevel h ≤ 3 then ofWin (c.laneWin (hLane h)) ++ (if c.laneCombines (hLane h) then ofWin (c.laneWin2 (hLane h)) else [])
  else []

/-- CAL_x_STATUS: all five sections accepted, or not isolable; bit 11 marks an active ladder (Table 13-3). -/
def Chip.ladderOk (c : Chip) (fe : Nat) : Bool := c.bit (0xA10 + 0x10 * fe) 11

/-! The calendar (R329 to R332, R339, R340). -/

/-- Standing reservations (Table 11-4): Trellis, stream rate, burst. -/
def Chip.linkEnabled (c : Chip) : Bool := c.reg 0xD00 != 0
def Chip.standTrellis (c : Chip) : Nat := if c.linkEnabled && c.bit 0xD01 3 then 200 else 0
def Chip.standRate (c : Chip) : Nat := if c.linkEnabled then 131072 else 65536
def Chip.standBurst (c : Chip) : Nat := if c.linkEnabled then 4096 else 2048

/-- A held job's reservation is in force in tick `t`; `freeEnding` leaves out jobs whose withdrawal takes effect. -/
def Job.holds (x : Job) (t : Nat) (freeEnding : Bool) : Bool :=
  decide (x.start ≤ t) && (match x.stop with | some e => decide (t < e) | none => true) && !(freeEnding && x.ending.isSome)

/-- The jobs that hold reservations in tick `t`, other than job `self`. -/
def Chip.holding (c : Chip) (t : Nat) (freeEnding : Bool) (self : Option Nat) : List Job :=
  (c.jobs.filter fun e => some e.1 != self && e.2.holds t freeEnding).map (·.2)

/-- SCH_CAPACITY: C = min(262,144,000, 1,000 D) (R337). -/
def Chip.capacity (c : Chip) : Nat := min 262144000 (1000 * c.reg 0x700)

/-- The buffer that R340 requires for a total reservation and burst sum. -/
def Chip.bufferNeed (c : Chip) (v w : Nat) : Nat := ceilDiv (v * (c.reg 0x701 + 1)) 1024 + w

/-- Bursts of a job that count in W: those of GUARANTEED and ELASTIC jobs. -/
def Job.wBurst (x : Job) : Nat := if dClass x.desc = 2 then 0 else x.burst

/-- KiB of a job's pages in the partitions of one use. -/
def Chip.pagesIn (c : Chip) (x : Job) (use : Nat) : Nat :=
  sumList ((x.pages.filter fun e => (c.partsOf use).contains e.1).map (·.2))

/-- KiB of one use that a job holds, or needs while it waits for its pages. -/
def Chip.jobNeed (c : Chip) (x : Job) (use : Nat) : Nat :=
  if x.pages.isEmpty then (if use = 3 then (c.cost x.desc).tdi else (c.cost x.desc).lnk) else c.pagesIn x use

/-- The first resource, in code order, that does not cover the demand in tick `t` (R339, R340, R346). -/
def Chip.fitTick (c : Chip) (d : List Byte) (k : Cost) (rate t : Nat) (freeEnding : Bool) (self : Option Nat) : Verdict :=
  let js := c.holding t freeEnding self
  let slots := (k.lanes.filter fun l => js.any fun x => x.lanes.contains l).length
  let inst := match instClass d with
    | some (cl, lim) =>
      let n := (js.filter fun x => match instClass x.desc with | some (c2, _) => c2 == cl | none => false).length
      if n + 1 ≤ lim then 0 else n + 1 - lim
    | none => 0
  let trel := sumList (js.map (·.trellis)) + c.standTrellis + k.trellis
  let size := fun use => sumList ((c.partsOf use).map c.partBytes) / 1024
  let used := fun use => sumList (js.map fun x => c.jobNeed x use)
  let v := sumList (js.map (·.rate)) + c.standRate + rate
  let w := sumList (js.map Job.wBurst) + c.standBurst + (if dClass d = 2 then 0 else k.burst)
  let no := fun res short => ({ reason := rNoCapacity, res := res, short := short } : Verdict)
  if slots ≠ 0 then no 1 slots
  else if inst ≠ 0 then no 2 inst
  else if k.trellis ≠ 0 ∧ 62500 < trel then no 3 (trel - 62500)
  else if k.tdi ≠ 0 ∧ size 3 < used 3 + k.tdi then no 4 (used 3 + k.tdi - size 3)
  else if k.lnk ≠ 0 ∧ size 2 < used 2 + k.lnk then no 5 (used 2 + k.lnk - size 2)
  else if emitsNow d ∧ c.strBytes < c.bufferNeed v w then no 6 (c.bufferNeed v w - c.strBytes)
  else if emitsNow d ∧ c.capacity < v then no 7 (v - c.capacity)
  else Verdict.ok

/-- The worse of two verdicts: a refusal, of the lower resource, of the larger shortfall. -/
def Verdict.worse (a b : Verdict) : Verdict :=
  if a.reason = 0 then b else if b.reason = 0 then a
  else if a.res < b.res then a else if b.res < a.res then b else if a.short < b.short then b else a

/-- The calendar test from tick `s` on (R330): reservations change only where a job starts, so its ticks are `s` and the starts inside the span. -/
def Chip.fitSpan (c : Chip) (d : List Byte) (k : Cost) (rate s : Nat) (freeEnding : Bool) (self : Option Nat) : Verdict :=
  let e := if dDuration d = 0 then c.tick + 65537 else min (s + dDuration d) (c.tick + 65537)
  let ts := s :: ((c.jobs.map fun x => x.2.start).filter fun t => decide (s < t) && decide (t < e))
  let v := (ts.map fun t => c.fitTick d k rate t freeEnding self).foldl Verdict.worse Verdict.ok
  let ids := (c.jobs.filter fun x => !freeEnding || (x.2.ending.isNone && match x.2.stop with | some e => decide (s < e) | none => true)).length
  if v.reason = 0 ∧ self = none ∧ 1024 ≤ ids then { reason := rNoCapacity, res := 9, short := 1 } else v

/-- The allowance A of R338 less one, when the bound allows one: bound - lmin - S. -/
def Chip.allowance (c : Chip) (d : List Byte) (k : Cost) : Option Nat :=
  if k.lmin + c.reg 0x701 ≤ dBound d then some (dBound d - k.lmin + 1 - c.reg 0x701) else none

/-- Stream reservation by class (R338). -/
def Chip.rateOf (c : Chip) (d : List Byte) (k : Cost) : Nat :=
  if !emits d then 0
  else if dClass d = 0 then match c.allowance d k with
    | some a => max k.mean (if k.burst = 0 then 0 else ceilDiv (k.burst * 1024) a)
    | none => k.mean
  else if dClass d = 1 then k.mean else 0

/-- The tick at which the descriptor starts: the timed start, or the next boundary (R327). -/
def Chip.startTick (c : Chip) (d : List Byte) : Nat :=
  if dTimed d then c.tick + (dStart d + 2 ^ 32 - c.tick % 2 ^ 32) % 2 ^ 32 else c.tick + 1

/-- The admission test up to LATENCY_UNMEETABLE, in the order of R346. -/
def Chip.precheck (c : Chip) (d : List Byte) : Verdict :=
  let k := c.cost d
  let smallest := k.lmin + (if dClass d = 0 then c.reg 0x701 else 0)
  if c.descBad d then Verdict.plain rBad
  else if c.descStopped d then Verdict.plain rStopped
  else if (emitsNow d && c.strPart.isNone) || (k.tdi != 0 && (c.partsOf 3).isEmpty) || (k.lnk != 0 && (c.partsOf 2).isEmpty) then Verdict.plain rNotInProfile
  else if dNeedCal d && (c.feedingFes d).any (fun f => !c.ladderOk f) then Verdict.plain rCalibrating
  else if dBound d ≠ 0 ∧ dBound d < k.lmin then { reason := rLatency, res := 10, short := smallest }
  else if emits d ∧ dClass d = 0 ∧ (c.allowance d k).isNone then { reason := rLatency, res := 10, short := smallest }
  else Verdict.ok

/-- The admission test (R340): first failure in the order of R346. -/
def Chip.admission (c : Chip) (d : List Byte) : Verdict :=
  let v := c.precheck d
  if v.reason ≠ 0 then v else c.fitSpan d (c.cost d) (c.rateOf d (c.cost d)) (c.startTick d) false none

/-- The first tick within the calendar at which the refused descriptor, made timed, would fit (Table 11-7). -/
def Chip.earliest (c : Chip) (d : List Byte) : Nat :=
  let v := c.precheck d
  if v.reason ≠ 0 then 0xFFFFFFFF
  else
    let cand := (c.tick + 1) :: (c.jobs.filterMap fun e => e.2.stop)
    let good := cand.filter fun s => decide (c.tick + 1 ≤ s) && decide (s ≤ c.tick + 65536) &&
      (c.fitSpan d (c.cost d) (c.rateOf d (c.cost d)) s true none).reason == 0
    match good with
    | [] => 0xFFFFFFFF
    | x :: r => (r.foldl min x) % 2 ^ 32

/-! What an admission leaves. -/

/-- Take `n` KiB from the partitions of a use, lowest-numbered first (R89). -/
def Chip.takePages (c : Chip) (ps : List Nat) (n : Nat) : Tbl Nat × Chip :=
  match ps with
  | [] => ([], c)
  | p :: r =>
    let free := c.partBytes p / 1024 - c.reg (cnvA p 1) / 1024
    let t := min n free
    let c := if t = 0 then c else c.setFill p (c.reg (cnvA p 1) + t * 1024)
    let (rest, c) := c.takePages r (n - t)
    (if t = 0 then rest else (p, t) :: rest, c)

/-- Free KiB of a use (R89). -/
def Chip.freePages (c : Chip) (use : Nat) : Nat := sumList ((c.partsOf use).map fun p => c.partBytes p / 1024 - c.reg (cnvA p 1) / 1024)

/-- A held job takes its pages: at admission, or, where the calendar counted on the end of another job (R330), when that has freed them. -/
def Chip.allot (c : Chip) (j : Nat) : Chip := match c.job? j with
  | none => c
  | some x =>
    let k := c.cost x.desc
    if !x.pages.isEmpty ∨ (k.tdi = 0 ∧ k.lnk = 0) ∨ c.freePages 3 < k.tdi ∨ c.freePages 2 < k.lnk then c
    else
      let (p1, c) := c.takePages (c.partsOf 3) k.tdi
      let (p2, c) := c.takePages (c.partsOf 2) k.lnk
      c.setJob j { x with pages := (p1 ++ p2).foldl (fun t e => Tbl.put t e.1 e.2) [] }

/-- Give a job's pages back: a job ends at a tick boundary, so they are reusable in the tick that it begins (R89, R328, R350). -/
def Chip.givePages (c : Chip) (pages : Tbl Nat) : Chip :=
  c.each pages fun c e => c.setFill e.1 (c.reg (cnvA e.1 1) - e.2 * 1024)

/-- The scheduler's computed parameters: C, total reservation, required buffer, lane slots, jobs, demodulators in use, reserved Trellis demand, follow instances, MSC and measurement jobs. -/
def Chip.refreshSched (c : Chip) : Chip :=
  let js := c.jobs.map (·.2)
  let v := sumList (js.map (·.rate)) + c.standRate
  let w := sumList (js.map Job.wBurst) + c.standBurst
  let lanes := (js.map (·.lanes)).flatten.eraseDups
  let inst := fun cl => (js.filter fun x => match instClass x.desc with | some (c2, _) => c2 == cl | none => false).length
  let fm := (js.filter fun x => dKind x.desc == 1 && dOption x.desc == 0x01).length + sumList ((js.filter fun x => dKind x.desc == 6).map fun x => x.lanes.length)
  let c := c.put 0x704 c.capacity
  let c := c.put 0x705 v
  let c := c.put 0x706 (c.bufferNeed v w)
  let c := c.put 0x707 lanes.length
  let c := c.put 0x708 js.length
  let c := c.put 0x7A0 (sumList (js.map (·.trellis)) + c.standTrellis)
  let c := c.put 0x5186 fm
  let c := c.put 0x5187 (inst 1)
  let c := c.put 0xC60 (inst 5)
  let c := c.put 0xB00 (inst 6)
  c.each (List.range 8) fun c e =>
    c.put (dabA e 0x15) ((js.filter fun x => dKind x.desc == 2 && hLane (dHandle x.desc) == c.reg (dabA e 0)).length)

/-- The lowest free job identifier (R326). -/
def Chip.freeJob (c : Chip) : Option Nat := Tbl.lowestFree c.jobs 0 1024

/-- The lowest follow instance that is not held (R266). -/
def Chip.freeFollow (c : Chip) : Option Nat := (List.range 8).find? fun i => (c.follow i).job.isNone

/-- The lanes that a job runs (R108, R268). -/
def jobLanes (d : List Byte) : List Nat := if dKind d = 1 then [hLane (dHandle d)] else if dKind d = 6 then fLanes d else []

/-- A lane is free for a job that starts at tick `t`: no job holds it, or one that is scheduled to start after it (R330). -/
def Chip.laneFreeFor (c : Chip) (k t : Nat) : Bool := match (c.lane k).job with
  | none => true
  | some i => match c.job? i with
    | some y => y.state == 1 && decide (t < y.start)
    | none => true

/-- A job takes hold of its lanes at admission, or when the job before it has left them (R108, R268, R330). -/
def Chip.holdLanes (c : Chip) (j t : Nat) (d : List Byte) : Chip :=
  let o := if dKind d = 1 then dOption d else 0x01
  c.each (jobLanes d) fun c k =>
    if c.laneFreeFor k t then c.modLane k fun l => { l with job := some j, option := o, started := false, filled := false, suspended := false } else c

/-- A follow job takes instance `i`: the unit owns its lanes and slots, the slots' destinations are 15 (R266, R268), the followed bit of its entry is set (R270). -/
def Chip.takeFollow (c : Chip) (i j : Nat) (d : List Byte) : Chip :=
  let c := c.modFollow i fun _ => { FollowSt.reset with job := some j }
  let c := c.put (lnkA i 6) 1
  let c := c.each (fSlots d) fun c s => c.put (fmsA s 1) 15
  c.setGalW (fEntry d) 1 (setBits (c.galW (fEntry d) 1) 30 1 1)

/-- A follow job takes the lowest free instance. -/
def Chip.holdFollow (c : Chip) (j : Nat) (d : List Byte) : Chip :=
  if dKind d ≠ 6 ∨ (c.followOf j).isSome then c
  else match c.freeFollow with
    | none => c
    | some i => c.takeFollow i j d

/-- Admit a descriptor whose test has passed: the lowest free identifier, every reservation, and what its kind takes hold of. -/
def Chip.admitJob (c : Chip) (d : List Byte) (origin : Nat) : Nat × Chip :=
  match c.freeJob with
  | none => (0xFFFF, c)
  | some j =>
    let k := c.cost d
    let start := c.startTick d
    let rate := c.rateOf d k
    let x : Job :=
      { desc := d, state := 1, reason := 0, start := start, stop := if dDuration d = 0 then none else some (start + dDuration d),
        allowance := if emits d ∧ dClass d = 0 then (c.allowance d k).getD 0 else 0, lmin := k.lmin, rate := rate, mean := k.mean, burst := k.burst,
        trellis := k.trellis, lanes := k.lanes, pages := [], origin := origin, records := 0, late := 0, shed := 0, maxLate := 0, sat := 0,
        lateRun := false, shedRun := false, ending := none, voided := false }
    let c := (c.setJob j x).allot j
    let c := c.holdLanes j start d
    let c := c.holdFollow j d
    let c := if dKind d = 7 then (c.modWin (hWin (dHandle d)) fun w => { w with expJob := some j }).put (winA (hWin (dHandle d)) 8) 1 else c
    let c := if dKind d = 8 then (c.modWin (hWin (dHandle d)) fun w => { w with capJob := some j, capSent := 0 }).put (winA (hWin (dHandle d)) 0x13) 5 else c
    let c := if dKind d = 2 ∨ dKind d = 3 then
        { c with mscs := Tbl.put c.mscs j { MscSt.reset with order := c.mscOrder }, mscOrder := c.mscOrder + 1 }
      else c
    let c := if dKind d = 5 then
        { c with swts := Tbl.set SwtSt.reset c.swts j { SwtSt.reset with aligned := mAlign d && c.time.reached2, unit := c.reg 0xB04 } }
      else c
    (j, c.refreshSched)

/-- A refused submission: event 24, SCH_LAST_REFUSAL, SCH_LAST_SHORT, SCH_REFUSED_CNT (R345), and event 31 armed by NO_CAPACITY (R351). -/
def Chip.refuse (c : Chip) (d : List Byte) (v : Verdict) : Chip :=
  let c := c.raise 24 (handleBlock 0x08) (v.reason + 256 * v.res)
  let c := c.put 0x70A (v.reason + 256 * v.res + 65536 * dKind d)
  let c := c.put 0x70B v.short
  let c := c.count 0x70C
  if v.reason = rNoCapacity then { c with sched := { c.sched with wanting := true } } else c

/-- Take one submission (R323, R340, R345): the admission reply body of Table 11-7. -/
def Chip.submit (c : Chip) (d : List Byte) (origin : Nat) : List Byte × Chip :=
  let v := c.admission d
  if v.reason = 0 then
    let (j, c) := c.admitJob d origin
    ([0x00, 0x00] ++ le 2 j ++ le 4 0 ++ le 4 ((c.startTick d) % 2 ^ 32), c)
  else
    let e := c.earliest d
    ([b8 v.reason, b8 v.res] ++ le 2 0xFFFF ++ le 4 v.short ++ le 4 e, c.refuse d v)

end Sys2Proof.Machine
end

