-- ==== Sys2Proof/Machine/Dsp.lean ====
section
/-! DEFINITION. The arithmetic of the signal path on samples, apart from the parameters that steer it: rounding and saturation, NCO and mixers, CIC decimators, FIR filters, detectors, tracking loops, levels in decibels, the discriminator and the AM detectors (R73 to R76, R103 to R106, R116, R119, R125, R131, R136, R153, R154). Coefficients and tables that the manual gives by their properties only are constants of Config (log entry 61). -/

namespace Sys2Proof.Machine

/-! Rounding, saturation, wrapping. -/

/-- (x + 2^(n-1)) >> n: shift right with rounding half up. -/
def rnd (n : Nat) (x : Int) : Int := (x + (2 ^ n / 2 : Nat)) / (2 ^ n : Nat)

/-- Saturate to `w` bits, and count the saturation. -/
def satW (w : Nat) (x : Int) : Int × Nat :=
  let y := clampInt (-(2 ^ (w - 1) : Nat)) ((2 ^ (w - 1) : Nat) - 1) x
  (y, if y = x then 0 else 1)

/-- A complex sample saturated to 16 + 16 bits, with the components saturated. -/
def satSmp (x : Smp) : Smp × Nat :=
  let i := satW 16 x.1
  let q := satW 16 x.2
  ((i.1, q.1), i.2 + q.2)

/-- Two's complement of `w` bits, wrapping. -/
def wrapW (w : Nat) (x : Int) : Int := toSigned w (ofSigned w x)

def Smp.add (w : Nat) (x y : Smp) : Smp := (wrapW w (x.1 + y.1), wrapW w (x.2 + y.2))
def Smp.sub (w : Nat) (x y : Smp) : Smp := (wrapW w (x.1 - y.1), wrapW w (x.2 - y.2))

/-! Square roots, logarithms and angles. -/

/-- Integer square root, bit by bit from 2^(2n). -/
def isqrtN : Nat → Nat → Nat → Nat
  | 0, _, r => r
  | n + 1, x, r => let t := r + 2 ^ n; isqrtN n x (if t * t ≤ x then t else r)

def isqrt (x : Nat) : Nat := isqrtN 40 x 0

/-- Square root to the nearest integer. -/
def rootNear (x : Nat) : Nat := let r := isqrt x; if r * r + r < x then r + 1 else r

def Smp.power (x : Smp) : Nat := x.1.natAbs * x.1.natAbs + x.2.natAbs * x.2.natAbs

/-- |I + jQ| to the nearest integer (R131). -/
def Smp.mag (x : Smp) : Nat := rootNear x.power

/-- floor(log10 x) of a number from 1, by repeated division; `n` bounds the digits. -/
def log10N : Nat → Nat → Nat
  | 0, _ => 0
  | n + 1, x => if x < 10 then 0 else log10N n (x / 10) + 1

/-- k log10(p / q), rounded to nearest, for p and q above 0. -/
def logRatio (k p q : Nat) : Int :=
  let a := p ^ (2 * k)
  let b := q ^ (2 * k)
  let n := a.log2 + b.log2 + 1
  let f : Int := if b ≤ a then log10N n (a / b) else -(log10N n ((b + a - 1) / a - 1) : Int) - 1
  (f + 1) / 2

/-- A power ratio in 0.01 dB: 10 log10(p / q). -/
def dbPower (p q : Nat) : Int := logRatio 1000 p q

/-- An amplitude ratio in 0.01 dB: 20 log10(p / q). -/
def dbAmp (p q : Nat) : Int := logRatio 2000 p q

/-- arctan of t / 2^40, t from 0 to 2^40, as a fraction of the turn in 2^-48: two halvings of the angle, then the series. -/
def atanTurn (t : Nat) : Int :=
  let one := 2 ^ 40
  let half := fun (x : Nat) => x * one / (one + isqrt (one * one + x * x))
  let x := half (half t)
  let x2 := x * x / one
  let pw := (List.range 12).foldl (fun (s : Int × Nat) k =>
    (s.1 + (if k % 2 = 0 then (1 : Int) else -1) * ((s.2 / (2 * k + 1) : Nat) : Int), s.2 * x2 / one)) ((0 : Int), x)
  -- four times the angle over 2π, in 2^-48 of the turn; 1 / 2π = 0.159154943091895...
  pw.1 * 4 * 159154943091895336 * 256 / 1000000000000000000

/-- arg of a complex number in 2^-48 of the turn, -2^47 < arg ≤ 2^47; 0 for 0. -/
def argTurn (x : Smp) : Int :=
  let a := x.1.natAbs
  let b := x.2.natAbs
  let q : Int := if a = 0 ∧ b = 0 then 0 else if b ≤ a then atanTurn (b * 2 ^ 40 / a) else (2 ^ 46 : Nat) - atanTurn (a * 2 ^ 40 / b)
  let h := if x.1 < 0 then (2 ^ 47 : Nat) - q else q
  if x.2 < 0 then -h else h

/-! NCO and mixers. -/

/-- Cosine and sine from the top 18 bits of a 32-bit phase (R73, R103). -/
def nco (phase : Nat) : Smp := ((Config.ncoCos (phase % 2 ^ 32 / 2 ^ 14)).toInt, (Config.ncoSin (phase % 2 ^ 32 / 2 ^ 14)).toInt)

/-- The window mixer (R74): a real converter sample against the NCO. -/
def winMix (phase : Nat) (x : Int) : Smp := (rnd 15 (x * (nco phase).1), rnd 15 (-x * (nco phase).2))

/-- The lane mixer (R104), before saturation. -/
def laneMix (phase : Nat) (x : Smp) : Smp :=
  (rnd 15 (x.1 * (nco phase).1 + x.2 * (nco phase).2), rnd 15 (x.2 * (nco phase).1 - x.1 * (nco phase).2))

/-! CIC. -/

/-- The integrators take a sample: each adds its register to what the one before it gives. -/
def integrate (w : Nat) : List Smp → Smp → List Smp × Smp
  | [], x => ([], x)
  | r :: rs, x =>
    let y := Smp.add w r x
    let (t, z) := integrate w rs y
    (y :: t, z)

/-- The combs take a sample: each gives it less the one before it. -/
def comb (w : Nat) : List Smp → Smp → List Smp × Smp
  | [], x => ([], x)
  | r :: rs, x =>
    let (t, z) := comb w rs (Smp.sub w x r)
    (x :: t, z)

/-- A CIC of word width `w` that decimates by `r` takes a sample, and gives one on every `r`-th (R75, R105). -/
def CicSt.step (w r : Nat) (s : CicSt) (x : Smp) : CicSt × Option Smp :=
  let (i, y) := integrate w s.ints x
  if s.count + 1 < r then ({ s with ints := i, count := s.count + 1 }, none)
  else
    let (c, z) := comb w s.combs y
    ({ ints := i, combs := c, count := 0 }, some z)

/-! FIR. -/

/-- Σ h[c] x[t - c] over a delay line, newest first. -/
def firSum (h : Nat → Int) (n : Nat) (line : List Smp) : Smp :=
  ((List.range n).zip line).foldl (fun (a : Smp) e => (a.1 + h e.1 * e.2.1, a.2 + h e.1 * e.2.2)) (0, 0)

/-- The same over real samples. -/
def firReal (h : Nat → Int) (n : Nat) (line : List Int) : Int := ((List.range n).zip line).foldl (fun (a : Int) e => a + h e.1 * e.2) 0

/-- The same with complex taps. -/
def firComplex (h : Nat → Smp) (n : Nat) (line : List Smp) : Smp :=
  ((List.range n).zip line).foldl (fun (a : Smp) e => (a.1 + (h e.1).1 * e.2.1 - (h e.1).2 * e.2.2, a.2 + (h e.1).1 * e.2.2 + (h e.1).2 * e.2.1)) (0, 0)

/-- Push a sample on a delay line of `n`. -/
def pushN {α : Type} (n : Nat) (x : α) (l : List α) : List α := (x :: l).take n

/-- The droop compensator (R76): 21 symmetric taps, 18 + 18 bit values in, 16 + 16 bits out with the components saturated. -/
def droopOut (line : List Smp) : Smp × Nat :=
  let s := firSum (fun i => (Config.droop (min i (20 - i))).toInt) 21 line
  satSmp (rnd 18 s.1, rnd 18 s.2)

/-- Taps of a half-band stage, 1 to 6 (Table 04-4). -/
def hbTaps (mn : Bool) (s : Nat) : Nat := (if mn then [7, 9, 11, 13, 15, 17] else [15, 19, 23, 31, 39, 47]).getD (s - 1) 0

/-- A half-band stage takes a sample, and gives one on every second (R116). -/
def FirSt.step (mn : Bool) (s : Nat) (f : FirSt) (x : Smp) : FirSt × Option (Smp × Nat) :=
  let n := hbTaps mn s
  let line := pushN n x f.line
  if f.half then
    let y := firSum (fun i => (Config.halfBand mn s i).toInt) n line
    ({ line := line, half := false }, some (satSmp (rnd 16 y.1, rnd 16 y.2)))
  else ({ line := line, half := true }, none)

/-- The cascade: stage `s` and those after it take a sample; their state, what leaves the last one, what leaves stage 3, and the components saturated. -/
def hbRun (mn : Bool) : Nat → List FirSt → Smp → List FirSt × Option Smp × Option Smp × Nat
  | _, [], x => ([], some x, none, 0)
  | s, f :: fs, x => match f.step mn s x with
    | (f', none) => (f' :: fs, none, none, 0)
    | (f', some (y, n)) =>
      let (r, out, third, m) := hbRun mn (s + 1) fs y
      (f' :: r, out, if s = 3 then some y else third, n + m)

/-- The channel FIR of one bank (R119): acc, rounded, saturated, with the components saturated. -/
def Chip.bankOut (c : Chip) (b : Nat) (line : List Smp) : Smp × Nat :=
  let y := firSum (fun i => toSigned 18 (c.pal (b * 128 + i)).toNat) (c.bankT b) line
  satSmp (rnd 16 y.1, rnd 16 y.2)

/-- Output sample `i` of a fade (R125): from the old bank's output to the new one's, saturated. -/
def fadeOut (f i : Nat) (yo yn : Smp) : Smp :=
  let mix := fun (a b : Int) => rnd f (a * ((2 ^ f : Nat) - (i : Int)) + b * (i : Int))
  (satSmp (mix yo.1 yn.1, mix yo.2 yn.2)).1

/-! Combining (R58 to R60). -/

/-- The weight pair in force at studio time `t`, on its linear way from the pair before it over 64 lane-front samples of 8 counts (R59). -/
def weightsAt (l : List (Nat × Weights)) (t : Nat) : Option Weights := match l.dropWhile fun e => decide (t < e.1) with
  | [] => none
  | [(_, w)] => some w
  | (t0, w) :: (_, v) :: _ =>
    let i : Int := min 64 ((t - t0) / 8)
    let mix := fun (a b : Int) => a + (b - a) * i / 64
    some { a := mix v.a w.a, b := (mix v.b.1 w.b.1, mix v.b.2 w.b.2) }

/-- The combined lane-front output, rounded half up and saturated to 16 bits. -/
def combineOut (w : Weights) (a b : Smp) : Smp × Nat :=
  satSmp (rnd 15 (w.a * a.1 + w.b.1 * b.1 - w.b.2 * b.2), rnd 15 (w.a * a.2 + w.b.1 * b.2 + w.b.2 * b.1))

/-- The weight pair that an estimate asks for: each branch by its share of amplitude, branch B rotated onto branch A; `okA` and `okB` are the
branches that may contribute (R58, R61). -/
def mrcWeights (pa pb : Nat) (rotRe rotIm : Int) (okA okB : Bool) : Weights :=
  let n := rootNear (rotRe.natAbs * rotRe.natAbs + rotIm.natAbs * rotIm.natAbs)
  let g := fun (p : Nat) => (rootNear (p * 2 ^ 30 / max 1 (pa + pb)) : Int)
  let none_ := pa + pb == 0
  let ga := if okB && !none_ then g pa else 32768
  let gb := if none_ && okA then 0 else if okA then g pb else 32768
  { a := if okA then ga else 0
    b := if okB then (if n = 0 then gb else gb * rotRe / n, if n = 0 then 0 else gb * rotIm / n) else (0, 0) }

/-! Detectors (R131). -/

/-- A detector set takes a magnitude; `cfg` is its half of LANE_DET_CFG. -/
def DetSt.step (cfg : Nat) (d : DetSt) (m : Nat) : DetSt :=
  let x : Int := m
  let sh := fun (v : Int) (k : Nat) => v / (2 ^ bits cfg (4 * k) 4 : Nat)
  { s := d.s + sh (x * x * 65536 - d.s) 0
    p := max x (d.p - sh d.p 1)
    e := if d.e < x then d.e + sh (x - d.e) 2 else d.e + sh (x - d.e) 3
    seen := d.seen || m != 0 }

/-- The latched values of a set (R132): RMS, peak and envelope in 0.01 dB as 16-bit fields; 0x8000 without a sample other than zero. -/
def DetSt.latch (d : DetSt) : Nat × Nat × Nat :=
  let lev := fun (v : Int) => if v ≤ 0 then 0x8000 else satSigned 16 (dbAmp v.toNat 32767)
  if d.seen then (if d.s ≤ 0 then 0x8000 else satSigned 16 (dbPower d.s.toNat (65536 * 32767 * 32767)), lev d.p, lev d.e) else (0x8000, 0x8000, 0x8000)

/-! Demodulators. -/

/-- The multiplex sample (R136): round(arg(y conj(y')) / π × 32,768), saturated to +32,767. -/
def discriminate (y y' : Smp) : Int :=
  let z : Smp := (y.1 * y'.1 + y.2 * y'.2, y.2 * y'.1 - y.1 * y'.2)
  min 32767 (rnd 32 (argTurn z))

/-- A second-order loop takes a phase error in 2^-32 of the turn: its frequency stays within `pull` of `centre`, all in words of 2^-32 turn per sample. -/
def PllSt.step (gains : BitVec 18 × BitVec 18) (centre pull : Int) (l : PllSt) (err : Int) : PllSt :=
  let f := clampInt (centre - pull) (centre + pull) (l.freq + rnd 16 (err * gains.2.toInt))
  { phase := (l.phase + f + rnd 16 (err * gains.1.toInt)) % (2 ^ 32 : Nat), freq := f }

/-- Words per sample at 256 kS/s of 19 kHz, 57 kHz and 20 Hz, and at 64 kS/s of 200 Hz. -/
def word19k : Int := 318767104
def word57k : Int := 956301312
def word20 : Int := 335544
def word200 : Int := 13421773

/-- An RDS arm takes a sample at 57 kHz baseband, `rel` into its bit of 48 cycles: at the end of the bit, the bit that began at its start. A bit is 1 where
the biphase symbol has turned against the one before; the first two after a break give none. -/
def RdsArm.take (a : RdsArm) (t rel adv : Nat) (z : Smp) : RdsArm × Option (Nat × Bool) :=
  let sum := if rel < 24 * 2 ^ 32 then (a.sum.1 + z.1, a.sum.2 + z.2) else (a.sum.1 - z.1, a.sum.2 - z.2)
  if rel + adv < 48 * 2 ^ 32 then ({ a with sum := sum }, none)
  else ({ sum := (0, 0), prev := if a.start = 0 then (0, 0) else sum, power := a.power - a.power / 16 + Smp.power sum / 16, start := t },
    if a.start = 0 ∨ a.prev = (0, 0) then none else some (a.start, decide (sum.1 * a.prev.1 + sum.2 * a.prev.2 < 0)))

/-- The multiplex sample `m` of time `t` enters the RDS bit recovery, with the reference's phase and its advance (R138, R230): of sixteen boundaries three
cycles apart, the one with the strongest symbols gives the bits (DESIGN CHOICE, log entry 61). -/
def RdsDsp.step (r : RdsDsp) (t : Nat) (m : Int) (ph adv : Nat) : RdsDsp :=
  let s := nco ph
  let z : Smp := (rnd 15 (m * s.1), rnd 15 (m * s.2))
  let all := 48 * 2 ^ 32
  let arms := ((List.range 16).zip r.arms).map fun x => x.2.take t ((r.place + all - 3 * x.1 * 2 ^ 32) % all) adv z
  let best := r.arms.foldl (fun b a => max b a.power) 0
  let bit := ((r.arms.zip arms).find? fun x => x.1.power == best).bind fun x => x.2.2
  { place := (r.place + adv) % all, seen := t, arms := arms.map (·.1), bits := r.bits ++ bit.toList }

/-- The multiplex goes on at time `t` after a sleep (R380): the bit clock runs on with the 57 kHz reference of frequency `freq`, `n` samples of 256 kS/s later. -/
def RdsDsp.hold (r : RdsDsp) (t n : Nat) (freq : Int) : RdsDsp :=
  { r with place := (((r.place : Int) + freq * n) % (48 * 2 ^ 32 : Nat)).toNat, seen := t, arms := r.arms.map fun a => { a with sum := (0, 0), prev := (0, 0), start := 0 } }

/-- A loop runs on for `n` samples at its frequency estimate (R380). -/
def PllSt.hold (l : PllSt) (n : Nat) : PllSt := { l with phase := (l.phase + l.freq * n) % (2 ^ 32 : Nat) }

/-- The lane's first sample after a restart, at time `t`: pilot phase, 57 kHz phase and bit clock that were held across a sleep are predicted (R380). -/
def LaneDsp.held (d : LaneDsp) (t : Nat) : LaneDsp :=
  if d.rdsBits.seen = 0 then d
  else
    let n := (t - d.rdsBits.seen) / 128
    { d with pilot := d.pilot.hold n, rds := d.rds.hold n, rdsBits := d.rdsBits.hold t n d.rds.freq }

/-- The carrier mean takes a magnitude (R153); 16 fraction bits. -/
def carrierStep (c : Int) (m : Nat) : Int := c + ((m : Int) * 65536 - c) / 16384

/-- d × 32,767 / c, saturated to 16 bits; 0 when c is zero (R153). `d` and `c` have 16 fraction bits. -/
def amOut (d c : Int) : Int := if c ≤ 0 then 0 else (satW 16 ((2 * d * 32767 + c) / (2 * c))).1

/-- A first-order section: b0 x + b1 x' + a1 y', Q16; the state is the last input and output. -/
def section1 (k : Int × Int × Int) (s : Int × Int) (x : Int) : (Int × Int) × Int :=
  let y := rnd 16 (k.1 * x + k.2.1 * s.1 + k.2.2 * s.2)
  ((x, y), y)

/-! The correlation signal (R278). -/

/-- A multiplex sample of time `t`, with the multiplex delay line, enters: the mono sum below 3.4 kHz, one sample in 32. -/
def CorrSt.step (q : CorrSt) (t : Nat) (line : List Int) : CorrSt :=
  if q.count + 1 < 32 then { q with count := q.count + 1 }
  else
    let v := rnd 16 (firReal (fun i => (Config.corrTap i).toInt) 127 line)
    let (a, x) := section1 (Config.corrDeemphasis 1) q.de50 v
    let (b, y) := section1 (Config.corrDeemphasis 2) q.de75 v
    { count := 0, de50 := a, de75 := b, out := (t, v, x, y) :: q.out }

/-! Restarts. -/

/-- A lane's filters and detectors are cleared at studio time `now`; its phase and its weight pair stay (R111, R112), and `bank` is the bank in use. -/
def LaneDsp.restart (d : LaneDsp) (now bank : Nat) : LaneDsp :=
  { LaneDsp.reset with phase := d.phase, since := now, bank := bank, weights := d.weights.take 1 }

/-- A window's filters are cleared at studio time `now`, and its first 32 outputs are discarded (R80). -/
def WinDsp.restart (d : WinDsp) (now : Nat) : WinDsp :=
  { d with cic := CicSt.clear 5, droop := [], drop := 32, since := now, block := [], loud := false }

/-- A slot's lane gives no more samples: the last output ramps out over 32 audio samples (R152). -/
def SlotDsp.rampDown (d : SlotDsp) : SlotDsp :=
  { SlotDsp.reset with last := d.last, rampOut := if d.rampOut = 0 then 32 else d.rampOut, muteOld := d.muteOld, muteN := d.muteN }

end Sys2Proof.Machine
end

