-- ==== Sys2Proof/Machine/Trellis.lean ====
section
/-! DEFINITION. The Trellis engine (R193 to R196): its queue of blocks, the Viterbi decoder, and re-encoding. Clients present soft values, four to a trellis step, and take the decoded bits. -/

namespace Sys2Proof.Machine

/-! The code: constraint length 7, the generators 133, 171, 145 and 133 octal, the current bit in front. -/

def generators : List Nat := [0o133, 0o171, 0o145, 0o133]

/-- Parity of a number below 2^7. -/
def parity7 (x : Nat) : Bool := (List.range 7).foldl (fun b i => b != x.testBit i) false

/-- The four output bits of a step: input bit `b` in state `s` (the six bits before it, the newest in bit 5). -/
def trlOut (b : Bool) (s : Nat) : List Bool := generators.map fun g => parity7 (g &&& ((if b then 64 else 0) + s))

/-- The state after a step. -/
def trlNext (b : Bool) (s : Nat) : Nat := (if b then 32 else 0) + s / 2

/-- The code word of a sequence of bits from state `s`, four bits to a step. -/
def trlEncode (s : Nat) : List Bool → List (List Bool)
  | [] => []
  | b :: r => trlOut b s :: trlEncode (trlNext b s) r

/-! The decoder. -/

/-- A survivor: its metric, larger for the more likely path, and its last bits, newest first. -/
structure Survivor where
  metric : Int
  path : List Bool
deriving DecidableEq, Repr

/-- The metric of a step's four soft values against the bits of a branch: positive soft values speak for 0, and 0 for neither (R193). -/
def branchMetric (soft : List Int) (out : List Bool) : Int := (soft.zip out).foldl (fun a e => a + if e.2 then -e.1 else e.1) 0

/-- Neighbours of a list, two by two. -/
def twos {α : Type} : List α → List (α × α)
  | a :: b :: r => (a, b) :: twos r
  | _ => []

/-- The two survivors into a state: the better one continues; of two equal ones that from the lower state (DESIGN CHOICE, log entry 61). -/
def Survivor.join (soft : List Int) (b : Bool) (s : Nat) (x : Survivor × Survivor) : Survivor :=
  let m0 := x.1.metric + branchMetric soft (trlOut b (2 * s))
  let m1 := x.2.metric + branchMetric soft (trlOut b (2 * s + 1))
  if m1 ≤ m0 then { metric := m0, path := b :: x.1.path } else { metric := m1, path := b :: x.2.path }

/-- One trellis step: the 64 states, each from its two predecessors. -/
def trlStep (soft : List Int) (l : List Survivor) : List Survivor :=
  let p := (List.range 32).zip (twos l)
  (p.map fun e => Survivor.join soft false e.1 e.2) ++ p.map fun e => Survivor.join soft true e.1 e.2

/-- The best survivor. -/
def bestOf (l : List Survivor) : Option Survivor := l.foldl (fun b x => match b with | some y => if y.metric < x.metric then some x else some y | none => some x) none

/-- The traceback depth of R193. -/
def traceback : Nat := 96

/-- The decoder takes the steps of a block: a bit is decided once `traceback` steps have followed it, from the best state of that moment. -/
def trlRun : List (List Int) → List Survivor → List Bool → List Bool × List Survivor
  | [], l, out => (out, l)
  | x :: r, l, out =>
    let l := trlStep x l
    match bestOf l with
    | some s => if traceback < s.path.length then trlRun r (l.map fun q => { q with path := q.path.take traceback }) (s.path.getD traceback false :: out) else trlRun r l out
    | none => (out, l)

/-- The decoded bits of a block that starts and ends in state 0, with its 6-bit tail removed. -/
def viterbi (soft : List (List Int)) : List Bool :=
  let start := (List.range 64).map fun s => ({ metric := if s = 0 then 0 else -(2 ^ 40 : Nat), path := [] } : Survivor)
  let (out, l) := trlRun soft start []
  let last := match l.head? with | some s => s.path | none => []
  (last.drop 6 ++ out).reverse

/-- Bits that the decoder corrected: hard decisions of the soft values, punctured ones apart, that differ from the decoded bits coded again. -/
def trlCorrected (soft : List (List Int)) (bits : List Bool) : Nat :=
  let word := trlEncode 0 (bits ++ List.replicate 6 false)
  sumList ((soft.zip word).map fun e => ((e.1.zip e.2).filter fun q => q.1 != 0 && decide (q.1 < 0) != q.2).length)

/-- Soft values in groups of four, one group to a step; `n` bounds their number. -/
def groupsOf {α : Type} (k : Nat) : Nat → List α → List (List α)
  | 0, _ => []
  | n + 1, l => if l.isEmpty then [] else l.take k :: groupsOf k n (l.drop k)

/-- Insert an erasure at each punctured position: `keep` is the puncturing pattern of the mother code's bits in order, `l` the values received. -/
def depuncture : List Bool → List Int → List Int
  | [], _ => []
  | true :: r, x :: l => x :: depuncture r l
  | true :: r, [] => 0 :: depuncture r []
  | false :: r, l => 0 :: depuncture r l

/-! The queue (R194, R195). -/

/-- Steps of a block. -/
def TrlBlock.steps (b : TrlBlock) : Nat := if b.soft.isEmpty then b.size else b.soft.length

/-- Steps that the engine completes in a tick (R194). -/
def trlTick : Nat := 62500

/-- A client presents a block, with its deadline in ticks; one of more steps than its job declares is not decoded (R195). -/
def Chip.trlPut (c : Chip) (client : TrlClient) (deadline declared size : Nat) (soft : List (List Int)) : Chip :=
  let b : TrlBlock := { client := client, deadline := deadline, order := c.trlOrder, size := size, soft := soft }
  if declared < b.steps then c else { c with trl := c.trl ++ [b], trlOrder := c.trlOrder + 1 }

/-- The block that is decoded next: the earliest deadline, and of equal ones the first to arrive (R194). -/
def nextBlock (l : List TrlBlock) : Option TrlBlock :=
  l.foldl (fun b x => match b with | some y => if x.deadline < y.deadline then some x else some y | none => some x) none

/-- The engine completes the next block, where the tick has the steps for it: those that it took in the tick before are done (R194, DESIGN CHOICE,
log entry 61). The block leaves the queue and TRL_BLOCK_CNT counts it. -/
def Chip.trlTake (c : Chip) : Option (TrlBlock × Chip) := match nextBlock c.trl with
  | none => none
  | some b =>
    let n := b.steps - c.trlPart
    if trlTick < c.trlUsed + n then none
    else some (b, ({ c with trl := c.trl.filter (fun x => x.order != b.order), trlUsed := c.trlUsed + n, trlPart := 0 }.count 0x7A2))

/-- The blocks of the clients that satisfy `p` are dropped: their data in flight is discarded (R35). -/
def Chip.trlDrop (c : Chip) (p : TrlClient → Bool) : Chip := { c with trl := c.trl.filter fun b => !p b.client }

/-- A boundary: what is left of the tick's steps went into the block that is next; the most steps of a tick (R196). -/
def Chip.trlBoundary (c : Chip) : Chip :=
  let part := match nextBlock c.trl with | some b => min b.steps (c.trlPart + (trlTick - c.trlUsed)) | none => 0
  let used := c.trlUsed + (part - c.trlPart)
  let c := if c.reg 0x7A1 < used then c.put 0x7A1 used else c
  { c with trlUsed := 0, trlPart := part }

/-! Bits and bytes. -/

/-- The number that bits spell, first bit first. -/
def bitsNat (l : List Bool) : Nat := l.foldl (fun a b => 2 * a + (if b then 1 else 0)) 0

/-- The bits of a byte, most significant first. -/
def byteBits (b : Byte) : List Bool := (List.range 8).map fun i => b.toNat.testBit (7 - i)

def bytesBits (l : List Byte) : List Bool := (l.map byteBits).flatten

/-- Bits as bytes, most significant first, the last one filled with zeros. -/
def bitsBytes (l : List Bool) : List Byte := (groupsOf 8 (l.length / 8 + 1) l).map fun g => b8 (bitsNat g * 2 ^ (8 - g.length))

/-- The CRC of a string of bits: a register of `w` bits from `init`, polynomial `poly` without its highest term. -/
def crcOf (w poly init : Nat) (l : List Bool) : Nat :=
  l.foldl (fun r b => let t := r.testBit (w - 1) != b; (2 * r) % 2 ^ w ^^^ (if t then poly else 0)) init

/-- The pseudo-random sequence of the energy dispersal: x^9 + x^5 + 1 from all ones (PRESUMED, log entry 61). -/
def prbs : Nat → Nat → List Bool
  | 0, _ => []
  | n + 1, r => let b := r.testBit 8 != r.testBit 4; b :: prbs n ((2 * r) % 512 + (if b then 1 else 0))

/-- The energy dispersal removed. -/
def descramble (l : List Bool) : List Bool := (l.zip (prbs l.length 511)).map fun e => e.1 != e.2

end Sys2Proof.Machine
end

