-- ==== Sys2Proof/Machine/Lanes.lean ====
section
/-! DEFINITION. Lanes: start, restart, suspension, stop, retune, bank requests and fades (R108 to R130), with what a restart does to the demodulators, slots and alarm sources on the lane (R35, R152, R174, R225, R230, R258), and carrier, pilot and loop lock (R138, R142, R154). -/

namespace Sys2Proof.Machine

def Chip.ens (c : Chip) (e : Nat) : EnsSt := Tbl.get EnsSt.reset c.enss e
def Chip.modEns (c : Chip) (e : Nat) (f : EnsSt → EnsSt) : Chip := { c with enss := Tbl.mod EnsSt.reset c.enss e f }
def Chip.drm (c : Chip) (n : Nat) : DrmSt := Tbl.get DrmSt.reset c.drms n
def Chip.modDrm (c : Chip) (n : Nat) (f : DrmSt → DrmSt) : Chip := { c with drms := Tbl.mod DrmSt.reset c.drms n f }
def Chip.slot (c : Chip) (fm : Bool) (k : Nat) : SlotSt := Tbl.get SlotSt.reset (if fm then c.fms else c.ams) k
def Chip.modSlot (c : Chip) (fm : Bool) (k : Nat) (f : SlotSt → SlotSt) : Chip :=
  if fm then { c with fms := Tbl.mod SlotSt.reset c.fms k f } else { c with ams := Tbl.mod SlotSt.reset c.ams k f }

/-- Slots attached to lane `k`. -/
def Chip.slotsOn (c : Chip) (fm : Bool) (k : Nat) : List Nat :=
  (List.range (if fm then 16 else 8)).filter fun i => (c.slot fm i).lane == some k

/-- LANE_STATUS (R133); that of the second front of a pair reads 4 (R113). -/
def Chip.laneStatus (c : Chip) (k : Nat) : Nat :=
  let l := c.lane k
  let st := if l.job.isNone then 0 else if l.suspended then 3 else if l.started && l.filled then 2 else 1
  if c.laneSecond k then 4
  else st + (if l.actB then 8 else 0) + (if l.fading then 16 else 0) + (match l.pend with | some b => 32 + 64 * b | none => 0)

/-- Slots on a lane that stops giving samples ramp out and wait for its first new output (R152). -/
def Chip.slotsRampOut (c : Chip) (k : Nat) : Chip :=
  let out : SlotSt → SlotSt := fun s => { s with ramped := false, dsp := s.dsp.rampDown }
  let c := c.each (c.slotsOn true k) fun c i => (c.modSlot true i out).put (fmsA i 0x0A) (setBits (c.reg (fmsA i 0x0A)) 0 9 0)
  c.each (c.slotsOn false k) fun c i => c.modSlot false i out

/-- The source objects on lane `k` are lost at this instant: their alarm instances hold (R258). -/
def Chip.alarmSourceLost (c : Chip) (k : Nat) : Chip :=
  { c with alarms := c.alarms.map fun e =>
      if hLane e.2.source = k ∧ hLevel e.2.source = 3 ∧ e.2.lostAt = none then (e.1, { e.2 with lostAt := some c.time.now }) else e }

/-- A decoder that restarts: its deinterleaver is cleared, and what it holds is discarded (R186). -/
def MscSt.void (m : MscSt) : MscSt := { m with decoding := false, fill := 0, out := [], sf := [], first := true, sync := false, fails := 0 }

/-- The MSC decoders on lane `k` restart: their deinterleavers are cleared (R172, R174, R210, R225). -/
def Chip.mscVoid (c : Chip) (k : Nat) : Chip :=
  let off := fun (e : Nat × MscSt) => if hLane (dHandle (c.jobDesc e.1)) = k then (e.1, e.2.void) else e
  let mine := fun (x : TrlClient) => match x with | .msc j _ _ _ => hLane (dHandle (c.jobDesc j)) == k | _ => false
  { c with mscs := c.mscs.map off }.trlDrop mine

/-- What ensemble `e` has in flight is discarded, and it begins anew (R35, R166). -/
def Chip.ensVoid (c : Chip) (e : Nat) : Chip :=
  (c.trlDrop fun x => match x with | .fic i _ _ => i == e | _ => false).modEns e fun x =>
    { x with phaseFails := 0, noGood := 0, held := 0, good := false, dsp := EnsDsp.reset, fic := [], cif := none, versions := [], candidates := [] }

/-- What channel `n` has in flight is discarded, and it begins anew (R35, R205, R210). -/
def Chip.chVoid (c : Chip) (n : Nat) : Chip :=
  (c.trlDrop fun x => match x with | .drm i _ _ => i == n | _ => false).modDrm n fun x =>
    { x with held := 0, good := false, versions := [], candidates := [], announced := false, recDue := false, sdcOk := false, armed := false, index := none, dsp := DrmDsp.reset, blocks := [], facs := [],
             sdcs := [], mscs := [] }

/-- The absolute frequency of lane `k` has changed: its demodulator's offset estimate is cleared (R81, R174, R225). -/
def Chip.dropOffset (c : Chip) (k : Nat) : Chip :=
  let c := match c.ensOf k with | some e => c.put (dabA e 3) 0 | none => c
  match c.drmOf k with | some n => c.put (drmA n 4) 0 | none => c

/-- The ensemble or channel on a lane restarts with data of a new generation: state 1, deinterleavers cleared; the carrier offset is kept only where the absolute frequency is (R174, R225). -/
def Chip.demodVoid (c : Chip) (k : Nat) (sameFreq : Bool) : Chip :=
  let c := c.mscVoid k
  let c := if sameFreq then c else c.dropOffset k
  let c := match c.ensOf k with
    | none => c
    | some e =>
      let c := if c.reg (dabA e 1) = 0 then c else c.put (dabA e 1) 1
      c.ensVoid e
  match c.drmOf k with
  | none => c
  | some n =>
    let c := if c.reg (drmA n 1) = 0 then c else c.put (drmA n 1) 1
    (c.put (drmA n 0x0B) (c.reg (drmA n 0x0B) &&& 0xFFFFFEF0)).chVoid n

/-- The lanes that carry Gallery entry `e`, and the entries that lane `k` carries (R241, R246). -/
def Chip.heldBy (c : Chip) (e : Nat) : List Nat := (c.gal.holds.filter fun x => x.2.contains e).map (·.1)
def Chip.holdsOf (c : Chip) (k : Nat) : List Nat := Tbl.get [] c.gal.holds k

/-- Set or clear one bit of word 1 of Gallery entry `e` (Table 08-7). -/
def Chip.galBit (c : Chip) (e i : Nat) (b : Bool) : Chip := c.setGalW e 1 (setBits (c.galW e 1) i 1 (if b then 1 else 0))

/-- Lane `k` no longer carries its Gallery entries: held bits clear where no other lane does, PI conflicts where only one is left (R246). -/
def Chip.dropHolds (c : Chip) (k : Nat) : Chip :=
  let es := c.holdsOf k
  let c := { c with gal := { c.gal with holds := Tbl.set [] c.gal.holds k [] } }
  c.each es fun c e =>
    let c := if (c.heldBy e).isEmpty then c.galBit e 24 false else c
    if (c.heldBy e).length ≤ 1 then c.galBit e 29 false else c

/-- A running bank fade completes at once and its target becomes active (R129). -/
def Chip.completeFade (c : Chip) (k : Nat) : Chip :=
  let l := c.lane k
  if l.fading then c.modLane k fun l => { l with fading := false, actB := !l.actB } else c

/-- Load a bank into the inactive pointer. -/
def Chip.loadInactive (c : Chip) (k b : Nat) : Chip := c.putField (laneA k 3) (if (c.lane k).actB then 0 else 8) 6 b

/-- A pending bank request takes effect without a fade (R129). -/
def Chip.takePending (c : Chip) (k : Nat) : Chip :=
  match (c.lane k).pend with
  | none => c
  | some b => (c.loadInactive k b).modLane k fun l => { l with pend := none, actB := !l.actB }

/-- A follow change that waits for the lane's fade is cancelled by the restart and re-armed (Table 09-6). -/
def Chip.cancelPendLink (c : Chip) (k : Nat) : Chip :=
  match (c.lane k).pendLink with
  | none => c
  | some i => ((((c.modLane k fun l => { l with pendLink := none, linkFirst := false }).putBit (lnkA i 7) 4 false).count 0xC6B).modFollow i fun f => { f with rearmed := true })

/-- The datapath of lane `k` is cleared at this moment: filters and detectors, with the runs of ticks that rest on them (R111, R138, R152, R154). -/
def Chip.clearPath (c : Chip) (k : Nat) : Chip :=
  let bank := c.laneBank k
  let now := c.time.now
  c.modLane k fun l => { l with filled := false, meas := none, mnrs := [], pilot := false, pilotOn := 0, pilotOff := 0, pilotTicks := 0, amLock := false, amGood := 0, amBad := 0,
                                dsp := l.dsp.restart now bank }

/-- A lane restart (R111, R129): filters and detectors cleared, fades completed, the slots ramp out; with `gen` the demodulators
restart with data of a new generation, block sync and pilot lock fall, and the first record of each stream carries GENV (R35). -/
def Chip.laneRestart (c : Chip) (k : Nat) (gen sameFreq : Bool) : Chip :=
  if !c.laneHeld k then c
  else
    let c := c.completeFade k
    let c := c.takePending k
    let c := c.cancelPendLink k
    let c := (c.slotsRampOut k).clearPath k
    if gen then
      let c := c.modLane k fun l =>
        { l with voided := true, foundRun := 0, lostRun := 0,
                 rds := { RdsSt.reset with last := l.rds.last, pi := if sameFreq then l.rds.pi else none, piAt := l.rds.piAt, conf := if sameFreq then l.rds.conf else [] },
                 found := l.found && sameFreq }
      let c := c.demodVoid k sameFreq
      let c := c.alarmSourceLost k
      let c := if sameFreq then c else c.dropHolds k
      c.markStreams (fun key => keyLane key == some k) true false
    else c

/-- A generation step of a lane, with the restart it causes. -/
def Chip.laneGenStep (c : Chip) (k : Nat) (sameFreq : Bool) : Chip := (c.stepGenAt (laneA k 6)).laneRestart k true sameFreq

/-- The jobs on a lane and on its carrier: lane, MSC, stream, measurement and follow jobs. -/
def Chip.jobsOnLane (c : Chip) (k : Nat) : List Nat :=
  (c.jobs.filter fun e => (dKind e.2.desc ≤ 5 && hLevel (dHandle e.2.desc) ≤ 3 && hLane (dHandle e.2.desc) == k) || (e.2.lanes.contains k)).map (·.1)

/-- Suspend running jobs (R351): state 3, every reservation kept, nothing emitted. -/
def Chip.suspendJobs (c : Chip) (js : List Nat) : Chip :=
  c.each js fun c j => c.modJob j fun x => if x.state = 2 ∨ x.state = 1 then { x with state := 3, reason := rStopped } else x

/-- Resume suspended jobs (R351); event 31 follows at the next tick boundary. -/
def Chip.resumeJobs (c : Chip) (js : List Nat) : Chip :=
  c.each js fun c j => match c.job? j with
    | some x => if x.state = 3 then
        { c with sched := { c.sched with resumed := c.sched.resumed + 1 } }.setJob j { x with state := if x.start ≤ c.tick then 2 else 1 }
      else c
    | none => c

/-- Suspend a lane with OBJECT_STOPPED (R129, R152, R174, R258, R351). -/
def Chip.suspendLane (c : Chip) (k : Nat) : Chip :=
  if !c.laneHeld k || (c.lane k).suspended then c
  else
    let c := c.completeFade k
    let c := c.takePending k
    let c := c.cancelPendLink k
    let c := c.slotsRampOut k
    let c := c.alarmSourceLost k
    let c := c.modLane k fun l => { l with suspended := true, filled := false, meas := none, mnrs := [] }
    c.suspendJobs (c.jobsOnLane k)

/-- Resume a suspended lane: it restarts with data of a new generation (R174, R225, R351, R363). -/
def Chip.resumeLane (c : Chip) (k : Nat) (disc : Bool) : Chip :=
  if !(c.lane k).suspended then c
  else
    let c := c.modLane k fun l => { l with suspended := false }
    let c := c.laneRestart k true true
    let c := if disc then c.markStreams (fun key => keyLane key == some k) true true else c
    c.resumeJobs (c.jobsOnLane k)

/-- A lane stops: a running fade completes, pending requests are dropped uncounted, slots ramp out and wait, the demodulator
instance is freed (R129, R152). -/
def Chip.stopLane (c : Chip) (k : Nat) : Chip :=
  let c := c.completeFade k
  let c := c.slotsRampOut k
  let c := c.each (c.slotsOn true k) fun c i => c.modSlot true i fun s => { s with lane := none }
  let c := c.each (c.slotsOn false k) fun c i => c.modSlot false i fun s => { s with lane := none }
  let c := (c.alarmSourceLost k).dropHolds k
  let c := match c.ensOf k with
    | none => c
    | some e => ((((c.put (dabA e 0) 0xFF).put (dabA e 1) 0).stepGenAt (dabA e 2)).ensVoid e).modEns e fun _ => EnsSt.reset
  let c := match c.drmOf k with
    | none => c
    | some n => ((((c.put (drmA n 0) 0xFF).put (drmA n 1) 0).stepGenAt (drmA n 2)).chVoid n).modDrm n fun _ => DrmSt.reset
  let actB := (c.lane k).actB
  c.modLane k fun _ => { LaneSt.reset with actB := actB }

/-- A lane starts (R108): phase cleared, filter, fade and detector state cleared, generation stepped; a DAB or DRM lane takes the
lowest free demodulator instance. -/
def Chip.startLane (c : Chip) (k j o : Nat) : Chip :=
  let c := c.stepGenAt (laneA k 6)
  let actB := (c.lane k).actB
  let c := c.modLane k fun _ => { LaneSt.reset with job := some j, option := o, started := true, actB := actB, phaseAt := c.tick,
                                                    single := c.laneCombines k && !c.winRuns (c.laneWin2 k),
                                                    dsp := { LaneDsp.reset with since := c.time.now, bank := c.laneBank k } }
  let c := if o = 0x10 ∧ (c.ensOf k).isNone then
      match (List.range 8).find? (fun e => c.reg (dabA e 0) == 0xFF) with
      | some e => ((c.put (dabA e 0) k).put (dabA e 1) 1).modEns e fun _ => EnsSt.reset
      | none => c
    else c
  if optDrm o ∧ (c.drmOf k).isNone then
    match (List.range 16).find? (fun n => c.reg (drmA n 0) == 0xFF) with
    | some n => (((c.put (drmA n 0) k).put (drmA n 1) 1).put (drmA n 3) 0x3F).modDrm n fun _ => DrmSt.reset
    | none => c
  else c

/-! Bank requests (R123 to R128). -/

/-- A bank request is refused with BAD_PARAMETER (R113, R123). -/
def Chip.bankBad (c : Chip) (k b : Nat) : Bool :=
  63 < b || !c.bankOk b || c.bankG b != c.bankG (c.laneBank k) || c.laneSecond k

/-- The lane's fade unit is busy: a bank fade or a linking cross-fade runs (R128). -/
def Chip.fadeBusy (c : Chip) (k : Nat) : Bool := (c.lane k).fading || (c.lane k).linkFade

/-- A bank fade begins: it starts at the first output sample from now on (R125). -/
def Chip.fadeBegin (c : Chip) (k b : Nat) : Chip :=
  let f : FadeSt := { from_ := c.time.now, new := b, n := 0 }
  (c.loadInactive k b).modLane k fun l => { l with fading := true, fadeAt := c.time.now, dsp := { l.dsp with fades := l.dsp.fades ++ [f] } }

/-- An accepted bank request (R124 to R126). A lane that is admitted and has not started is treated as a stopped one: the pointer changes at once
(DESIGN CHOICE, log entry 62). -/
def Chip.bankRequest (c : Chip) (k b : Nat) : Chip :=
  let l := c.lane k
  if !c.laneRuns k then (c.loadInactive k b).modLane k fun l => { l with actB := !l.actB }
  else if c.fadeBusy k then
    let c := if l.pend.isSome then c.count (laneA k 9) else c
    c.modLane k fun l => { l with pend := some b, pendAt := c.time.now, linkFirst := l.pendLink.isSome }
  else if b = c.laneBank k then c.loadInactive k b
  else c.fadeBegin k b

/-- A pending bank request starts at the end of a fade; one whose bank has just become active is dropped (R127). -/
def Chip.startPendingBank (c : Chip) (k : Nat) : Chip :=
  match (c.lane k).pend with
  | none => c
  | some b =>
    let c := c.modLane k fun l => { l with pend := none }
    if b = c.laneBank k then c else c.fadeBegin k b

/-! Retuning (R110). -/

/-- A retune word comes into force at the boundary: the phase is cleared and the generation steps; a running lane restarts. -/
def Chip.retuneLane (c : Chip) (k v : Nat) : Chip :=
  let same := c.reg (laneA k 1) == v
  let c := c.put (laneA k 1) v
  if c.laneHeld k && (c.lane k).started then
    let c := c.modLane k fun l => { l with phaseAt := c.tick, dsp := { l.dsp with phase := 0 } }
    if (c.lane k).suspended then (if same then c else c.dropOffset k).stepGenAt (laneA k 6) else c.laneGenStep k same
  else c

end Sys2Proof.Machine
end

