-- ==== Sys2Proof/Machine/Measure.lean ====
section
/-! DEFINITION. How measurements reach the measurement jobs: each by its time at the aerial connector into the interval that covers it (R301). -/

namespace Sys2Proof.Machine

/-- The connector time of a measurement. -/
def SwtPoint.time : SwtPoint → Nat
  | .lane t _ _ _ | .front t _ _ _ | .mpx t _ | .fm t _ _ _ | .rds t _ | .am t _ _ _ | .amTick t _ _ | .det t _ _ _ | .ens t _ _ _ _ _ _ _ | .cir t _ _ | .tii t _
  | .drm t _ _ _ _ | .block t _ _ | .fe t _ _ _ _ | .feOvl t | .feStep t | .link t _ _ => t

/-- The Swatch kinds that a measurement serves (R309 to R317); the level of a carrier also serves the coverage log of FM, DAB and DRM. -/
def SwtPoint.kinds : SwtPoint → List Nat
  | .lane .. | .front .. => [0x40, 0x41, 0x43, 0x46]
  | .mpx .. | .fm .. | .rds .. => [0x41]
  | .am .. | .amTick .. => [0x40, 0x42]
  | .det .. => [0x47]
  | .ens .. => [0x40, 0x43]
  | .drm .. => [0x40, 0x46]
  | .cir .. => [0x44]
  | .tii .. => [0x45]
  | .block _ kind _ => if kind = 0 then [0x43] else [0x46]
  | .fe .. | .feOvl .. | .feStep .. => [0x48]
  | .link .. => [0x49]

/-- A frame's figures replace those taken earlier in the frame (R316). -/
def SwtPoint.renews (p q : SwtPoint) : Bool := match p, q with
  | .ens t .., .ens u .. => t == u
  | _, _ => false

/-- Add a measurement to an interval's. -/
def addPoint (p : SwtPoint) (l : List SwtPoint) : List SwtPoint := match p with
  | .ens .. => p :: l.filter fun q => !p.renews q
  | _ => p :: l

/-- A measurement enters the interval that covers its time: the running one, or one that has ended and whose Swatch is still due. -/
def SwtSt.place (x : SwtSt) (p : SwtPoint) : SwtSt :=
  let t := p.time
  if x.running && decide (x.start ≤ t) then { x with data := addPoint p x.data }
  else { x with ended := x.ended.map fun e => if e.start ≤ t ∧ t < e.stop then { e with data := addPoint p e.data } else e }

/-- Offer a measurement to the measurement jobs of its kinds on the object with handle `h`. -/
def Chip.swtTake (c : Chip) (h : Nat) (p : SwtPoint) : Chip :=
  if c.swts = [] then c
  else
    let mine := fun (j : Nat) => match c.job? j with
      | some y => dKind y.desc == 5 && p.kinds.contains (mType y.desc) && (if hLevel (dHandle y.desc) = 3 then hLevel h == 3 && hLane (dHandle y.desc) == hLane h else dHandle y.desc == h)
      | none => false
    { c with swts := c.swts.map fun e => if mine e.1 then (e.1, e.2.place p) else e }

/-- Offer a measurement of lane `k`. -/
def Chip.swtLane (c : Chip) (k : Nat) (p : SwtPoint) : Chip := c.swtTake (c.handleLane k) p

end Sys2Proof.Machine
end

