-- ==== Sys2Proof/Machine/FrontEnd.lean ====
section
/-! DEFINITION. Front ends and converters: gain control, overload, combining, sub-converter rotation, test injection (R41 to R71), and the windows' capture trigger that an overload fires (R96). -/

namespace Sys2Proof.Machine

/-- The outcome of a parameter write: its reason code and the chip after it. -/
abbrev WRes := Nat × Chip

/-- A refused write changes nothing. -/
def Chip.no (c : Chip) (reason : Nat) : WRes := (reason, c)
def Chip.yes (c : Chip) : WRes := (rOk, c)

/-- The level-5 handle of front end `fe` and of converter `a` (Table 01-4). -/
def handleFe (fe : Nat) : Nat := handleBlock (1 + fe)
def handleAdc (a : Nat) : Nat := handleBlock (3 + a)

/-! Gain. -/

def calFeA (fe off : Nat) : Nat := 0xA10 + 0x10 * fe + off

/-- A(a) (R394), 0.001 dB. -/
def Chip.attnValue (c : Chip) (fe a : Nat) : Nat := sumList ((List.range 5).map fun i => if a.testBit i then c.reg (calFeA fe (1 + i)) else 0)

/-- Note the calibrated attenuation in force for the compensation of the samples (R45). -/
def Chip.noteGain (c : Chip) (fe : Nat) : Chip :=
  let v := c.attnValue fe (c.reg (feA fe 3))
  let t := c.time.now
  c.modFe fe fun f => if (f.gains.head?.map (·.2)) = some v then f else { f with gains := (t, v) :: f.gains }

/-- Move the attenuation in force (R46): event 18, FE_STEP_CNT, the release count restarts (R44), and the samples are compensated from now on (R45). -/
def Chip.setAttn (c : Chip) (fe v : Nat) : Chip :=
  if c.reg (feA fe 3) = v then c
  else
    let c := (c.modFe fe fun f => if f.gains.isEmpty then { f with gains := [(0, c.attnValue fe (c.reg (feA fe 3)))] } else f).put (feA fe 3) v
    let c := c.raise 18 (handleFe fe) v
    (((c.count (feA fe 0x11)).modFe fe fun f => { f with below := 0 }).noteGain fe).swtTake (handleFe fe) (.feStep (c.time.now - 2))

/-- A gain-ladder comparison is running on the front end (R48, R54). -/
def Chip.ladderBusy (c : Chip) (fe : Nat) : Bool := (c.fe fe).ladSection.isSome && !(c.fe fe).ladAborted

/-- FE_AGC_TARGET and its hysteresis as levels in 0.01 dBFS. -/
def Chip.agcTarget (c : Chip) (fe : Nat) : Int := -(50 * (c.reg (feA fe 5) : Int))
def Chip.agcHyst (c : Chip) (fe : Nat) : Int := 50 * (c.reg (feA fe 6) : Int)

/-- The attenuation that the smallest increase from `a` reaches which brings `rms` (0.01 dBFS) to or below the target by the calibrated values, up to
30 dB (R43). -/
def Chip.attackTo (c : Chip) (fe a : Nat) (rms target : Int) : Nat :=
  let enough := fun (b : Nat) => decide (10 * (rms - target) ≤ (c.attnValue fe b : Int) - c.attnValue fe a)
  ((List.range 31).find? fun b => decide (a < b) && enough b).getD 30

/-- The tick's composite RMS at a boundary (R43, R44): FE_RMS and FE_PEAK latch, AUTO attacks or counts towards a release. -/
def Chip.agcTick (c : Chip) (m : FeMeas) : Chip :=
  let fe := m.fe
  let c := c.putInt (feA fe 0x18) 16 m.rms
  let c := c.putInt (feA fe 0x19) 16 m.peak
  let c := (c.countBy (feA fe 0x12) (m.clipped - (c.fe fe).counted)).modFe fe fun f => { f with counted := 0 }
  let c := c.swtTake (handleFe fe) (.fe (c.time.now - 3) m.rms m.peak m.clipped (c.reg (feA fe 0x0D)))
  if c.reg (feA fe 2) ≠ 0 then c
  else
    let t := c.agcTarget fe
    let h := c.agcHyst fe
    let a := c.reg (feA fe 3)
    let c := if t + h < m.rms then c.setAttn fe (max a (min (c.reg (feA fe 9)) (c.attackTo fe a m.rms t))) else c
    c.modFe fe fun f => { f with below := if m.rms < t - h then f.below + 1 else 0 }

/-- AGC_RELEASE_STEP (R44, R48, R51): after FE_AGC_RELEASE ticks below, outside FE_OVL_HOLD, the attenuation falls 1 dB, never
below FE_AGC_ATTN_MIN; the step waits for a running ladder comparison. -/
def Chip.agcRelease (c : Chip) (fe : Nat) : Chip :=
  let f := c.fe fe
  let held := match f.lastOvl with | some t => decide (c.tick < t + c.reg (feA fe 0x0C)) | none => false
  if c.reg (feA fe 2) = 0 ∧ c.reg (feA fe 7) ≤ f.below ∧ !held ∧ c.reg (feA fe 8) < c.reg (feA fe 3) then
    if c.ladderBusy fe then c.modFe fe fun f => { f with owedStep := true }
    else (c.setAttn fe (c.reg (feA fe 3) - 1)).modFe fe fun f => { f with owedStep := false }
  else c

/-! Capture triggers (R96), shared by every source. -/

/-- Samples of a window's CAP partition (16,384 per block); 0 without one. -/
def Chip.capSamples (c : Chip) (w : Nat) : Nat :=
  sumList (((List.range 16).filter fun p => dSize (c.desc p) != 0 && dUse (c.desc p) == 0 && dWin (c.desc p) == w).map fun p => dSize (c.desc p) * 16384)

/-- The window gives samples: it runs, has discarded its first 32 since the restart, and its domain is awake (R72, R80). -/
def Chip.winSamples (c : Chip) (w : Nat) : Bool := c.reg (winA w 2) == 2 && !c.blocksAsleep

/-- Samples written to the ring by studio time `t` since arm, or since the ring was emptied: those that the window has given (R97). -/
def Chip.capWritten (c : Chip) (w t : Nat) : Nat := if c.winSamples w then t - max (c.win w).capSince ((c.win w).dsp.since + 48) else 0

/-- The sources of `causes`, and that of the time trigger where `t` is its instant (Table 03-7). -/
def Chip.capCauses (c : Chip) (w causes t : Nat) : Nat :=
  setBits causes 3 1 (if t = c.reg (winA w 0x18) + 2 ^ 32 * c.reg (winA w 0x19) then 1 else 0) % 32

/-- The sample at studio time `t` is the trigger sample; `causes` are the sources true at it, enabled or not. -/
def Chip.capMark (c : Chip) (w t causes : Nat) : Chip :=
  let ring := c.capSamples w
  let post := c.reg (winA w 0x12) * 1024
  let written := c.capWritten w t
  let full := c.reg (winA w 0x13) == 2
  let src := c.winSrc w
  let c := (c.put (winA w 0x13) 3).put (winA w 0x14) (t % 2 ^ 32)
  let c := (c.put (winA w 0x15) (t / 2 ^ 32)).put (winA w 0x16) causes
  c.modWin w fun x => { x with capTrig := t, capPartial := !full && decide (written < ring - post), capPre := if full then ring - post else min written (ring - post),
                               capPost := post, capTrunc := false, capAttn := c.reg (feA src 3), capCentre := c.reg (winA w 0), capSrc := src }

/-- A source is true at the sample of this moment, or trigger-now is written: in states 1 and 2 an enabled source or trigger-now marks the trigger
sample; at the trigger sample itself a further source joins the causes; in states 0, 3, 4 and 5 the trigger is ignored and counted. Without a sample
of the window, and in state 6, it has no effect and is not counted (DESIGN CHOICE, log entry 62: the manual names neither). -/
def Chip.capTrigger (c : Chip) (w causes : Nat) (now_ : Bool) : Chip :=
  let st := c.reg (winA w 0x13)
  let en := causes &&& c.reg (winA w 0x11)
  if en = 0 ∧ ¬ now_ then c
  else if st = 1 ∨ st = 2 then if c.winSamples w then c.capMark w c.time.now causes else c
  else if st = 3 ∧ (c.win w).capTrig = c.time.now then c.put (winA w 0x16) (c.reg (winA w 0x16) ||| causes)
  else if st = 6 then c
  else c.count (winA w 0x1A)

/-- Windows fed by converter `a`. -/
def Chip.winsOf (c : Chip) (a : Nat) : List Nat := (List.range 12).filter fun w => c.winSrc w == a

/-! Combining (R58 to R61). -/

/-- The branches of a combining lane that contribute now: (A, B) (R58, R60, R61). On one window alone the lane uses that window's aerial whatever the
mode (R58). In modes A and B, and on one window alone, an overload of that aerial's front end changes nothing: there is no other branch to continue on
(DESIGN CHOICE, log entry 62: the manual does not say). A lane in SELECT begins on branch A (LaneSt.reset; log entry 62). -/
def Chip.branches (c : Chip) (k : Nat) : Bool × Bool :=
  let l := c.lane k
  let mode := c.reg 0x8E0
  let primA := c.winSrc (c.laneWin k) == 0
  let onA := if c.winRuns (c.laneWin k) then primA else !primA
  if l.single then (onA, !onA)
  else
    let both := (c.fe 0).divOff && (c.fe 1).divOff
    let okA := both || !(c.fe 0).divOff
    let okB := both || !(c.fe 1).divOff
    if mode = 2 then (true, false) else if mode = 3 then (false, true)
    else if mode = 1 then
      if l.selB then (if okB then (false, true) else (true, false)) else if okA then (true, false) else (false, true)
    else (okA, okB)

/-- The weight pair that a combining lane moves to now (R58 to R61): in MRC each branch by its share, in the other modes one branch; branch B is
rotated onto branch A by the phase term wherever a change to it may cross-fade (SELECT). -/
def Chip.divTarget (c : Chip) (k : Nat) : Weights :=
  let l := c.lane k
  let (okA, okB) := c.branches k
  if c.reg 0x8E0 = 0 ∧ !l.single then mrcWeights l.pa l.pb l.rotRe l.rotIm okA okB
  else
    let w := mrcWeights 0 0 l.rotRe l.rotIm false true
    { a := if okA then 32768 else 0, b := if !okB then (0, 0) else if c.reg 0x8E0 = 1 then w.b else (32768, 0) }

/-- A combining lane starts to move to its weight pair (R59). -/
def Chip.reweigh (c : Chip) (k : Nat) : Chip :=
  let w := c.divTarget k
  c.modLane k fun l => if (l.dsp.weights.head?.map (·.2)) = some w then l else { l with dsp := { l.dsp with weights := (c.time.now, w) :: l.dsp.weights } }

/-- Every combining lane that runs. -/
def Chip.reweighAll (c : Chip) : Chip := c.each ((List.range 160).filter fun k => c.laneRuns k && c.laneCombines k) Chip.reweigh

/-- DIV_ESTIMATE_BLOCK: a new weight pair, the phase term held where |c| is below the noise estimate; in SELECT the other branch
is taken where its power exceeds the current one's by DIV_SEL_HYST (0.5 dB steps: power ratio 10^(h/20)). -/
def Chip.divEstimate (c : Chip) (k pa pb : Nat) (cRe cIm : Int) (noise : Nat) : Chip :=
  if !(c.laneRuns k && c.laneCombines k) then c
  else
    let l := c.lane k
    let strong := decide ((noise * noise : Nat) ≤ cRe.natAbs * cRe.natAbs + cIm.natAbs * cIm.natAbs) && !(cRe == 0 && cIm == 0)
    let cur := if l.selB then pb else pa
    let oth := if l.selB then pa else pb
    -- oth / cur > 10^(h/20), compared as twentieth powers
    let swap := decide (cur ^ 20 * 10 ^ c.reg 0x8E2 < oth ^ 20)
    let l' := { l with pa := pa, pb := pb, cRe := cRe, cIm := cIm, rotRe := if strong then cRe else l.rotRe, rotIm := if strong then cIm else l.rotIm,
                       selB := if c.reg 0x8E0 = 1 ∧ swap then !l.selB else l.selB }
    (c.modLane k fun _ => l').reweigh k

/-! Overload (R50 to R54). -/

/-- OVERLOAD_DECLARED: a block of 1,024 samples with FE_OVL_COUNT or more clipped ones. -/
def Chip.overload (c : Chip) (fe clipped : Nat) : Chip :=
  let c := (c.countBy (feA fe 0x12) clipped).modFe fe fun f => { f with counted := f.counted + clipped }
  if clipped < c.reg (feA fe 0x0A) then c
  else
    let a := c.reg (feA fe 3)
    let mode := c.reg (feA fe 2)
    let c := c.modFe fe fun f =>
      { f with lastOvl := some c.tick, lastReturn := none, divOff := true, base := some (f.base.getD (if mode = 2 then c.reg (feA fe 4) else a)),
               ladAborted := f.ladAborted || f.ladSection.isSome }
    let c := if (c.fe fe).ladAborted ∧ (c.fe fe).ladSection.isSome then c.count (0xA19 + 0x10 * fe) else c
    let c := c.modFe fe fun f => if f.ladAborted then { f with ladSection := none, ladAborted := false } else f
    let c := c.put (feA fe 0x0D) (if a = 30 then 2 else 1)
    let c := c.setAttn fe (min 30 (a + c.reg (feA fe 0x0B)))
    let c := c.raise (16 + fe) (handleFe fe) (c.reg (feA fe 3))
    let c := (c.count (feA fe 0x10)).swtTake (handleFe fe) (.feOvl (c.time.now - 2))
    (c.each (c.winsOf fe) fun c w => c.capTrigger w (c.capCauses w 1 c.time.now) false).reweighAll

/-- OVL_RETURN_STEP (R52, R53): FE_OVL_HOLD ticks after the last declaration FE_OVL_STATE clears; in HOLD and MANUAL the
attenuation then returns 1 dB, and again every FE_AGC_RELEASE ticks, to the base; in AUTO the episode ends, and R44 alone returns it. -/
def Chip.ovlReturn (c : Chip) (fe : Nat) : Chip :=
  let f := c.fe fe
  match f.lastOvl with
  | none => c
  | some t =>
    if c.tick < t + c.reg (feA fe 0x0C) then c
    else
      let c := c.put (feA fe 0x0D) 0
      match f.base with
      | none => c
      | some b =>
        let due := match f.lastReturn with | none => true | some r => decide (r + c.reg (feA fe 7) ≤ c.tick)
        let a := c.reg (feA fe 3)
        if a ≤ b ∨ c.reg (feA fe 2) = 0 then c.modFe fe fun f => { f with base := none, lastReturn := none }
        else if !due then c
        else if c.ladderBusy fe then c.modFe fe fun f => { f with owedStep := true }
        else
          let c := c.setAttn fe (a - 1)
          c.modFe fe fun f => if a - 1 ≤ b then { f with base := none, lastReturn := none, owedStep := false }
                              else { f with lastReturn := some c.tick, owedStep := false }

/-- DIV_OVL_RETURN (R61). -/
def Chip.divReturn (c : Chip) (fe : Nat) : Chip :=
  match (c.fe fe).lastOvl with
  | some t => if t + c.reg 0x8E3 ≤ c.tick then (c.modFe fe fun f => { f with divOff := false }).reweighAll else c
  | none => (c.modFe fe fun f => { f with divOff := false }).reweighAll

/-- A new base of the open overload episode: the attenuation moves up to it at once, and down only as the episode returns (R52). -/
def Chip.ovlBase (c : Chip) (fe v : Nat) : Chip :=
  let c := c.modFe fe fun f => { f with base := some v }
  if c.reg (feA fe 3) < v then c.setAttn fe v else c

/-- FE_AGC_MODE comes into force at a boundary (R44, R47, R52): the ticks below the target count anew; MANUAL moves to FE_ATTN_MAN, inside an episode as
its new base. The base of an episode outlives the other changes of mode. -/
def Chip.applyAgcMode (c : Chip) (fe v : Nat) : Chip :=
  let old := c.reg (feA fe 2)
  let c := c.put (feA fe 2) v
  if old = v then c
  else
    let c := c.modFe fe fun f => { f with below := 0 }
    if v ≠ 2 then c
    else if (c.fe fe).base.isSome then c.ovlBase fe (c.reg (feA fe 4))
    else c.setAttn fe (c.reg (feA fe 4))

/-- FE_ATTN_MAN comes into force at a boundary (R47, R52). -/
def Chip.applyAttnMan (c : Chip) (fe v : Nat) : Chip :=
  let c := c.put (feA fe 4) v
  if c.reg (feA fe 2) ≠ 2 then c
  else if (c.fe fe).base.isSome then c.ovlBase fe v
  else c.setAttn fe v

/-- FE_PATH_EN comes into force at a boundary (R41): the generations of the front end and its converter step, event 23. The
windows on the converter restart (R80), and a ladder run starts (R396). -/
def Chip.applyPathEn (c : Chip) (fe v : Nat) : Chip :=
  let c := c.put (feA fe 0) v
  let c := ((c.stepGen fe).stepGen (2 + fe)).modFe fe fun f => { f with runDue := true }
  c.raise 23 (handleFe fe) v

/-! Sub-converters (R63 to R65, R389 to R391, Table 02-6). -/

/-- The sub-converter in a slot. -/
def Chip.subOf (c : Chip) (a slot : Nat) : Nat := c.field (feA a 0x41) (3 * slot) 3

/-- A handover to the spare: the outgoing sub-converter becomes the spare, ADC_ROT_CNT counts (Table 02-6 step 4). -/
def Chip.handover (c : Chip) (a slot : Nat) : Chip :=
  let out := c.subOf a slot
  let sp := c.reg (feA a 0x40)
  let c := c.putField (feA a 0x41) (3 * slot) 3 sp
  let c := c.put (feA a 0x40) out
  let c := c.count (feA a 0x43)
  c.modAdc a fun x => { x with lastHand := c.tick, shadow := none, accepted := false, prevPass := none, ages := x.ages.filter (· != slot) ++ [slot],
                               fails := Tbl.set 0 x.fails sp 0 }

/-- The sub-converter that a comparison judges: the spare, and on a converter without one the sub-converter of the slot that has been active longest
(R65; DESIGN CHOICE, log entry 62: the manual does not say how a second failure is found). -/
def Chip.judged (c : Chip) (a : Nat) : Nat :=
  if c.reg (feA a 0x40) = 7 then c.subOf a (((c.adc a).ages.head?).getD 0) else c.reg (feA a 0x40)

/-- A failed comparison (R64): event 21, ADC_ROT_FAULT_CNT; three in a row of one sub-converter mark it failed and rotation stops. -/
def Chip.handoverFault (c : Chip) (a : Nat) : Chip :=
  let sp := c.judged a
  let c := c.raise 21 (handleAdc a) sp
  let c := c.count (feA a 0x44)
  let n := Tbl.get 0 (c.adc a).fails sp + 1
  let c := c.modAdc a fun x => { x with shadow := none, accepted := false, prevPass := none, fails := Tbl.set 0 x.fails sp n }
  if 3 ≤ n then (c.putBit (feA a 0x42) sp true).put (feA a 0x40) 7 else c

/-! Test injection (R66 to R69). -/

/-- Injection is running on a front end. -/
def Chip.injecting (c : Chip) (fe : Nat) : Bool := c.reg (feA fe 0x23) == 1

/-- Injection is refused (R66): the channel is mapped to a broadcast alarm, or path L is switched out, by the values that will be in force at the boundary
where the start takes effect. -/
def Chip.injBad (c : Chip) (fe : Nat) : Bool := (c.view (dacA (c.view (feA fe 0x21)) 4)).testBit 0 || !(c.view (feA fe 0)).testBit 0

/-- A start written to FE_INJ_CTRL (R66, R67, R70): it takes effect at the next tick boundary. -/
def Chip.injStart (c : Chip) (fe : Nat) : WRes :=
  if c.injBad fe then (c.put (feA fe 0x23) 4).no rBad else (c.stage (feA fe 0x20) 1).yes

/-- Injection starts at a boundary: the pin of the channel holds its CLRSEL code from then on (R67). A later write of the same tick may have made it one
that R66 refuses. A start while injection runs begins the FE_INJ_TICKS length again (DESIGN CHOICE, log entry 62: the manual does not say). -/
def Chip.injBegin (c : Chip) (fe : Nat) : Chip :=
  if c.injBad fe then (if c.injecting fe then c else c.put (feA fe 0x23) 4)
  else (c.put (feA fe 0x23) 1).modFe fe fun f => { f with injEnd := some (c.tick + c.reg (feA fe 0x22)), injLevel := none }

/-- Injection ends with `status` (R68, R69): its level, when it was measured, event 22. -/
def Chip.injStop (c : Chip) (fe status : Nat) (level : Option Int) : Chip :=
  let c := c.put (feA fe 0x23) status
  let c := match level with | some v => c.putInt (feA fe 0x24) 16 v | none => c
  (c.modFe fe fun f => { f with injEnd := none, injAt := some c.time.now }).raise 22 (handleFe fe) status

/-- A stop written to FE_INJ_CTRL (R68, R70), with the level that is measured when it takes effect. -/
def Chip.injStopWrite (c : Chip) (fe : Nat) (level : Int) : WRes :=
  ({ c with staged := Tbl.del c.staged (feA fe 0x20) }.modFe fe fun f => if c.injecting fe then { f with injLevel := some level } else f).yes

/-- A stop takes effect at a boundary. -/
def Chip.injTick (c : Chip) (fe : Nat) : Chip := match (c.fe fe).injLevel with
  | some l =>
    let c := c.modFe fe fun f => { f with injLevel := none }
    if c.injecting fe then c.injStop fe 2 (some l) else c
  | none => c

end Sys2Proof.Machine
end

