-- ==== Sys2Proof/Machine/HostBus.lean ====
section
/-! DEFINITION. The host control bus: the reply status byte, held replies, the version in force, bus faults and attention requests (R404 to R437). -/

namespace Sys2Proof.Machine

/-- The read and write address bytes (R404, R406). -/
def Chip.addrRead (c : Chip) : Byte := b8 (2 * c.reg 0x500 + 1)

/-- The reply to the last command is not complete (R414, R421). -/
def Chip.replyPending (c : Chip) : Bool := !c.bus.complete || c.bus.held.isSome

/-- NRD (R413). -/
def Chip.nrd (c : Chip) : Bool := c.replyPending || !c.boot.done || c.asleep

/-- A sealed session is active: VAR_SSN[3] (R555). -/
def Chip.sealActive (c : Chip) : Bool := c.bit 0xF05 3

/-- The reply status byte (Table 14-2). -/
def Chip.status (c : Chip) : Nat :=
  (if c.atn then 128 else 0) + (if c.field 0xC39 0 6 != 0 then 64 else 0) + (if c.nrd then 32 else 0) +
  (if !c.nrd && c.bus.reply.headD 0 != 0 then 16 else 0) + (if c.boot.fbk then 8 else 0) +
  (if c.loopCoasts 0 || c.loopCoasts 1 || c.loopCoasts 2 || c.reg 0x231 == 3 then 4 else 0) + (if c.ev.chg then 2 else 0) +
  (if c.sealActive && c.reg 0x501 == 1 then 1 else 0)

/-- The reply frame of R410: status, length, body, CRC-8. -/
def Chip.frame (c : Chip) : List Byte :=
  let l := [b8 c.status, b8 c.bus.reply.length] ++ c.bus.reply
  l ++ [crc8 (c.addrRead :: l)]

/-- The NRD frame of R414: status with NRD, length 0, CRC-8. -/
def Chip.nrdFrame (c : Chip) : List Byte :=
  let l := [b8 c.status, 0x00]
  l ++ [crc8 (c.addrRead :: l)]

/-- The first `n` bytes of a frame; 0xFF after its CRC byte (R410). -/
def readOut (frame : List Byte) (n : Nat) : List Byte := frame.take n ++ List.replicate (n - frame.length) 0xFF

/-- CTL stays awake for SKT_HOST_HOLD ticks after a command (R376). -/
def Chip.holdHost (c : Chip) : Chip := { c with power := { c.power with hostHold := c.tick + c.reg 0x308 } }

/-- Page 0x05 writes whose reply has been read take effect at this STOP (R438). -/
def Chip.applyBusStaged (c : Chip) : Chip :=
  let l := c.bus.staged
  let c := { c with bus := { c.bus with staged := [], atStop := false } }
  c.each l fun c e => c.put e.1 e.2.toNat

/-- A STOP: the values of page 0x05 that a profile switch has staged come into force (Table 14-7). -/
def Chip.busStop (c : Chip) : Chip := if c.bus.atStop then c.applyBusStaged else c

/-- A read transaction of `n` bytes sends a frame: its first byte is a status read (R410, R424). -/
def Chip.sendFrame (c : Chip) (frame : List Byte) (n : Nat) : Chip :=
  let c := { c with bus := { c.bus with out := readOut frame n } }
  (if n = 0 then c else { c with ev := { c.ev with fresh := false } }).busStop

/-- A read returns the held reply; once it has been read, the writes of page 0x05 take effect at its STOP (R411, R438). -/
def Chip.sendReply (c : Chip) (n : Nat) : Chip :=
  let c1 := c.sendFrame c.frame n
  if 2 + c.bus.reply.length ≤ n then c1.applyBusStaged.put 0x508 0 else c1

/-- A read returns the NRD frame (R414). -/
def Chip.sendNrd (c : Chip) (n : Nat) : Chip := (c.sendFrame c.nrdFrame n).count 0x513

/-- REPLY_READ: a read transaction of `n` bytes (R410 to R415): while the reply is not complete, the read stretches SCL, or returns the NRD frame at once. -/
def Chip.readReply (c : Chip) (n : Nat) : Chip :=
  if !c.replyPending then c.sendReply n
  else if c.reg 0x504 = 0 then c.sendNrd n
  else { c with bus := { c.bus with stretch := some n } }

/-- NRD_STRETCH_TIMEOUT: the stretch has reached HB_STRETCH_MAX (R414). -/
def Chip.stretchEnd (c : Chip) : Chip := match c.bus.stretch with
  | none => c
  | some n => { c with bus := { c.bus with stretch := none } }.sendNrd n

/-- Hold a complete reply body (R411); a read that stretches SCL goes on with it. -/
def Chip.setReply (c : Chip) (body : List Byte) : Chip :=
  let c := { c with bus := { c.bus with reply := body, complete := true } }.put 0x508 3
  match c.bus.stretch with
  | none => c
  | some n => { c with bus := { c.bus with stretch := none } }.sendReply n

/-- A command's effect leaves its reply: an empty body is a command that is still being carried out (R411, R414). -/
def Chip.answer (c : Chip) (body : List Byte) : Chip :=
  if body.isEmpty then { c with bus := { c.bus with complete := false } }.put 0x508 2 else c.setReply body

/-- Versions of the native commands, of the legacy ones, and of HELLO and PROFILE (Table 14-4). -/
def native : List Nat := [2, 3]
def legacy : List Nat := [1]
def anyVersion : List Nat := [1, 2, 3]

/-- The reply of a single parameter write: reason, entries applied, refused address (Table 14-4, PARAM_WRITE). -/
def writeReply (reason a : Nat) : List Byte := [b8 reason, b8 (if reason = 0 then 1 else 0)] ++ le 2 (if reason = 0 then 0xFFFF else a)

/-- The reply and effect of one parameter write. -/
def writeOne (a : Nat) (r : Chip → Nat × Chip) (c : Chip) : List Byte × Chip :=
  let (reason, c) := r c
  (writeReply reason a, c)

/-! Version (R422, R423). -/

/-- The version HELLO chooses; `none` when none qualifies. -/
def Chip.choose (c : Chip) (lo hi : Nat) : Option Nat :=
  let v := min (min hi (c.reg 0x502)) 3
  if 1 ≤ v ∧ lo ≤ v then some v else none

/-- Put a version in force: a change ends the sealed session, and leaving version 3 clears HB_ATN_EN (R423). Provisional streams end at the next tick boundary (R550). -/
def Chip.setVersion (c : Chip) (v : Nat) : Chip :=
  let old := c.reg 0x501
  let c := c.put 0x501 v
  if old = v then c
  else
    let c := c.putField 0xF05 3 5 0
    if old = 3 then c.put 0x503 0 else c

/-- HELLO: the reply of Table 14-3, event 53. -/
def Chip.doHello (c : Chip) (lo hi : Nat) : List Byte × Chip :=
  match c.choose lo hi with
  | none => ([b8 rNotNegotiated], c)
  | some v =>
    let c := (c.setVersion v).raise 53 (handleBlock 0x10) v
    ([0x00, b8 v, 0x80, 0x41, Config.siliconStep, Config.romVersion, b8 (c.reg 0x401), 0x00], c)

/-! Bus faults (R408, R416, R417). -/

/-- COMMAND_FRAME_DISCARD: 0 a bad CRC or a frame cut short, 1 a byte too many; the SCL timeout has its own row. A frame written while a command
is being carried out is lost before its CRC (R412). -/
def Chip.discardFrame (c : Chip) (cause : Nat) : Chip :=
  if c.replyPending || 1 < cause then c
  else
    let c := if cause = 0 then (c.raise 52 (handleBlock 0x10) 0).count 0x511 else c
    (c.setReply [b8 rBad]).busStop

def Chip.doSclTimeout (c : Chip) : Chip :=
  if !c.ctlOn then c else ((c.raise 48 (handleBlock 0x10) 0).count 0x514)

def Chip.doSdaStuck (c : Chip) : Chip :=
  if !c.ctlOn || c.bus.stuck then c
  else ({ c with bus := { c.bus with stuck := true } }.raise 49 (handleBlock 0x10) 0).count 0x515

/-! Attention requests (R424 to R427). -/

/-- An attention request may be made now, both lines being idle (R424). -/
def Chip.atnMay (c : Chip) : Bool :=
  c.ctlOn && c.boot.done && !c.bus.stuck && !c.bus.atnActive && c.reg 0x501 == 3 && c.reg 0x503 == 1 && c.ev.fresh &&
    (match c.bus.atnAt with | some t => decide (t + c.reg 0x506 ≤ c.tick) | none => true)

def Chip.doAttention (c : Chip) : Chip :=
  if c.atnMay then { c with bus := { c.bus with atnActive := true, atnAt := some c.tick } }.put 0x508 4 else c

/-- An attention request unclocked within HB_ATN_WAIT (R426): event 55, HB_ATN_IGN_CNT; the eighth in a row clears HB_ATN_EN. -/
def Chip.atnIgnored (c : Chip) : Chip :=
  if !c.bus.atnActive then c
  else
    let n := c.bus.ignored + 1
    let c := { c with bus := { c.bus with atnActive := false, ignored := n } }.put 0x508 0
    let c := (c.raise 55 (handleBlock 0x10) n).count 0x517
    if 8 ≤ n then { c with bus := { c.bus with ignored := 0 } }.put 0x503 0 else c

/-- A completed attention request (R425): the address, the status and their CRC; it counts as a status read. -/
def Chip.atnDone (c : Chip) : Chip :=
  if !c.bus.atnActive then c
  else
    let st := b8 c.status
    let c := { c with bus := { c.bus with atnActive := false, ignored := 0, out := [c.addrRead, st, crc8 [c.addrRead, st]] },
                      ev := { c.ev with fresh := false } }.put 0x508 0
    (c.count 0x516).busStop

end Sys2Proof.Machine
end

