-- ==== Sys2Proof/Machine/Windows.lean ====
section
/-! DEFINITION. Band windows: retune, source, restart, capture and export, and the staged Canvas map (R72, R79 to R88, R95 to R99). -/

namespace Sys2Proof.Machine

/-- Converter `a` runs: the SPLL runs, its rails are valid and it has not stopped (R65, R72, R580). -/
def Chip.adcRuns (c : Chip) (a : Nat) : Bool :=
  let st := c.reg 0x200
  (st == 2 || st == 3 || st == 5) && !(c.adc a).stopped && !c.power.invalid.testBit 1 && !c.power.invalid.testBit 2

/-- Lanes that draw from window `w`; `primary` for those whose primary window it is. -/
def Chip.lanesOn (c : Chip) (w : Nat) (primary : Bool) : List Nat :=
  (List.range 160).filter fun k => c.laneHeld k && (c.laneWin k == w || (!primary && c.laneCombines k && c.laneWin2 k == w))

/-- The export jobs of a window. -/
def Chip.winJobs (c : Chip) (w : Nat) : List Nat :=
  (match (c.win w).expJob with | some j => [j] | none => []) ++ (match (c.win w).capJob with | some j => [j] | none => [])

/-- A restart's effect on a capture (R98). -/
def Chip.capRestart (c : Chip) (w : Nat) : Chip :=
  let st := c.reg (winA w 0x13)
  if st = 1 ∨ st = 2 then (c.put (winA w 0x13) 1).modWin w fun x => { x with capSince := c.time.now, dsp := { x.dsp with ring := [] } }
  else if st = 3 then
    (c.put (winA w 0x13) 4).modWin w fun x => { x with capTrunc := true, capPost := min x.capPost (c.time.now - x.capTrig) }
  else c

/-- A window restart (R80, R111): the filters are cleared, the first 32 outputs discarded, its lanes restart; with `gen` its consumers' next records carry GENV (R35). -/
def Chip.winRestart (c : Chip) (w : Nat) (gen sameFreq : Bool) : Chip :=
  let c := (c.capRestart w).put (winA w 2) 1
  let c := c.modWin w fun x => { x with settled := false, dsp := x.dsp.restart c.time.now }
  let c := if gen then c.markStreams (fun key => keyWin key == some w && key / 2 ^ 32 == 0x60) true false else c
  c.each (c.lanesOn w true) fun c k => if (c.lane k).started && !(c.lane k).suspended then c.laneRestart k gen sameFreq else c

/-- A combining lane falls back to its primary window, or resumes combining (R58); the first record after the change carries GENV. -/
def Chip.refreshDiv (c : Chip) : Chip :=
  c.each ((List.range 160).filter fun k => c.laneHeld k && c.laneCombines k && (c.lane k).started) fun c k =>
    let apart := !c.winRuns (c.laneWin k) || !c.winRuns (c.laneWin2 k) || c.reg (winA (c.laneWin k) 0) != c.reg (winA (c.laneWin2 k) 0)
    if (c.lane k).single = apart then c
    else ((c.modLane k fun l => { l with single := apart }).reweigh k).markStreams (fun key => keyLane key == some k) true false

/-- A window's state after a change of its source or of its converter: off, waiting, or running after a restart; lanes without a
running window are suspended, and resume when it runs again (R72, R82, R351). A combining lane runs on while its second window does (R65). -/
def Chip.winRefresh (c : Chip) (w : Nat) (restart gen disc : Bool) : Chip :=
  let src := c.winSrc w
  let was := c.winRuns w
  if 1 < src then (if was || restart then c.winRestart w gen true else c).put (winA w 2) 0
  else if c.adcRuns src then
    let c := if !was || restart then c.winRestart w gen true else c
    if was then c
    else
      let c := c.each (c.lanesOn w false) fun c k => c.resumeLane k disc
      let c := if disc then c.markStreams (fun key => keyWin key == some w && key / 2 ^ 32 == 0x60) true true else c
      c.resumeJobs (c.winJobs w)
  else
    let c := c.put (winA w 2) 3
    let c := if was then c.capRestart w else c
    let c := c.each (c.lanesOn w false) fun c k =>
      let other := if c.laneWin k = w then c.laneWin2 k else c.laneWin k
      if c.laneCombines k ∧ c.winRuns other then c else c.suspendLane k
    c.suspendJobs (c.winJobs w)

/-- Every window on converter `a` (both for `a` = 2). -/
def Chip.refreshWins (c : Chip) (a : Nat) (restart gen disc : Bool) : Chip :=
  (c.each ((List.range 12).filter fun w => c.winSrc w == a || (a == 2 && decide (c.winSrc w < 2))) fun c w => c.winRefresh w restart gen disc).refreshDiv

/-- WIN_CENTRE comes into force at a boundary (R79 to R81): the phase is cleared; a change steps the generation and restarts. -/
def Chip.applyCentre (c : Chip) (w v : Nat) : Chip :=
  let old := c.reg (winA w 0)
  let c := (c.put (winA w 0) v).modWin w fun x => { x with phaseAt := c.tick, dsp := { x.dsp with phase := 0 } }
  if old = v then c
  else
    let c := c.stepGenAt (winA w 3)
    if c.winRuns w then c.winRestart w true false else c.each ((List.range 160).filter fun k => c.laneWin k == w) Chip.dropOffset

/-- WIN_SRC comes into force at a boundary (R80, R82). -/
def Chip.applySrc (c : Chip) (w v : Nat) : Chip :=
  let old := c.winSrc w
  let c := c.put (winA w 1) v
  if old = v then c else (c.stepGenAt (winA w 3)).winRefresh w true true false

/-- A write to WIN_CENTRE (R79, Table 03-9). -/
def Chip.wrCentre (c : Chip) (w v : Nat) : WRes := if 0x80000000 < v then c.no rBad else (c.stage (winA w 0) v).yes

/-- The source a window will have at the next boundary. -/
def Chip.nextSrc (c : Chip) (w : Nat) : Nat := c.view (winA w 1)

/-- A write to WIN_SRC (R82). -/
def Chip.wrSrc (c : Chip) (w v : Nat) : WRes :=
  let v := v % 4
  let held := !(c.lanesOn w false).isEmpty || (c.win w).expJob.isSome || (c.win w).capJob.isSome
  let pairBad := (c.lanesOn w false).any fun k => c.laneCombines k && c.nextSrc (if c.laneWin k = w then c.laneWin2 k else c.laneWin k) == v
  if v = 2 ∨ (v = 3 ∧ held) ∨ pairBad then c.no rBad else (c.stage (winA w 1) v).yes

/-- WIN_CAP_CTRL: arm (R95). -/
def Chip.capArm (c : Chip) (w : Nat) : WRes :=
  let st := c.reg (winA w 0x13)
  if st = 6 then c.no rNotInProfile
  else if st ≠ 0 ∨ c.capSamples w ≤ c.reg (winA w 0x12) * 1024 then c.no rBad
  else ((c.put (winA w 0x13) 1).modWin w fun x => { x with capSince := c.time.now, capTrunc := false, capPartial := false, dsp := { x.dsp with ring := [] } }).yes

/-- WIN_CAP_CTRL: start export (R99): submits the ELASTIC capture export job; refused with BAD_PARAMETER in every state but 4 (DESIGN CHOICE, log entry
62: the manual names no answer). -/
def Chip.capExport (c : Chip) (w : Nat) : WRes :=
  if c.reg (winA w 0x13) ≠ 4 then c.no rBad
  else
    let (body, c) := c.submit (mkDesc 8 1 0 (handleWin w) 0) 2
    ((body.headD 0).toNat, c)

/-- The capture header record's body (Table 03-8). -/
def Chip.capHeader (c : Chip) (w : Nat) : List Byte :=
  let x := c.win w
  le 8 x.capTrig ++ le 4 x.capPre ++ le 4 x.capPost ++
    [b8 (c.reg (winA w 0x16)), b8 ((if x.capTrunc then 1 else 0) + (if x.capPartial then 2 else 0))] ++
    le 2 (c.reg (winA w 0x1B)) ++ le 4 x.capCentre ++ [b8 x.capSrc, b8 x.capAttn] ++ List.replicate 6 0

/-- The capture freezes: the post-trigger length has passed since the trigger sample (R97). -/
def Chip.capDone (c : Chip) (w : Nat) : Chip :=
  if c.reg (winA w 0x13) = 3 ∧ (c.win w).capTrig + (c.win w).capPost ≤ c.time.now then (c.put (winA w 0x13) 4).count (winA w 0x1B) else c

/-! The staged map (R86, R87). -/

/-- The staged descriptors, as a map. -/
def Chip.stagedMap (c : Chip) : List Nat := (List.range 16).map fun p => c.reg (cnvA p 0)

/-- Blocks of two descriptors overlap. -/
def dOverlap (a b : Nat) : Bool := decide (dBase a < dBase b + dSize b) && decide (dBase b < dBase a + dSize a)

/-- Pairs of a list's elements, each with those after it. -/
def pairs : List Nat → List (Nat × Nat)
  | [] => []
  | x :: r => (r.map fun y => (x, y)) ++ pairs r

/-- A partition map is valid (R86). -/
def mapOk (m : List Nat) : Bool :=
  let u := m.filter fun d => dSize d != 0
  u.all (fun d => decide (dSize d ≤ 256) && decide (dBase d + dSize d ≤ 256) && decide (dUse d ≤ 3) && (dUse d != 0 || decide (dWin d ≤ 11))) &&
  (pairs u).all (fun q => !dOverlap q.1 q.2) && decide ((u.filter fun d => dUse d == 1).length ≤ 1) &&
  (pairs u).all (fun q => !(dUse q.1 == 0 && dUse q.2 == 0 && dWin q.1 == dWin q.2))

/-- A write of 1 to CNV_COMMIT (R87). A refused commit shows in CNV_STATUS; a valid commit that waits stays, and CNV_STATUS goes to 0 at the boundary
that applies it (DESIGN CHOICE, log entry 62: the manual does not say). -/
def Chip.wrCommit (c : Chip) (v : Nat) : WRes :=
  if v % 2 = 0 then c.yes
  else if mapOk c.stagedMap then
    let m := (List.range 16).foldl (fun t p => Tbl.set 0 t p (w32 (c.reg (cnvA p 0)))) ([] : Tbl Word)
    ({ c with canvas := { c.canvas with pending := some m } }.put 0x7B1 1).yes
  else (c.put 0x7B1 2).no rBad

end Sys2Proof.Machine
end

