-- ==== Sys2Proof/Machine/Clocks.lean ====
section
/-! DEFINITION. Studio time, the timebase and TICK, the three loops with coast, stop and relock, the TCXO and XO32K (R28, R29, R354 to R371). -/

namespace Sys2Proof.Machine

/-! The timebase. -/

/-- The rate correction in force, in 10^-9: ρ, with the always-on clock's rate while the CPLL does not drive studio time. -/
def Chip.tbRate (c : Chip) : Int :=
  toSigned 32 (c.reg 0x235) + (if c.reg 0x210 = 2 ∨ c.reg 0x210 = 3 ∨ c.reg 0x210 = 5 then 0 else 10 * c.int 0x232 16)

/-- UTC, in ns since 1970, at studio time `s`. -/
def Chip.utcAt (c : Chip) (s : Int) : Int := c.time.u0 + (s - c.time.s0) * (1000000000 + c.tbRate) / 32768000

/-- Take the slew up to now: CLK_UTC_SLEW µs per second, towards zero (R369). -/
def Chip.syncSlew (c : Chip) : Chip :=
  let dt : Int := (c.time.now - c.time.slewAt : Nat)
  let most := (c.reg 0x238 : Int) * 1000 * dt / 32768000
  let x := clampInt (-most) most c.time.slew
  { c with time := { c.time with u0 := c.time.u0 + x, slew := c.time.slew - x, slewAt := max c.time.slewAt c.time.now } }

/-- Anchor the mapping at now, before its rate changes. -/
def Chip.rebase (c : Chip) : Chip :=
  let c := c.syncSlew
  { c with time := { c.time with u0 := c.utcAt c.time.now, s0 := c.time.now } }

/-- Growth of the error bound, ns per second (R368). -/
def Chip.errGrowth (c : Chip) : Nat :=
  let cpll := c.reg 0x210
  if ¬ (cpll = 2 ∨ cpll = 3 ∨ cpll = 5) then 500
  else if c.reg 0x231 = 2 ∧ c.reg 0xA08 = 1 then 50 else 5000

/-- The error bound in µs, rounded up. -/
def errMicros (e : Nat) : Nat := ceilDiv e 32768000000

/-- Take the error bound up to now (R368); CLK_TB_ERR. -/
def Chip.syncErr (c : Chip) : Chip :=
  match c.time.err with
  | none => { c with time := { c.time with errAt := max c.time.errAt c.time.now } }
  | some e =>
    let e := e + c.errGrowth * (c.time.now - c.time.errAt)
    { c with time := { c.time with err := some e, errAt := max c.time.errAt c.time.now } }.put 0x234 (min 0xFFFFFFFE (errMicros e))

/-- Everything that grows with elapsed studio time, taken up to now. -/
def Chip.syncTime (c : Chip) : Chip := c.syncSlew.syncErr.syncOwed

/-- Let studio time pass, modulo 2^64. -/
def Chip.advance (c : Chip) (n : Nat) : Chip := { c with time := { c.time with now := (c.time.now + n) % 2 ^ 64 } }

/-- Timebase state changes at a tick boundary (R368): an accepted message takes it to coarse or disciplined, with event 14 at
every entry to state 2; a bound above 1,000 µs takes state 2 to holdover. -/
def Chip.tbTick (c : Chip) : Chip :=
  let c := c.syncErr
  let st := c.reg 0x233
  let small := match c.time.err with | some e => decide (errMicros e ≤ 1000) | none => false
  let msg := c.time.pendingMsg
  let c := { c with time := { c.time with pendingMsg := 0 } }
  if msg = 2 ∧ small = true ∧ st ≠ 2 then
    { c with time := { c.time with reached2 := true } }.put 0x233 2 |>.raise 14 (handleBlock 0x0C) (c.reg 0x234)
  else if st = 0 ∧ msg ≠ 0 then c.put 0x233 1
  else if st = 2 ∧ small = false then c.put 0x233 3
  else c

/-- A discontinuity record (R365, Table 12-3); CLK_DISC_CNT. -/
def Chip.discRecord (c : Chip) (cause loop : Nat) (step phase : Int) (durUs : Nat) : Chip :=
  let c := c.count 0x23A
  c.system 0x03 (handleBlock 0x0C) c.time.now
    ([b8 cause, b8 loop, 0, 0] ++ le 4 (ofSigned 32 step) ++ le 4 (ofSigned 32 phase) ++ le 4 (min durUs 0xFFFFFFFF))

/-- An accepted time message corrects the mapping (R369): UTC in ns at studio time `ref`; rank 1 carries seconds. -/
def Chip.tbMessage (c : Chip) (utc : Int) (ref : Nat) (rank1 : Bool) : Chip :=
  let c := c.syncTime
  let st := c.reg 0x233
  let set := { c with time := { c.time with u0 := utc, s0 := ref, slew := 0, slewAt := c.time.now } }
  let c :=
    if st = 0 ∧ c.time.pendingMsg = 0 then set
    else if st ≤ 1 then set
    else if rank1 then
      let eps := utc - c.utcAt ref
      if eps.natAbs ≤ c.reg 0x239 * 1000 then { c with time := { c.time with slew := eps, slewAt := c.time.now } }
      else
        let c := { c with time := { c.time with u0 := c.time.u0 + eps, slew := 0, slewAt := c.time.now } }
        (c.discRecord 3 3 (eps / 1000) 0 0).raise 15 (handleBlock 0x0C) 0
    else c
  if rank1 then
    { c with time := { c.time with err := some (500000 * 32768000), errAt := c.time.now, pendingMsg := 2 } }.put 0x234 500
  else { c with time := { c.time with pendingMsg := max c.time.pendingMsg 1 } }

/-! TICK and full-time records. -/

/-- The studio counts of one step of studio time: one while the CPLL clocks it, one always-on cycle otherwise (R29). -/
def Chip.idleCounts (c : Chip) : Nat :=
  let st := c.reg 0x210
  if st = 2 ∨ st = 3 ∨ st = 5 then 1 else 1000

/-- Studio time is at a second boundary: it has just reached a multiple of 32,768,000 in state 0, u a whole second in the other states (R31); both at the
first count, or always-on edge, at or after that instant (R370). -/
def Chip.atSecond (c : Chip) : Bool :=
  let now := c.time.now
  let g := c.idleCounts
  if c.reg 0x233 = 0 then decide (g ≤ now) && now / 32768000 != (now - g) / 32768000
  else c.syncSlew.utcAt now / 1000000000 != c.syncSlew.utcAt ((now : Int) - g) / 1000000000

/-- Whether a second boundary counts: not less than 500 ms after the last that produced a full-time record (R370). -/
def Chip.secondCounts (c : Chip) : Bool := c.atSecond && match c.time.lastSec with
  | some t => decide (t + 16384000 ≤ c.time.now)
  | none => true

/-- UTC seconds at the boundary: zero until broadcast time has been received; in an inserted leap second those of the following 00:00:00 (R371). -/
def Chip.utcSeconds (c : Chip) : Nat :=
  if c.reg 0x233 = 0 then 0 else ((c.utcAt c.time.now + 500000000) / 1000000000).toNat + (if c.time.leaping then 1 else 0)

/-- The full-time record's body (Table 01-9). -/
def Chip.fullTimeBody (c : Chip) : List Byte :=
  let st := (if c.reg 0x233 = 2 then 1 else 0) + (if c.time.leaping || c.time.leapDue then 2 else 0) + (if c.bit 0xC24 1 then 4 else 0)
  le 8 c.time.now ++ le 4 c.utcSeconds ++ [b8 (c.reg 0xC23), b8 st, 0, 0]

/-- TICK pulses: it rises for CLK_TICK_WIDTH ms unless CLK_TICK_MODE keeps it silent until state 2 (R370). -/
def Chip.tickPulses (c : Chip) : Bool := c.reg 0x236 == 0 || c.time.reached2

def Chip.secondBoundary (c : Chip) : Chip :=
  if c.power.deep || !c.power.resetN || !c.secondCounts then c
  else
    let c := c.syncTime
    let c := if c.tickPulses then { c with time := { c.time with tickHigh := some (c.time.now + c.reg 0x237 * 32768) } } else c
    if c.reg 0x600 = 1 then
      let c := { c with time := { c.time with lastSec := some c.time.now, lastUtc := c.utcSeconds } }
      { (c.system 0x01 0xA0000000 c.time.now c.fullTimeBody) with time := { c.time with leaping := false } }
    else { c with time := { c.time with leaping := false } }

/-! Loops. -/

def loopNum : PLoop → Nat
  | .spll => 0
  | .cpll => 1
  | .lpll => 2

def loopA (l off : Nat) : Nat := 0x200 + 16 * l + off

/-- Microseconds between two studio times. -/
def usBetween (a b : Nat) : Nat := (b - a) * 1000000 / 32768000

/-- The streams a loop feeds: the LPLL link packets, the SPLL lane and window records, the CPLL everything. -/
def feeds (l key : Nat) : Bool :=
  if l = 1 then true else if l = 2 then key / 2 ^ 32 == 0x1D else (keyLane key).isSome || (keyWin key).isSome

/-- Glimpses in progress are missed (R384): event 30, SKT_MISS_CNT, the entry's misses. -/
def Chip.missGlimpses (c : Chip) : Chip :=
  c.each (c.glimpses.filter fun e => e.2.active) fun c e =>
    let g := e.2
    let c := { c with glimpses := Tbl.put c.glimpses e.1 { g with active := false, misses := min 0xFFFF (g.misses + 1) } }
    (c.raise 30 g.handle g.kind).count 0x30D

/-- Step the generations of every block that a stopped CPLL stops (Table 12-2). -/
def Chip.cpllGens (c : Chip) : Chip :=
  let c := c.each (4 :: ((List.range 16).filter fun p => dSize (c.desc p) != 0).map (16 + ·)) Chip.stepGen
  let c := c.trlDrop fun _ => true
  let c := c.each [0x7A3, 0xB04, 0xC6F, 0x606, 0x644, 0xF07, 0xD3D] fun c a => c.stepGenAt a
  let c := c.each ((List.range 12).filter fun w => decide (c.winSrc w < 2)) fun c w => c.stepGenAt (winA w 3)
  let c := c.each ((List.range 160).filter fun k => c.laneHeld k) fun c k => c.stepGenAt (laneA k 6)
  let c := c.each ((List.range 8).filter fun e => c.reg (dabA e 0) != 0xFF) fun c e => c.stepGenAt (dabA e 2)
  c.each ((List.range 16).filter fun n => c.reg (drmA n 0) != 0xFF) fun c n => c.stepGenAt (drmA n 2)

/-- The SPLL's domains stop: both converters step, windows read state 3, their jobs are suspended (Table 12-2). -/
def Chip.stopConverters (c : Chip) : Chip := (((c.stepGen 2).stepGen 3).refreshWins 2 false false false).missGlimpses

/-- A loop stops (R359, Table 12-2): CLK_STATE 4, CLK_STOP_CNT, event 10. -/
def Chip.stopLoop (c : Chip) (l : Nat) : Chip :=
  let c := c.syncTime.rebase
  let c := c.put (loopA l 8) (min 0xFFFFFFFF (usBetween (c.loop l).since c.time.now))
  let c := (c.put (loopA l 0) 4).modLoop l fun x => { x with coastedAt := some c.time.now, aligning := false }
  let c := (c.count (loopA l 0x0B)).raise 10 (handleBlock 0x0C) (l + 256)
  if l = 0 then c.stopConverters
  else if l = 1 then
    let spll := c.reg 0x200
    let c := if spll = 0 then c else (c.put 0x200 4).modLoop 0 fun x => { x with since := if spll = 3 ∨ spll = 4 then x.since else c.time.now, aligning := false }
    let c := c.cpllGens.stopConverters
    let c := c.each ((List.range 160).filter fun k => c.laneHeld k) fun c k => c.suspendLane k
    c.suspendJobs (c.jobs.map (·.1))
  else c

/-- A loop loses lock and coasts (R358): events 8 and 9, CLK_COAST_CNT; CLK_COAST_MAX 0 stops it at once. -/
def Chip.loseLock (c : Chip) (l : Nat) : Chip :=
  if ¬ (c.reg (loopA l 0) = 2 ∨ c.reg (loopA l 0) = 5) then c
  else
    let c := c.syncTime
    let c := c.put (loopA l 0) 3
    let c := (c.put (loopA l 7) 0).put (loopA l 8) 0
    let c := c.modLoop l fun x => { x with since := c.time.now, coastedAt := some c.time.now, aligning := false }
    let c := ((c.raise 8 (handleBlock 0x0C) l).raise 9 (handleBlock 0x0C) l).count (loopA l 0x0A)
    if c.reg (loopA l 5) = 0 then c.stopLoop l else c

/-- COAST_DRIFT_CHECK (R359): CLK_DRIFT in 0.01 ppm against CLK_DRIFT_MAX in 0.1 ppm; without XO32K only the time limit applies. -/
def Chip.driftCheck (c : Chip) (l : Nat) (drift : Int) : Chip :=
  if c.reg (loopA l 0) ≠ 3 ∨ c.reg 0x23C = 1 then c
  else
    let c := c.putInt (loopA l 7) 16 drift
    let c := c.put (loopA l 8) (min 0xFFFFFFFF (usBetween (c.loop l).since c.time.now))
    if 10 * c.reg (loopA l 6) < drift.natAbs then c.stopLoop l else c

/-- Studio time steps by `x` counts (R361, R366, R367): S0 moves with it; event 15 where tick boundaries are passed. -/
def Chip.stepStudio (c : Chip) (x : Int) : Chip :=
  let old := c.time.now
  let new := ((old : Int) + x).toNat % 2 ^ 64
  let c := { c with time := { c.time with now := new, steps := c.time.steps + 1, s0 := c.time.s0 + x, slewAt := new, errAt := new,
                                          lastSec := c.time.lastSec.map fun t => ((t : Int) + x).toNat,
                                          tickHigh := c.time.tickHigh.map fun t => ((t : Int) + x).toNat },
                    out := { c.out with owedAt := new } }
  let c := c.moveDeadlines x
  let d : Int := ((new / 32000 : Nat) : Int) - ((old / 32000 : Nat) : Int)
  if d = 0 then c else c.raise 15 (handleBlock 0x0C) (ofSigned 32 d)

/-- Whole studio counts nearest to φ in ps: one count is 10^9 / 32,768 ps. -/
def phiCounts (phi : Int) : Int := (phi * 65536 + 1000000000) / 2000000000

/-- Every lane and every job suspended by a stopped loop resumes where its object runs again. -/
def Chip.resumeAll (c : Chip) : Chip :=
  let c := c.each ((List.range 160).filter fun k => (c.lane k).suspended && c.winRuns (c.laneWin k)) fun c k => c.resumeLane k true
  c.resumeJobs ((c.jobs.filter fun e => hLevel (dHandle e.2.desc) == 5 || (hLevel (dHandle e.2.desc) == 4 && c.winRuns (hWin (dHandle e.2.desc)))).map (·.1))

/-- LOOP_RELOCK (R360 to R363): event 10 with the loop locked, CLK_LAST_STEP, event 11 beyond the lock window; STEP absorbs φ at
once with a discontinuity record and DISC, on that record itself too (R27), SLEW moves the phase with CLK_STATE 5; a loop that had stopped emits cause 2, its jobs
resume with GENV and DISC. -/
def Chip.relock (c : Chip) (l : Nat) (phi : Int) : Chip :=
  let st := c.reg (loopA l 0)
  if ¬ (st = 3 ∨ st = 4) then c
  else
    let c := c.syncTime
    let stopped := st == 4
    let dur := usBetween (c.loop l).since c.time.now
    let step := c.reg (loopA l 3) == 0
    let c := c.raise 10 (handleBlock 0x0C) l
    let c := c.put (loopA l 9) (ofSigned 32 phi)
    let c := c.put (loopA l 8) (if stopped then c.reg (loopA l 8) else min 0xFFFFFFFF dur)
    let c := if c.reg (loopA l 1) * 100 < phi.natAbs then c.raise 11 (handleBlock 0x0C) (ofSigned 32 phi) else c
    let c := c.rebase.put (loopA l 0) (if step then 2 else 5)
    let c := c.modLoop l fun x => { x with aligning := step, coastedAt := some c.time.now }
    let x := if step then phiCounts phi else 0
    let c := if step && l == 1 then c.stepStudio x else c
    let c := if step && l == 0 then { c with clk := { c.clk with offset := c.clk.offset + phi } } else c
    let c := if step || stopped then ((c.markStreams (fun k => feeds l k && k / 2 ^ 32 != 0x03) stopped true).markStreams (fun k => feeds l k && k / 2 ^ 32 == 0x03) false true).discRecord
        (if stopped then 2 else 1) l x phi dur else c
    if stopped then
      let c := if l = 0 then c.refreshWins 2 true true true else c
      c.resumeAll
    else c

/-! TCXO and XO32K. -/

def Chip.tcxoFail (c : Chip) : Chip :=
  if c.reg 0x231 = 3 then c
  else
    let c := (c.put 0x231 3).raise 12 (handleBlock 0x0C) 0
    ((c.loseLock 0).loseLock 1).loseLock 2

def Chip.xo32kFail (c : Chip) : Chip := if c.reg 0x23C = 1 then c else (c.put 0x23C 1).raise 13 (handleBlock 0x0C) 0

/-! Acquisition. -/

/-- LOOP_LOCK (R357): an acquiring loop is locked; the SPLL's windows start (R72). -/
def Chip.lock (c : Chip) (l : Nat) : Chip :=
  if c.reg (loopA l 0) ≠ 1 then c
  else
    let c := c.syncTime.rebase.put (loopA l 0) 2
    if l = 0 then (c.refreshWins 2 true false false).resumeAll else c

end Sys2Proof.Machine
end

