-- ==== Sys2Proof/Machine/Demod.lean ====
section
/-! DEFINITION. FM and AM demodulation (R134 to R161): detectors and carrier state of a lane at a tick boundary, pilot and loop lock, the audio-grade slots with their curves, attachment and programmes. -/

namespace Sys2Proof.Machine

/-! Who owns a slot or a lane. -/

/-- The slot that ALM_AUD_SLOT names; 31 for none. -/
def Chip.almSlot (c : Chip) : Nat := c.reg 0xC38

/-- The held follow jobs. -/
def Chip.followJobs (c : Chip) : List Job := (c.jobs.filter fun e => dKind e.2.desc == 6).map (·.2)

/-- A follow instance owns FM slot `s`, lane `k` (R268), and the programme `p` (R159). -/
def Chip.followSlot (c : Chip) (s : Nat) : Bool := c.followJobs.any fun x => (fSlots x.desc).contains s
def Chip.followLane (c : Chip) (k : Nat) : Bool := c.followJobs.any fun x => (fLanes x.desc).contains k
def Chip.followProg (c : Chip) (p : Nat) : Bool := c.followJobs.any fun x => fProg x.desc == p

/-- The alarm path claims programme `p`: its slot names it (R159, R261). -/
def Chip.alarmProg (c : Chip) (p : Nat) : Bool := decide (c.almSlot < 16) && c.reg (fmsA c.almSlot 1) == p

/-- The source of programme `p`, as AUD_SRC codes it (R159). -/
def Chip.audSource (c : Chip) (p : Nat) : Nat :=
  if c.alarmProg p then 4
  else if c.followProg p then 3
  else if (List.range 16).any fun s => c.reg (fmsA s 1) == p && c.reg (fmsA s 0) != 0xFF then 1
  else if (List.range 8).any fun s => c.reg (amsA s 1) == p && c.reg (amsA s 0) != 0xFF then 2
  else 0

/-- AUD_SRC. -/
def Chip.audSrc (c : Chip) : Nat := sumList ((List.range 8).map fun p => c.audSource p * 16 ^ p)

/-- The port format does not carry programme `p` (R157). -/
def Chip.noPort (c : Chip) (p : Nat) : Bool := p != 15 && !c.bit 0x640 3 && decide (2 ≤ p)

/-- A slot's programme is held by a source of higher precedence (R159). -/
def Chip.displaced (c : Chip) (fm : Bool) (s : Nat) : Bool :=
  let p := c.reg (if fm then fmsA s 1 else amsA s 1)
  p != 15 && !(fm && s == c.almSlot) && (c.alarmProg p || c.followProg p)

/-- The lane runs the demodulator that a slot of this kind needs (R143, R155). -/
def Chip.slotLaneRuns (c : Chip) (fm : Bool) (k : Nat) : Bool := c.laneRuns k && (if fm then c.laneIsFm k else c.laneIsAm k)

/-- FMS_STATUS[1:0], AMS_STATUS[1:0]. -/
def Chip.slotState (c : Chip) (fm : Bool) (s : Nat) : Nat :=
  if c.reg (if fm then fmsA s 0 else amsA s 0) = 0xFF then 0
  else match (c.slot fm s).lane with
    | none => 1
    | some k => if !c.slotLaneRuns fm k then 1 else if (c.slot fm s).ramped then 3 else 2

/-- FMS_STATUS (Table 05-4). -/
def Chip.fmsStatus (c : Chip) (s : Nat) : Nat :=
  let pilot := match (c.slot true s).lane with | some k => (c.lane k).pilot | none => false
  let aud := c.reg (fmsA s 0x0A)
  c.slotState true s + (if pilot then 4 else 0) + (if bits aud 0 9 != 0 then 8 else 0) + (if bits aud 16 8 != 0 then 16 else 0) +
    (if c.displaced true s then 32 else 0) + (if c.noPort (c.reg (fmsA s 1)) then 64 else 0)

/-- Envelope detection is in use on AM lane `k` (R154). -/
def Chip.amEnvelope (c : Chip) (k : Nat) : Bool := c.laneOption k == 0x02 || (c.laneOption k == 0x04 && (c.lane k).amEnv)

/-- AMS_STATUS (Table 05-5). -/
def Chip.amsStatus (c : Chip) (s : Nat) : Nat :=
  let (lock, env) := match (c.slot false s).lane with | some k => ((c.lane k).amLock, c.amEnvelope k) | none => (false, false)
  c.slotState false s + (if lock then 4 else 0) + (if env then 8 else 0) + (if (c.slot false s).mute != 0 then 16 else 0) +
    (if c.displaced false s then 32 else 0) + (if c.noPort (c.reg (amsA s 1)) then 64 else 0)

/-! Writes of lanes and programmes. -/

/-- A write to FMS_LANE is refused (R143, R161, R261, R268). -/
def Chip.fmsLaneBad (c : Chip) (s v : Nat) : Bool :=
  (160 ≤ v && v != 0xFF) || s == c.almSlot || c.followSlot s ||
    (v != 0xFF && (List.range 16).any fun t => t != s && t != c.almSlot && c.view (fmsA t 0) == v)

def Chip.wrFmsLane (c : Chip) (s v : Nat) : WRes :=
  let v := v % 256
  if c.fmsLaneBad s v then c.no rBad else (c.stage (fmsA s 0) v).yes

/-- A write to AMS_LANE is refused (R143, R155, R161). -/
def Chip.amsLaneBad (c : Chip) (s v : Nat) : Bool :=
  (160 ≤ v && v != 0xFF) || (v != 0xFF && (List.range 8).any fun t => t != s && c.view (amsA t 0) == v)

def Chip.wrAmsLane (c : Chip) (s v : Nat) : WRes :=
  let v := v % 256
  if c.amsLaneBad s v then c.no rBad else (c.stage (amsA s 0) v).yes

/-- Another slot names programme `v`; the alarm slot is exempt (R158). -/
def Chip.progTaken (c : Chip) (fm : Bool) (s v : Nat) : Bool :=
  (List.range 16).any (fun t => !(fm && t == s) && t != c.almSlot && c.reg (fmsA t 1) == v) ||
    (List.range 8).any (fun t => !(!fm && t == s) && c.reg (amsA t 1) == v)

def Chip.destBad (c : Chip) (fm : Bool) (s v : Nat) : Bool :=
  (8 ≤ v && v != 15) || (fm && (s == c.almSlot || c.followSlot s)) || (v != 15 && c.progTaken fm s v)

def Chip.wrFmsDest (c : Chip) (s v : Nat) : WRes :=
  let v := v % 16
  if c.destBad true s v then c.no rBad else (c.put (fmsA s 1) v).yes

def Chip.wrAmsDest (c : Chip) (s v : Nat) : WRes :=
  let v := v % 16
  if c.destBad false s v then c.no rBad else (c.put (amsA s 1) v).yes

/-- A slot's lane comes into force at a boundary (R143, R152): an attached slot ramps out and leaves its old lane. -/
def Chip.applySlotLane (c : Chip) (fm : Bool) (s v : Nat) : Chip :=
  let a := if fm then fmsA s 0 else amsA s 0
  if c.reg a = v then c
  else
    let c := (c.put a v).modSlot fm s fun x => { SlotSt.reset with dsp := x.dsp.rampDown }
    if fm then c.put (fmsA s 0x0A) 0 else c

/-- SLOT_ATTACH (R143, R146, R155): at a tick boundary a waiting slot attaches to its lane; q starts at the first MNR, β at 0. -/
def Chip.attachSlot (c : Chip) (fm : Bool) (s : Nat) : Chip :=
  let k := c.reg (if fm then fmsA s 0 else amsA s 0)
  if k = 0xFF ∨ (c.slot fm s).lane.isSome ∨ ¬ c.slotLaneRuns fm k ∨ c.time.now % 32000 ≠ 0 then c
  else
    let c := c.modSlot fm s fun x => { SlotSt.reset with lane := some k, dsp := x.dsp }
    if fm then c.put (fmsA s 0x0A) (150 * 2 ^ 24) else c

/-- Audio path of a slot, studio counts (Table 05-3). -/
def slotDelay (fm : Bool) : Nat := if fm then 8192 else 16384

/-- SLOT_RAMP_IN_COMPLETE (R152): the lane's first new output has passed the audio path, and 32 audio samples have gone out since. -/
def Chip.rampInSlot (c : Chip) (fm : Bool) (s : Nat) : Chip :=
  match (c.slot fm s).lane with
  | some k => if c.slotLaneRuns fm k ∧ (c.lane k).filled ∧ (c.lane k).dsp.since + c.laneFill k + slotDelay fm + 32 * 1024 ≤ c.time.now then c.modSlot fm s fun x => { x with ramped := true } else c
  | none => c

/-! The lane at a tick boundary. -/

/-- A run of consecutive ticks. -/
def runOf (b : Bool) (n : Nat) : Nat := if b then n + 1 else 0

/-- The lane has a demodulated output (R132, R137, R153, R297). -/
def Chip.demodulates (c : Chip) (k : Nat) : Bool := c.laneIsFm k || c.laneIsAm k

/-- LANE_DETECTOR_LATCH and the runs of R138 and R142 on a lane that was measured over the tick. -/
def Chip.laneTick (c : Chip) (m : LaneMeas) : Chip :=
  let k := m.lane
  if !(c.laneRuns k && (c.lane k).filled) then c
  else
    let dem := c.demodulates k
    let nd : Nat := 0x8000
    let c := c.put (laneA k 0x0B) (m.ifRms.toNat + 65536 * m.ifPeak.toNat)
    let c := c.put (laneA k 0x0C) (if dem then m.demRms.toNat + 65536 * m.demPeak.toNat else nd + 65536 * nd)
    let c := c.put (laneA k 0x0D) (m.ifEnv.toNat + 65536 * (if dem then m.demEnv.toNat else nd))
    let rms := m.ifRms.toInt
    let fm := c.laneIsFm k
    c.modLane k fun l =>
      { l with meas := some m
               mnrs := if fm then (m.mnr :: l.mnrs).take 256 else []
               foundRun := if dem then runOf (decide (c.int 0x5180 16 ≤ rms)) l.foundRun else 0
               lostRun := if dem then runOf (decide (rms < c.int 0x5181 16)) l.lostRun else 0
               pilotOn := if fm then runOf (decide (10 * c.reg 0x5183 ≤ m.pilotDev)) l.pilotOn else 0
               pilotOff := if fm then runOf (decide (m.pilotDev < 10 * c.reg 0x5184)) l.pilotOff else 0
               pilotTicks := if l.pilot then l.pilotTicks + 1 else 0
               amGood := runOf (decide (81 * m.phErr < m.phN * 2 ^ 30)) l.amGood
               amBad := runOf (decide (4 * m.phN * 2 ^ 30 < 81 * m.phErr)) l.amBad }

/-- Detectors of a lane that does not run, or has no sample since its restart, read 0x8000 (R132). -/
def Chip.laneQuiet (c : Chip) (k : Nat) : Chip :=
  if c.laneRuns k && (c.lane k).filled then c
  else
    let none_ := 0x80008000
    ((c.put (laneA k 0x0B) none_).put (laneA k 0x0C) none_).put (laneA k 0x0D) none_

/-- PILOT_LOCK and PILOT_UNLOCK (R138). -/
def Chip.pilotLock (c : Chip) (k : Nat) : Chip :=
  if c.laneRuns k ∧ c.laneIsFm k ∧ 16 ≤ (c.lane k).pilotOn then c.modLane k fun l => { l with pilot := true, pilotTicks := if l.pilot then l.pilotTicks else 0 } else c

def Chip.pilotUnlock (c : Chip) (k : Nat) : Chip :=
  if c.laneRuns k ∧ c.laneIsFm k ∧ 4 ≤ (c.lane k).pilotOff then c.modLane k fun l => { l with pilot := false, pilotTicks := 0 } else c

/-- AM_LOOP_LOCK and AM_LOOP_UNLOCK (R154): the RMS phase error has been below 20° for 16 ticks, or above 40° for 4; option 0x04 changes its detector at
the next boundary. -/
def Chip.amLock (c : Chip) (k : Nat) (locked : Bool) : Chip :=
  let l := c.lane k
  if c.laneRuns k ∧ (c.laneOption k = 0x03 ∨ c.laneOption k = 0x04) ∧ (if locked then 16 ≤ l.amGood else 4 ≤ l.amBad) then
    c.modLane k fun l => { l with amLock := locked }
  else c

/-! Slot curves (R146 to R150, R155), in the units of the slot parameters. -/

/-- q + ((MNR - q) >> k), 0.1 dB. -/
def smooth (q mnr : Int) (k : Nat) : Int := q + (mnr - q) / (2 ^ k : Nat)

/-- A value limited to 0 to `hi`. -/
def clampNat (hi : Nat) (i : Int) : Nat := min hi i.toNat

/-- β_t = floor(256 (q - LO) / (HI - LO)), thresholds in 0.5 dB (R147). -/
def blendTarget (q : Int) (lo hi : Nat) : Nat := clampNat 256 (256 * (q - 5 * lo) / (5 * ((hi : Int) - lo)))

/-- β moves towards its target by at most a step (R147). -/
def blendMove (beta target attack release : Nat) : Nat :=
  if target < beta then max target (beta - attack) else min target (beta + release)

/-- The corner of the high cut, 100 Hz units, rounded to nearest; 150 bypasses (R148). -/
def highCut (q : Int) (lo hi mn : Nat) : Nat :=
  let den : Int := 5 * ((hi : Int) - lo)
  let num := clampInt 0 den (q - 5 * lo)
  clampNat 150 ((2 * ((mn : Int) * den + (150 - (mn : Int)) * num) + den) / (2 * den))

/-- Soft mute attenuation, 0.5 dB, rounded down (R150). -/
def softMute (q : Int) (start slope most : Nat) : Nat := clampNat most ((5 * (start : Int) - q) * slope / 80)

/-- AM soft mute from the IF envelope in 0.01 dBFS (R155). -/
def amSoftMute (env : Int) (start slope most : Nat) : Nat := clampNat most ((-(50 * (start : Int)) - env) * slope / 800)

/-- The soft mute changes: it ramps over the next 32 audio samples (R150). -/
def SlotSt.remute (x : SlotSt) (mute : Nat) : SlotSt :=
  if x.mute = mute then x else { x with mute := mute, dsp := { x.dsp with muteOld := x.mute, muteN := 0 } }

/-- SLOT_AUDIO_UPDATE of an FM slot (R146 to R150): q, the curves, and the figures of FMS_Q to FMS_IND. -/
def Chip.fmSlotTick (c : Chip) (s : Nat) : Chip :=
  match (c.slot true s).lane with
  | none => c
  | some k =>
    match (c.lane k).meas with
    | none => c
    | some m =>
      let x := c.slot true s
      let l := c.lane k
      let cfg := c.reg (fmsA s 2)
      let bl := c.reg (fmsA s 3)
      let sm := c.reg (fmsA s 4)
      let hc := c.reg (fmsA s 5)
      let q := if x.qSet then smooth (toSigned 16 (c.reg (fmsA s 9))) m.mnr (bits cfg 8 4) else m.mnr
      let mono := cfg.testBit 2 || !l.pilot || decide (l.pilotTicks < c.reg (fmsA s 6))
      let target := if mono then 0 else if cfg.testBit 5 then blendTarget q (bits bl 0 8) (bits bl 8 8) else 256
      let beta := if x.ramped then blendMove (c.field (fmsA s 0x0A) 0 9) target (bits bl 16 8) (bits bl 24 8) else 0
      let fc := if cfg.testBit 4 then highCut q (bits hc 0 8) (bits hc 8 8) (bits hc 16 8) else 150
      let mute := if cfg.testBit 3 then softMute q (bits sm 0 8) (bits sm 8 8) (bits sm 16 8) else 0
      let c := c.put (fmsA s 9) (ofSigned 16 q + 65536 * ofSigned 16 m.mnr)
      let c := c.put (fmsA s 0x0A) (beta + 65536 * mute + 2 ^ 24 * fc)
      let c := c.put (fmsA s 0x0B) (min 0xFFFF m.pilotDev + 65536 * ofSigned 16 m.pilotErr)
      let c := c.put (fmsA s 0x0C) (min 1000 m.multipath + 65536 * ofSigned 8 m.adjLo + 2 ^ 24 * ofSigned 8 m.adjHi)
      c.modSlot true s fun y => { y.remute mute with qSet := true, ready := if c.slotState true s = 3 then y.ready + 1 else 0 }

/-- SLOT_AUDIO_UPDATE of an AM slot (R155). -/
def Chip.amSlotTick (c : Chip) (s : Nat) : Chip :=
  match (c.slot false s).lane with
  | none => c
  | some k =>
    match (c.lane k).meas with
    | none => c
    | some m =>
      let sm := c.reg (amsA s 3)
      let mute := if c.bit (amsA s 2) 0 then amSoftMute m.ifEnv.toInt (bits sm 0 8) (bits sm 8 8) (bits sm 16 8) else 0
      let c := c.put (amsA s 6) (ofSigned 16 m.carrier + 65536 * min 0xFFFF m.modulation)
      c.modSlot false s fun y => y.remute mute

/-- Hundredths of a kHz of the pilot's deviation, from the sums of `n` multiplex samples against its cosine and sine. -/
def pilotLevel (n : Nat) (i q : Int) : Nat := if n = 0 then 0 else rootNear (i.natAbs * i.natAbs + q.natAbs * q.natAbs) * 50 / (64 * n * 32767)

/-- A ratio of two bands in 0.5 dB, limited to -64.0 to +63.5 dB (R141). -/
def bandRatio (p q : Nat) : Int := if p = 0 then -128 else if q = 0 then 127 else clampInt (-128) 127 (logRatio 20 p q)

/-- RMS of the high-passed envelope by its mean, per mille, saturated at 1,000 (R140). -/
def multipath (a : LaneAcc) : Nat := if a.envSum = 0 then 0 else min 1000 (rootNear (a.envHigh * a.envN * 1000000) / a.envSum)

/-- What a lane has measured over the tick (R132, R138 to R141, R153, R154). -/
def LaneDsp.measure (d : LaneDsp) (k : Nat) (mn : Bool) : LaneMeas :=
  let a := d.acc
  let f := d.ifDet.latch
  let m := d.demDet.latch
  let w := fun (v : Nat) => BitVec.ofNat 16 v
  let low : Int := if mn then -84 else -128
  { lane := k, ifRms := w f.1, ifPeak := w f.2.1, ifEnv := w f.2.2, demRms := w m.1, demPeak := w m.2.1, demEnv := w m.2.2
    mnr := if a.noise = 0 then 1000 else clampInt 0 1000 (logRatio 100 (19200 * 19200 * a.n) (2 * a.noise))
    pilotDev := pilotLevel a.n a.pilotI a.pilotQ
    pilotErr := (d.pilot.freq - word19k) * 25600000 / (2 ^ 32 : Nat)
    multipath := Sys2Proof.Machine.multipath a
    adjLo := max low (bandRatio a.bands.1 a.bands.2.1)
    adjHi := max low (bandRatio a.bands.2.2 a.bands.2.1)
    carrier := if d.carrier ≤ 0 then -32767 else dbAmp d.carrier.toNat (32767 * 65536)
    modulation := a.peak * 1000 / 32767
    phErr := a.phErr, phN := a.phN }

/-- The running lanes that have given output over the tick, as measured. -/
def Chip.measures (c : Chip) : List LaneMeas :=
  ((List.range 160).filter fun k => c.laneRuns k && (c.lane k).dsp.acc.envN != 0).map fun k => (c.lane k).dsp.measure k (c.laneMin k)

/-- The tick of lane `k` for the measurement jobs on it, at the connector time of its last sample (R301, R313, R314). -/
def Chip.lanePoints (c : Chip) (k : Nat) : Chip :=
  let d := (c.lane k).dsp
  let t := c.laneStamp k (if c.laneIsFm k then 128 else 0) (c.time.now - 1)
  let c := c.swtLane k (.det t (c.reg (laneA k 0x0B)) (c.reg (laneA k 0x0C)) (c.reg (laneA k 0x0D)))
  if c.laneIsFm k then c.swtLane k (.fm t (c.lane k).pilot d.acc d.pilot.freq)
  else if c.laneIsAm k then c.swtLane k (.amTick t (c.lane k).amLock d.am.freq) else c

/-- The lanes and slots at a boundary. -/
def Chip.demodTick (c : Chip) : Chip :=
  let c := c.each (List.range 160) Chip.laneQuiet
  let c := c.each c.measures fun c m => (c.laneTick m).lanePoints m.lane
  let change : LaneSt → LaneSt := fun l => if l.amEnv = !l.amLock then l else { l with amEnv := !l.amLock, dsp := { l.dsp with amFade := 64 } }
  let c := c.each ((List.range 160).filter fun k => c.laneOption k == 0x04 && c.laneRuns k) fun c k => c.modLane k change
  let c := c.each (List.range 16) Chip.fmSlotTick
  let c := c.each (List.range 8) Chip.amSlotTick
  c.each ((List.range 160).filter fun k => (c.lane k).dsp.acc != LaneAcc.clear) fun c k => c.modLane k fun l => { l with dsp := { l.dsp with acc := LaneAcc.clear } }

/-! Carrier found and lost (R142). -/

/-- Frequency of lane `k` in kHz: the window centre in 125/1,024 Hz and the lane's word in 125/16,384 Hz, to nearest. -/
def Chip.laneKHz (c : Chip) (k : Nat) : Nat :=
  ((16 * (c.reg (winA (c.laneWin k) 0) : Int) + toSigned 32 (c.reg (laneA k 1)) + 65536) / 131072).toNat

def Chip.foundNow (c : Chip) (k : Nat) : Bool := c.laneRuns k && c.demodulates k && !(c.lane k).found && decide (4 ≤ (c.lane k).foundRun)

def Chip.lostNow (c : Chip) (k : Nat) : Bool :=
  c.laneRuns k && c.demodulates k && (c.lane k).found && decide (c.reg 0x5182 ≤ (c.lane k).lostRun)

end Sys2Proof.Machine
end

