-- ==== Sys2Proof/Machine/Dac.lean ====
section
/-! DEFINITION. Control outputs (R523 to R537): the source of each channel, update edges with slew and limits, range changes, the sine generators, and the alarm mapping. The 400 ns output hold (R530, R532) is timing and changes no code. -/

namespace Sys2Proof.Machine

def Chip.dac (c : Chip) (ch : Nat) : DacSt := Tbl.get DacSt.reset c.dacs ch
def Chip.modDac (c : Chip) (ch : Nat) (f : DacSt → DacSt) : Chip := { c with dacs := Tbl.mod DacSt.reset c.dacs ch f }

/-- VDD_DAC is valid. -/
def Chip.dacValid (c : Chip) : Bool := !c.power.invalid.testBit 6

/-- The update clock runs: the TCXO is on and valid (R529). -/
def Chip.updateClock (c : Chip) : Bool := c.reg 0x231 == 2

/-- The CLRSEL code of a channel (R527). -/
def Chip.clrCode (c : Chip) (ch : Nat) : Nat :=
  let s := c.field 0xE40 0 2
  if s = 0 then 0 else if s = 1 then 0x8000 else if s = 2 then 0xFFFF else (c.dac ch).prof

/-- A channel's alarm mapping is in force (R534, R535). -/
def Chip.dacAlarm (c : Chip) (ch : Nat) : Bool := (c.bit (dacA ch 4) 0 && c.bit 0xE40 4) || (c.dac ch).hold

/-- Test injection uses the channel (R67). -/
def Chip.dacInjects (c : Chip) (ch : Nat) : Bool := [0, 1].any fun f => c.reg (feA f 0x23) == 1 && c.reg (feA f 0x21) == ch

/-- The source in force, as DAC_STATE codes it, settled for source 6 (R525). -/
def Chip.dacSource (c : Chip) (ch : Nat) : Nat :=
  let d := c.dac ch
  if c.bit 0xE40 2 || d.fresh || d.rangeEdges != 0 then 1
  else if c.dacInjects ch then 5
  else if c.dacAlarm ch then 4
  else if d.sine then 3
  else 0

/-- Present a code of source `st`. -/
def Chip.present (c : Chip) (ch st code : Nat) : Chip := (c.put (dacA ch 0x0A) code).put (dacA ch 9) st

/-- Limit a code to DAC_LIM. -/
def Chip.dacLimit (c : Chip) (ch : Nat) (u : Int) : Nat :=
  (clampInt (c.field (dacA ch 3) 0 16) (c.field (dacA ch 3) 16 16) u).toNat

/-- Present a code of source 5 or 6 within DAC_LIM (R531, DAC_CLAMP). -/
def Chip.presentLimited (c : Chip) (ch st : Nat) (u : Int) : Chip :=
  let v := c.dacLimit ch u
  let c := if (v : Int) = u then c
    else
      let c := c.count (dacA ch 0x0B)
      if (c.dac ch).armed then (c.modDac ch fun d => { d with armed := false }).raise 63 (handleBlock 0x0E) ch else c
  c.present ch st v

/-- One step towards a code under the slew limit; 0 is no limit (R531). -/
def slewStep (cur target slew : Nat) : Nat :=
  if slew = 0 then target
  else if cur < target then min target (cur + slew)
  else max target (cur - slew)

/-- A sine sample before its limit (R533). -/
def sineSample (phase amp ofs : Nat) : Int :=
  let i := bits phase 20 10
  let quad := bits phase 30 2
  let q : Int := ((Config.quarterSine (if quad % 2 = 0 then i else 1023 - i)).toNat : Nat)
  let q := if 2 ≤ quad then -q else q
  (ofs : Int) + (amp * q + 16384) / 32768

/-- Source 6 on an update edge: `applied` where a DAC_CODE write has just taken effect. -/
def Chip.slewEdge (c : Chip) (ch : Nat) (applied : Bool) : Chip :=
  let code := (c.dac ch).code
  let cur := c.reg (dacA ch 0x0A)
  if cur = c.dacLimit ch code ∧ !applied then c.put (dacA ch 9) 0
  else
    let u := slewStep cur code (c.reg (dacA ch 2))
    let c := c.presentLimited ch 2 u
    if c.reg (dacA ch 0x0A) = c.dacLimit ch code then c.put (dacA ch 9) 0 else c

/-- One channel at an update edge. -/
def Chip.dacEdge (c : Chip) (ch : Nat) : Chip :=
  let applied := (c.dac ch).pend
  let c := if applied then c.modDac ch fun d => { d with pend := false, fresh := false, code := c.reg (dacA ch 0) } else c
  let src := c.dacSource ch
  if src = 1 then
    let c := c.present ch 1 (c.clrCode ch)
    c.modDac ch fun d => { d with rangeEdges := d.rangeEdges - 1 }
  else if src = 5 then c.present ch 5 (c.clrCode ch)
  else if src = 4 then c.present ch 4 (c.field (dacA ch 4) 16 16)
  else if src = 3 then
    let ph := ((c.dac ch).phase + c.reg (dacA ch 6)) % 2 ^ 32
    (c.modDac ch fun d => { d with phase := ph }).presentLimited ch 3 (sineSample ph (c.reg (dacA ch 7)) (c.reg (dacA ch 8)))
  else c.slewEdge ch applied

/-- DAC_UPDATE_EDGE. -/
def Chip.updateEdge (c : Chip) : Chip := if c.dacValid && c.updateClock then c.each [0, 1, 2, 3] Chip.dacEdge else c

/-! Writes. -/

/-- DAC_CODE (R529, R535): stored; it takes effect at the first update edge, and requests the TCXO where no update clock runs. -/
def Chip.wrDacCode (c : Chip) (ch v : Nat) : WRes :=
  let c := c.put (dacA ch 0) v
  let c := c.modDac ch fun d => { d with pend := true, armed := true, hold := false }
  (if c.updateClock then c else { c with clk := { c.clk with tcxoEn := true } }).yes

/-- DAC_RANGE (R523, R532). -/
def Chip.wrDacRange (c : Chip) (ch v : Nat) : WRes :=
  let v := v % 2
  if v = 1 ∧ ¬ c.bit 0xE40 3 then c.no rBad
  else if v = c.view (dacA ch 1) then c.yes
  else if c.dacAlarm ch || (c.dac ch).sine || c.dacInjects ch then c.no rBad
  else (c.stage (dacA ch 1) v).yes

/-- DAC_RANGE comes into force at a boundary (R532). -/
def Chip.applyDacRange (c : Chip) (ch v : Nat) : Chip :=
  if c.reg (dacA ch 1) = v then c
  else ((c.put (dacA ch 1) v).modDac ch fun d => { d with fresh := false, rangeEdges := 16 }).present ch 1 (c.clrCode ch)

/-- DAC_SINE_CTRL: start (R533). -/
def Chip.sineStart (c : Chip) (ch : Nat) : WRes :=
  if c.dacAlarm ch then c.no rBad
  else
    let c := if c.updateClock then c else { c with clk := { c.clk with tcxoEn := true } }
    (c.modDac ch fun d => { d with sineReq := some true }).yes

/-- DAC_SINE_CTRL: stop (R533). -/
def Chip.sineStop (c : Chip) (ch : Nat) : WRes := (c.modDac ch fun d => { d with sineReq := some false }).yes

/-- Starts and stops at a tick boundary. -/
def Chip.dacTick (c : Chip) : Chip :=
  c.each [0, 1, 2, 3] fun c ch => match (c.dac ch).sineReq with
    | none => c
    | some on => c.modDac ch fun d =>
        if on then { d with sineReq := none, sine := true, phase := 0, armed := true, fresh := false } else { d with sineReq := none, sine := false }

/-! Alarm mapping (R534, R535). -/

def Chip.dacMap (c : Chip) : Chip :=
  let c := c.putBit 0xE40 4 true
  c.each [0, 1, 2, 3] fun c ch =>
    if c.bit (dacA ch 4) 0 then c.modDac ch fun d => { d with sine := false, sineReq := none, fresh := false } else c

def Chip.dacUnmap (c : Chip) : Chip :=
  let c := c.putBit 0xE40 4 false
  c.each [0, 1, 2, 3] fun c ch =>
    if c.bit (dacA ch 4) 0 then c.modDac ch fun d => { d with hold := c.bit (dacA ch 4) 1, fresh := false } else c

/-! Pins and the rail (R526 to R528). -/

def Chip.clrFall (c : Chip) (clrsel : Nat) : Chip :=
  if !c.dacValid then c
  else
    let c := (c.putField 0xE40 0 2 clrsel).putBit 0xE40 2 true
    c.each [0, 1, 2, 3] fun c ch => c.present ch 1 (c.clrCode ch)

/-- DAC_CLR_N rises: each channel returns to its source at once, without the slew limit. -/
def Chip.clrRise (c : Chip) : Chip :=
  if !c.dacValid then c
  else
    let c := c.putBit 0xE40 2 false
    c.each [0, 1, 2, 3] fun c ch =>
      let src := c.dacSource ch
      if src = 1 ∨ src = 5 then c.present ch src (c.clrCode ch)
      else if src = 4 then c.present ch 4 (c.field (dacA ch 4) 16 16)
      else if src = 3 then c.presentLimited ch 3 (sineSample (c.dac ch).phase (c.reg (dacA ch 7)) (c.reg (dacA ch 8)))
      else c.presentLimited ch 0 (c.dac ch).code

/-- VDD_DAC has been valid for 1 ms: its class is sensed, CLRSEL sampled, and the DAC's generation steps (R527, R528). -/
def Chip.dacRailValid (c : Chip) (mv clrsel : Nat) : Chip :=
  let five := decide (4500 ≤ mv)
  let c := { c with power := { c.power with invalid := setBits c.power.invalid 6 1 0 } }
  let c := (c.putField 0xE40 0 2 clrsel).putBit 0xE40 3 five
  let c := c.stepGenAt 0xE41
  c.each [0, 1, 2, 3] fun c ch =>
    let c := (c.put (dacA ch 1) (if five then 1 else 0)).modDac ch fun d =>
      { d with fresh := true, sine := false, sineReq := none, hold := false, rangeEdges := 0 }
    c.present ch 1 (c.clrCode ch)

/-- VDD_DAC falls below its valid threshold: the outputs are undefined (R528). -/
def Chip.dacRailLost (c : Chip) : Chip :=
  let c := { c with power := { c.power with invalid := setBits c.power.invalid 6 1 1 } }
  c.each [0, 1, 2, 3] fun c ch =>
    let (w, c) := c.freeWord
    c.put (dacA ch 0x0A) w.toNat

end Sys2Proof.Machine
end

