-- ==== Sys2Proof/Machine/Aes.lean ====
section
/-! DEFINITION. The primitives that Varnish computes (R538, R540, R545): AES-128 and AES-256 of FIPS 197, CMAC of NIST SP 800-38B, and the key wrap of RFC 3394 with its default initial value. Randomised timing changes no result (R539) and is left out. -/

namespace Sys2Proof.Machine

/-- The S-box of FIPS 197. -/
def sbox : List Byte :=
  [0x63, 0x7C, 0x77, 0x7B, 0xF2, 0x6B, 0x6F, 0xC5, 0x30, 0x01, 0x67, 0x2B, 0xFE, 0xD7, 0xAB, 0x76] ++
  [0xCA, 0x82, 0xC9, 0x7D, 0xFA, 0x59, 0x47, 0xF0, 0xAD, 0xD4, 0xA2, 0xAF, 0x9C, 0xA4, 0x72, 0xC0] ++
  [0xB7, 0xFD, 0x93, 0x26, 0x36, 0x3F, 0xF7, 0xCC, 0x34, 0xA5, 0xE5, 0xF1, 0x71, 0xD8, 0x31, 0x15] ++
  [0x04, 0xC7, 0x23, 0xC3, 0x18, 0x96, 0x05, 0x9A, 0x07, 0x12, 0x80, 0xE2, 0xEB, 0x27, 0xB2, 0x75] ++
  [0x09, 0x83, 0x2C, 0x1A, 0x1B, 0x6E, 0x5A, 0xA0, 0x52, 0x3B, 0xD6, 0xB3, 0x29, 0xE3, 0x2F, 0x84] ++
  [0x53, 0xD1, 0x00, 0xED, 0x20, 0xFC, 0xB1, 0x5B, 0x6A, 0xCB, 0xBE, 0x39, 0x4A, 0x4C, 0x58, 0xCF] ++
  [0xD0, 0xEF, 0xAA, 0xFB, 0x43, 0x4D, 0x33, 0x85, 0x45, 0xF9, 0x02, 0x7F, 0x50, 0x3C, 0x9F, 0xA8] ++
  [0x51, 0xA3, 0x40, 0x8F, 0x92, 0x9D, 0x38, 0xF5, 0xBC, 0xB6, 0xDA, 0x21, 0x10, 0xFF, 0xF3, 0xD2] ++
  [0xCD, 0x0C, 0x13, 0xEC, 0x5F, 0x97, 0x44, 0x17, 0xC4, 0xA7, 0x7E, 0x3D, 0x64, 0x5D, 0x19, 0x73] ++
  [0x60, 0x81, 0x4F, 0xDC, 0x22, 0x2A, 0x90, 0x88, 0x46, 0xEE, 0xB8, 0x14, 0xDE, 0x5E, 0x0B, 0xDB] ++
  [0xE0, 0x32, 0x3A, 0x0A, 0x49, 0x06, 0x24, 0x5C, 0xC2, 0xD3, 0xAC, 0x62, 0x91, 0x95, 0xE4, 0x79] ++
  [0xE7, 0xC8, 0x37, 0x6D, 0x8D, 0xD5, 0x4E, 0xA9, 0x6C, 0x56, 0xF4, 0xEA, 0x65, 0x7A, 0xAE, 0x08] ++
  [0xBA, 0x78, 0x25, 0x2E, 0x1C, 0xA6, 0xB4, 0xC6, 0xE8, 0xDD, 0x74, 0x1F, 0x4B, 0xBD, 0x8B, 0x8A] ++
  [0x70, 0x3E, 0xB5, 0x66, 0x48, 0x03, 0xF6, 0x0E, 0x61, 0x35, 0x57, 0xB9, 0x86, 0xC1, 0x1D, 0x9E] ++
  [0xE1, 0xF8, 0x98, 0x11, 0x69, 0xD9, 0x8E, 0x94, 0x9B, 0x1E, 0x87, 0xE9, 0xCE, 0x55, 0x28, 0xDF] ++
  [0x8C, 0xA1, 0x89, 0x0D, 0xBF, 0xE6, 0x42, 0x68, 0x41, 0x99, 0x2D, 0x0F, 0xB0, 0x54, 0xBB, 0x16]

def subByte (b : Byte) : Byte := sbox.getD b.toNat 0
def invSubByte (b : Byte) : Byte := b8 (sbox.findIdx (· == b))

/-- Multiplication by x in the field of AES. -/
def xtime (b : Byte) : Byte := if b.msb then (b <<< 1) ^^^ 0x1B else b <<< 1

/-- Multiplication of `b` by a small constant, bit by bit. -/
def gmul : Nat → Byte → Nat → Byte
  | 0, _, _ => 0
  | n + 1, b, k => (if k % 2 = 1 then b else 0) ^^^ gmul n (xtime b) (k / 2)

def xorBytes (a b : List Byte) : List Byte := List.zipWith (· ^^^ ·) a b

/-- Column `c` of a state, and the state's bytes at indices. -/
def column (s : List Byte) (c : Nat) : List Byte := (s.drop (4 * c)).take 4
def gather (s : List Byte) (idx : List Nat) : List Byte := idx.map fun i => s.getD i 0

/-- Byte i of a state is row i mod 4 of column i / 4; row r rotates left by r. -/
def shiftRows (s : List Byte) : List Byte := gather s ((List.range 16).map fun i => (i + 4 * (i % 4)) % 16)
def invShiftRows (s : List Byte) : List Byte := gather s ((List.range 16).map fun i => (i + 16 - 4 * (i % 4)) % 16)

/-- One column times the circulant of the four constants. -/
def mixColumn (k0 k1 k2 k3 : Nat) (c : List Byte) : List Byte :=
  let g := fun k i => gmul 4 (c.getD i 0) k
  [g k0 0 ^^^ g k1 1 ^^^ g k2 2 ^^^ g k3 3, g k3 0 ^^^ g k0 1 ^^^ g k1 2 ^^^ g k2 3,
   g k2 0 ^^^ g k3 1 ^^^ g k0 2 ^^^ g k1 3, g k1 0 ^^^ g k2 1 ^^^ g k3 2 ^^^ g k0 3]

def mixColumns (s : List Byte) : List Byte := ((List.range 4).map fun i => mixColumn 2 3 1 1 (column s i)).flatten
def invMixColumns (s : List Byte) : List Byte := ((List.range 4).map fun i => mixColumn 14 11 13 9 (column s i)).flatten

/-- The key schedule: the words so far are `ws`, newest first; `nk` words of key, `n` words to go, round constant `rc`. -/
def expandKey (nk : Nat) : Nat → List (List Byte) → Byte → List (List Byte)
  | 0, ws, _ => ws
  | n + 1, ws, rc =>
    let i := ws.length
    let t := ws.headD []
    let old := ws.getD (nk - 1) []
    if i % nk = 0 then
      let r := (gather t [1, 2, 3, 0]).map subByte
      expandKey nk n (xorBytes old (xorBytes r [rc, 0, 0, 0]) :: ws) (xtime rc)
    else if nk = 8 ∧ i % nk = 4 then expandKey nk n (xorBytes old (t.map subByte) :: ws) rc
    else expandKey nk n (xorBytes old t :: ws) rc

/-- Cut a list into pieces of `k`. -/
def chunks (k : Nat) : Nat → List Byte → List (List Byte)
  | 0, _ => []
  | n + 1, l => l.take k :: chunks k n (l.drop k)

/-- Rounds of a key: 10 for 16 bytes, 14 for 32. -/
def roundsOf (key : List Byte) : Nat := key.length / 4 + 6

/-- The round keys, first to last. -/
def roundKeys (key : List Byte) : List (List Byte) :=
  let nk := key.length / 4
  let n := 4 * (roundsOf key + 1)
  chunks 16 (roundsOf key + 1) ((expandKey nk (n - nk) (chunks 4 nk key).reverse 1).reverse.flatten)

def aesRounds : List (List Byte) → List Byte → List Byte
  | [], s => s
  | [k], s => xorBytes (shiftRows (s.map subByte)) k
  | k :: r, s => aesRounds r (xorBytes (mixColumns (shiftRows (s.map subByte))) k)

/-- Encipher one block of 16 bytes. -/
def aesEnc (key block : List Byte) : List Byte := match roundKeys key with
  | [] => block
  | k :: r => aesRounds r (xorBytes block k)

def aesInvRounds : List (List Byte) → List Byte → List Byte
  | [], s => s
  | [k], s => xorBytes ((invShiftRows s).map invSubByte) k
  | k :: r, s => aesInvRounds r (invMixColumns (xorBytes ((invShiftRows s).map invSubByte) k))

/-- Decipher one block of 16 bytes. -/
def aesDec (key block : List Byte) : List Byte := match (roundKeys key).reverse with
  | [] => block
  | k :: r => aesInvRounds r (xorBytes block k)

/-! CMAC. -/

/-- Shift a block left by one bit. -/
def shl1 : List Byte → List Byte
  | [] => []
  | [b] => [b <<< 1]
  | b :: c :: r => ((b <<< 1) ||| (if c.msb then 1 else 0)) :: shl1 (c :: r)

/-- Doubling in the field of 2^128. -/
def dbl (l : List Byte) : List Byte :=
  let s := shl1 l
  if (l.headD 0).msb then s.take 15 ++ [s.getD 15 0 ^^^ 0x87] else s

def zeros (n : Nat) : List Byte := List.replicate n 0

/-- Chain complete blocks into `x`. -/
def cbcBlocks (key : List Byte) : Nat → List Byte → List Byte → List Byte
  | 0, x, _ => x
  | n + 1, x, m => cbcBlocks key n (aesEnc key (xorBytes x (m.take 16))) (m.drop 16)

/-- Finish a CMAC: chaining value `x`, last bytes `m` (up to 16): a complete last block takes K1, any other the padding and K2. -/
def cmacLast (key x m : List Byte) : List Byte :=
  let k1 := dbl (aesEnc key (zeros 16))
  let last := if m.length = 16 then xorBytes m k1 else xorBytes (m ++ [0x80] ++ zeros (15 - m.length)) (dbl k1)
  aesEnc key (xorBytes x last)

/-- Complete blocks that come before the last one. -/
def fullBlocks (n : Nat) : Nat := (n - 1) / 16

/-- CMAC of a message (R538). -/
def cmac (key m : List Byte) : List Byte :=
  cmacLast key (cbcBlocks key (fullBlocks m.length) (zeros 16) m) (m.drop (16 * fullBlocks m.length))

/-! Key wrap. -/

/-- A number as 8 bytes, most significant first. -/
def be8 (n : Nat) : List Byte := ((List.range 8).map fun i => b8 (n / 256 ^ i)).reverse

/-- One pass of a wrap over the blocks, `t` its step number. -/
def wrapPass (key : List Byte) : Nat → List Byte → List (List Byte) → List Byte × List (List Byte)
  | _, a, [] => (a, [])
  | t, a, r :: rest =>
    let b := aesEnc key (a ++ r)
    let (a', rest') := wrapPass key (t + 1) (xorBytes (b.take 8) (be8 t)) rest
    (a', b.drop 8 :: rest')

def wrapLoop (key : List Byte) : Nat → Nat → List Byte → List (List Byte) → List Byte × List (List Byte)
  | 0, _, a, r => (a, r)
  | n + 1, t, a, r => let (a', r') := wrapPass key t a r; wrapLoop key n (t + r.length) a' r'

/-- RFC 3394 wrap. -/
def keyWrap (key data : List Byte) : List Byte :=
  let n := data.length / 8
  let (a, r) := wrapLoop key 6 1 (List.replicate 8 0xA6) (chunks 8 n data)
  a ++ r.flatten

/-- One pass of an unwrap over the blocks in reverse, `t` its step number, falling. -/
def unwrapPass (key : List Byte) : Nat → List Byte → List (List Byte) → List Byte × List (List Byte)
  | _, a, [] => (a, [])
  | t, a, r :: rest =>
    let b := aesDec key (xorBytes a (be8 t) ++ r)
    let (a', rest') := unwrapPass key (t - 1) (b.take 8) rest
    (a', b.drop 8 :: rest')

def unwrapLoop (key : List Byte) : Nat → Nat → List Byte → List (List Byte) → List Byte × List (List Byte)
  | 0, _, a, r => (a, r)
  | n + 1, t, a, r => let (a', r') := unwrapPass key t a r; unwrapLoop key n (t - r.length) a' r'

/-- RFC 3394 unwrap; `none` where the integrity check fails. -/
def keyUnwrap (key data : List Byte) : Option (List Byte) :=
  let n := data.length / 8 - 1
  let (a, r) := unwrapLoop key 6 (6 * n) (data.take 8) (chunks 8 n (data.drop 8)).reverse
  if a = List.replicate 8 0xA6 then some r.reverse.flatten else none

end Sys2Proof.Machine
end

