-- ==== Sys2Proof/Machine/Gallery.lean ====
section
/-! DEFINITION. The Gallery and its AF pool (R241 to R250), and broadcast time from its sources (R251 to R255). -/

namespace Sys2Proof.Machine

/-! Entries. -/

/-- The lowest number at or above `n` that a rising list leaves out. -/
def lowestGap : List Nat → Nat → Nat
  | [], n => n
  | u :: r, n => if u = n then lowestGap r (n + 1) else if u < n then lowestGap r n else n

/-- Gallery entries in use, lowest first (kind not 0). -/
def Chip.galUsed (c : Chip) : List Nat :=
  c.gallery.filterMap fun x => if x.1 % 8 = 1 ∧ bits x.2.toNat 0 3 ≠ 0 then some (x.1 / 8) else none

/-- AF pool entries in use, lowest first: a frequency stands in them. -/
def Chip.afUsed (c : Chip) : List Nat :=
  c.afPool.filterMap fun x => if x.1 % 2 = 0 ∧ bits x.2.toNat 0 18 ≠ 0 then some (x.1 / 2) else none

/-- The entry of a kind and identity (R241). -/
def Chip.galFind (c : Chip) (kind ident : Nat) : Option Nat :=
  c.galUsed.find? fun e => c.galKind e == kind && c.galW e 0 == ident

/-- GAL_COUNT and GAL_AF_COUNT; event 44 re-arms below 16,128 entries (R245). -/
def Chip.galCounts (c : Chip) : Chip :=
  let n := c.galUsed.length
  let c := (c.put 0xC00 n).put 0xC01 c.afUsed.length
  if n < 16128 then { c with gal := { c.gal with full := false } } else c

/-- An entry has changed: event 43 names the lowest at the next boundary (R243). -/
def Chip.galMark (c : Chip) (e : Nat) : Chip :=
  { c with gal := { c.gal with dirty := some (match c.gal.dirty with | some d => min d e | none => e) } }

/-- A reception writes a field of an entry (R243). -/
def Chip.galField (c : Chip) (e w lo n v : Nat) : Chip :=
  let x := setBits (c.galW e w) lo n v
  if c.galW e w = x then c else (c.setGalW e w x).galMark e

def Chip.galHas (c : Chip) (e i : Nat) : Bool := (c.galW e 1).testBit i
def Chip.galAge (c : Chip) (e : Nat) : Nat := bits (c.galW e 7) 0 16
def Chip.afHead (c : Chip) (e : Nat) : Nat := bits (c.galW e 6) 0 14

/-- The chain of AF entries from `a` (R249). -/
def Chip.afFrom (c : Chip) (a : Nat) : Nat → List Nat
  | 0 => []
  | n + 1 => if a = 0x3FFF then [] else a :: c.afFrom (bits (c.afW a 1) 0 14) n

/-- The AF chain of entry `e`; GAL_AF_MAX bounds it. -/
def Chip.afChain (c : Chip) (e : Nat) : List Nat := c.afFrom (c.afHead e) 64

/-- Free the AF entries of `e`. -/
def Chip.afFree (c : Chip) (e : Nat) : Chip :=
  (c.each (c.afChain e) fun c a => (c.setAfW a 0 0).setAfW a 1 0).setGalW e 6 (setBits (c.galW e 6) 0 14 0x3FFF)

/-- Free an entry with its AF entries. -/
def Chip.galFree (c : Chip) (e : Nat) : Chip := (c.afFree e).each (List.range 8) fun c w => c.setGalW e w 0

/-- The entry that an eviction takes: of the highest age, at least GAL_EVICT_MIN, among those not held, pinned, followed or alarm active; ties to the lowest number (R245). -/
def Chip.evictable (c : Chip) : Option Nat :=
  let ok := c.galUsed.filter fun e => !c.galHas e 24 && !c.galHas e 25 && !c.galHas e 30 && !c.galHas e 28 && decide (c.reg 0xC03 ≤ c.galAge e)
  ok.foldl (fun best e => match best with
    | some b => if c.galAge b < c.galAge e then some e else some b
    | none => some e) none

/-- Event 44 at the first eviction or drop (R245). -/
def Chip.galFullEvent (c : Chip) : Chip :=
  if c.gal.full then c else { c with gal := { c.gal with full := true } }.raise 44 (handleBlock 0x09) c.galUsed.length

/-- A new entry of a kind and identity at `e`: no AF entry, no home. -/
def Chip.galNew (c : Chip) (e kind ident : Nat) : Chip :=
  let c := c.setGalW e 0 ident
  let c := c.setGalW e 1 (kind + (if kind = 3 ∧ 0xFFFF < ident then 8 else 0))
  let c := (c.setGalW e 6 0x3FFF).setGalW e 7 (0x3FFF * 65536)
  ((c.galMark e).count 0xC08).galCounts

/-- GALLERY_INSERT and GALLERY_EVICT (R242, R245): the entry of an identity, inserted where it has none. -/
def Chip.galInsert (c : Chip) (kind ident : Nat) : Option Nat × Chip :=
  match c.galFind kind ident with
  | some e => (some e, c)
  | none =>
    let e := lowestGap c.galUsed 0
    if e < 16384 then (some e, c.galNew e kind ident)
    else
      let c := c.galFullEvent
      match c.evictable with
      | some v => (some v, (((c.galFree v).count 0xC09).galNew v kind ident))
      | none => (none, (c.count 0xC0A))

/-- An entry is received on lane `k` (R241, R244). -/
def Chip.galHold (c : Chip) (k e : Nat) : Chip :=
  let l := c.holdsOf k
  let c := if l.contains e then c else { c with gal := { c.gal with holds := Tbl.set [] c.gal.holds k (l ++ [e]) } }
  let c := c.galBit e 24 true
  { c with gal := { c.gal with seen := Tbl.set false c.gal.seen e true } }

/-- GALLERY_AGEING (R244). -/
def Chip.galAgeing (c : Chip) : Chip :=
  let c := c.each c.galUsed fun c e =>
    let age := if Tbl.get false c.gal.seen e then 0 else min 0xFFFF (c.galAge e + 1)
    c.setGalW e 7 (setBits (c.galW e 7) 0 16 age)
  { c with gal := { c.gal with seen := [] } }

/-- GAL_CTRL takes effect at a boundary (R248, R265). -/
def Chip.applyGalCtrl (c : Chip) (v : Nat) : Chip :=
  let e := bits v 0 14
  let op := bits v 16 2
  if c.galKind e = 0 then c.put 0xC06 2
  else if op = 1 then (c.galBit e 25 true).put 0xC06 1
  else if op = 2 then (c.galBit e 25 false).put 0xC06 1
  else if c.galHas e 24 || c.galHas e 28 || c.galHas e 30 then c.put 0xC06 2
  else ((c.galFree e).galCounts).put 0xC06 1

/-- A write to GAL_CTRL (R248, R265): operation 0 is reserved. -/
def Chip.wrGalCtrl (c : Chip) (v : Nat) : WRes := if bits v 16 2 = 0 then c.no rBad else (c.stage 0xC05 v).yes

/-! The AF pool. -/

/-- Table 08-8 word 0. -/
def afWord (kHz kind source : Nat) (confirmed regional : Bool) : Nat :=
  kHz % 2 ^ 18 + kind * 2 ^ 18 + source * 2 ^ 20 + (if confirmed then 2 ^ 23 else 0) + (if regional then 2 ^ 24 else 0)

/-- A frequency is dropped (R249). -/
def Chip.afDrop (c : Chip) : Chip := c.count 0xC0B

/-- Put a new AF entry at `a`, at the end of the chain of `e`. -/
def Chip.afAppend (c : Chip) (e a w : Nat) : Chip :=
  let c := (c.setAfW a 0 w).setAfW a 1 (0x3FFF + 65536)
  let c := match ((c.afChain e).filter (· != a)).getLast? with
    | some last => c.setAfW last 1 (setBits (c.afW last 1) 0 14 a)
    | none => c.setGalW e 6 (setBits (c.galW e 6) 0 14 a)
  (c.galMark e).galCounts

/-- A reception lists a frequency for entry `e` (R249): its count grows, or a new AF entry is taken, from the unconfirmed one of
the lowest count, the pool, or the chain that an eviction would free. `heard` marks the identity verified there and the home. -/
def Chip.afAdd (c : Chip) (e kHz kind source : Nat) (regional heard : Bool) : Chip :=
  let chain := c.afChain e
  let home := fun (c : Chip) (a : Nat) => if heard then c.galField e 7 16 14 a else c
  match chain.find? fun a => bits (c.afW a 0) 0 18 == kHz && bits (c.afW a 0) 18 2 == kind with
  | some a =>
    let c := c.setAfW a 1 (setBits (c.afW a 1) 16 8 (min 255 (bits (c.afW a 1) 16 8 + 1)))
    let c := if heard then c.setAfW a 0 (setBits (c.afW a 0) 23 1 1) else if regional then c.setAfW a 0 (setBits (c.afW a 0) 24 1 1) else c
    home c a
  | none =>
    let w := afWord kHz kind source heard regional
    if c.reg 0xC04 ≤ chain.length then
      let weak := (chain.filter fun a => !(c.afW a 0).testBit 23).foldl (fun best a => match best with
        | some b => if bits (c.afW a 1) 16 8 < bits (c.afW b 1) 16 8 then some a else some b
        | none => some a) none
      match weak with
      | some a => home ((((c.setAfW a 0 w).setAfW a 1 (setBits (c.afW a 1) 16 8 1)).galMark e)) a
      | none => c.afDrop
    else
      let a := lowestGap c.afUsed 0
      if a < 8192 then home (c.afAppend e a w) a
      else match c.evictable with
        | none => c.afDrop
        | some v => match c.afChain v with
          | [] => c.afDrop
          | a :: _ =>
            let c := c.setGalW v 6 (setBits (c.galW v 6) 0 14 (bits (c.afW a 1) 0 14))
            let c := if bits (c.galW v 7) 16 14 = a then c.setGalW v 7 (setBits (c.galW v 7) 16 14 0x3FFF) else c
            home (c.afAppend e a w) a

/-! Fields shared by the systems. -/

/-- The bytes of a label that an entry stores: up to 16, cut on a character boundary (Table 08-7); in UTF-8 a byte 10xxxxxx begins no character. -/
def cutLabel (charset : Nat) (text : List Byte) : List Byte :=
  let starts := fun n => match text[n]? with
    | some b => b.toNat / 64 != 2
    | none => true
  text.take (if charset = 1 then ([16, 15, 14, 13].find? starts).getD 16 else 16)

/-- The label of an entry: up to 16 bytes, zero filled, with its charset; complete (Table 08-7). -/
def Chip.galLabel (c : Chip) (e charset : Nat) (text : List Byte) : Chip :=
  let t := cutLabel charset text
  let w := fun i => leAt (t ++ List.replicate 16 0) (4 * i) 4
  let c := c.each (List.range 4) fun c i => c.galField e (2 + i) 0 32 (w i)
  let c := c.galField e 1 13 1 (if 16 < text.length then 1 else 0)
  (c.galField e 1 14 2 charset).galField e 1 26 1 1

/-- The linkage fields of an entry (Table 08-7). -/
def Chip.galLink (c : Chip) (e lsn : Nat) (linked hard intl : Bool) : Chip :=
  c.galField e 6 16 15 (lsn % 4096 + (if linked then 4096 else 0) + (if hard then 8192 else 0) + (if intl then 16384 else 0))

/-- GALLERY_UPDATED (R243). -/
def Chip.galTick (c : Chip) : Chip :=
  match c.gal.dirty with
  | none => c
  | some e => { c with gal := { c.gal with dirty := none } }.raise 43 (handleBlock 0x09) e

/-! Records of a lane. -/

/-- The front ends that feed lane `k`. -/
def Chip.feedLane (c : Chip) (k : Nat) : List Nat :=
  let one := fun w => if w ≤ 11 ∧ c.winSrc w < 2 then [c.winSrc w] else []
  one (c.laneWin k) ++ (if c.laneCombines k then one (c.laneWin2 k) else [])

/-- A calibration step touched one of these front ends since `ref` (R402). -/
def Chip.calFlag (c : Chip) (fes : List Nat) (ref : Nat) : Nat :=
  if fes.any fun f => match (c.fe f).calAt with | some t => decide (ref ≤ t) | none => false then 0x80 else 0

/-- Lane `k` is tuned inside path L, 0.1 to 30 MHz, and test injection ran on a front end that feeds it since `ref` (R67). -/
def Chip.injFlag (c : Chip) (k : Nat) (ref : Nat) : Nat :=
  let ran := fun (f : Nat) => c.injecting f || match (c.fe f).injAt with | some t => decide (ref ≤ t) | none => false
  if decide (100 ≤ c.laneKHz k) && decide (c.laneKHz k ≤ 30000) && (c.feedLane k).any ran then 0x80 else 0

/-- COAST and CAL of a record of lane `k` whose interval began at `ref`. -/
def Chip.laneFlags (c : Chip) (k ref : Nat) : Nat := c.coastFlag [0, 1] ref ||| c.calFlag (c.feedLane k) ref ||| c.injFlag k ref

/-! Broadcast time. -/

/-- MJD 40587 is 1 January 1970. -/
def utcMs (mjd ms : Nat) : Int := ((mjd : Int) - 40587) * 86400000 + ms

/-- 120 s of studio time. -/
def silence : Nat := 120 * 32768000

/-- The lane and rank of a source key. -/
def srcLane (key : Nat) : Nat := key % 256
def srcRank (key : Nat) : Nat := key / 256

/-- IF RMS of a lane as last latched (R253). -/
def Chip.ifLevel (c : Chip) (k : Nat) : Int := toSigned 16 (c.reg (laneA k 0x0B))

/-- The better of two sources: the lower rank, then the higher level (R253). -/
def Chip.betterSrc (c : Chip) (a b : Nat) : Nat :=
  if srcRank a < srcRank b then a else if srcRank b < srcRank a then b
  else if c.ifLevel (srcLane a) < c.ifLevel (srcLane b) then b else a

/-- The choice at an accepted message of source `key` (R253). -/
def Chip.chooseSource (c : Chip) (key : Nat) : Option Nat :=
  if c.bit 0xC20 3 then
    let h := c.reg 0xC21
    if hLevel h = 3 ∧ hLane h = srcLane key then some key
    else match c.timeUse with
      | some u => if hLane h = srcLane u then some u else none
      | none => none
  else
    let live := c.times.filterMap fun x => match x.2.accepted with
      | some t => if c.time.now - t < silence then some x.1 else none
      | none => none
    let best := live.foldl c.betterSrc key
    match c.timeUse with
    | none => some best
    | some u => if srcRank key < srcRank u ∨ (u ≠ key ∧ (c.timeStale ∨ ¬ live.contains u)) then some best else some u

/-- TIME_MESSAGE_ACCEPTED (R252 to R255, R369): a message of rank `rank` on lane `k`. `bitNo` is its enable in TIM_SRC_CFG. The first
message of a source is the reference of the next. -/
def Chip.timeMessage (c : Chip) (k rank bitNo : Nat) (long : Bool) (mjd ms : Nat) (lsi : Bool) (lto ref : Nat) : Chip :=
  if !c.bit 0xC20 bitNo then c
  else
    let key := rank * 256 + k
    let utc := utcMs mjd ms
    let prev := Tbl.find c.times key
    let src : TimSrc := match prev with
      | some p => { p with utc := utc, ref := ref }
      | none => { utc := utc, ref := ref, accepted := none }
    let agrees := match prev with
      | some p => decide (((utc - p.utc) * 32768 - ((ref : Int) - p.ref)).natAbs ≤ (if long then 2 else 1000) * 32768)
      | none => false
    let c := { c with times := Tbl.put c.times key src }
    if !agrees || mjd < c.reg 0xC25 then c
    else
      let c := { c with times := Tbl.put c.times key { src with accepted := some c.time.now } }
      let use := c.chooseSource key
      let c := { c with timeUse := use, timeStale := c.timeStale && use != some key && use == c.timeUse }
      let inUse := use == some key
      let c := c.put 0xC22 (match use with | some u => c.handleLane (srcLane u) | none => 0)
      let c := (c.put 0xC26 mjd).put 0xC27 ms
      let body := le 4 (mjd % 2 ^ 17 + (if lsi then 2 ^ 17 else 0) + (if long then 2 ^ 18 else 0) + (if inUse then 2 ^ 19 else 0)) ++
        le 4 ms ++ [b8 lto, b8 rank, 0, 0]
      let c := c.produce { ty := 0x05, handle := c.handleLaneAt k ref, ts := ref, ref := ref, body := body, job := none, flags := c.laneFlags k ref }
      let c := c.raise 42 (c.handleLane k) rank
      if inUse then
        let c := if lsi then { c with time := { c.time with leapDue := true } } else c
        c.tbMessage (utc * 1000000) ref (rank == 1)
      else c

/-- TIME_SOURCE_TIMEOUT (R253): the source in use has sent no accepted message for 120 s. -/
def Chip.timeTimeout (c : Chip) : Chip :=
  match c.timeUse with
  | none => c
  | some u => match (Tbl.get { utc := 0, ref := 0, accepted := none } c.times u).accepted with
    | some t => if silence ≤ c.time.now - t then { c with timeStale := true } else c
    | none => c

/-- LEAP_SECOND_INSERT (R255, R367, R371): at the end of the UTC day the second 23:59:60 is inserted, so UTC falls back one second
from here on; TIM_TAI_UTC counts it unless unknown. A pending -1 step is applied the other way, and TIM_LEAP[1] clears. -/
def Chip.leapInsert (c : Chip) : Chip :=
  let c := c.syncTime
  if c.time.leapDue then
    let c := { c with time := { c.time with leapDue := false, leaping := true, u0 := c.time.u0 - 1000000000 } }
    if c.reg 0xC23 = 0 then c else c.put 0xC23 (c.reg 0xC23 + 1)
  else if c.bit 0xC24 1 then
    let c := { c with time := { c.time with u0 := c.time.u0 + 1000000000 } }.putBit 0xC24 1 false
    if c.reg 0xC23 = 0 then c else c.put 0xC23 (c.reg 0xC23 - 1)
  else c

end Sys2Proof.Machine
end

