-- ==== Sys2Proof/Machine/Verify.lean ====
section
/-! DEFINITION. Verified streams (R546 to R551): sealed messages found in a job's data, holding or marking its records, verdicts and revocations; and the emission of a job's units in fragments (R191). -/

namespace Sys2Proof.Machine

/-! Messages (Table 19-5). -/

def MsgSt.len (m : MsgSt) : Nat := leAt m.bytes 2 2
def MsgSt.counter (m : MsgSt) : Nat := if m.bytes.length < 8 then 0 else leAt m.bytes 4 4
/-- Whole length with a tag of `t` bytes. -/
def MsgSt.total (m : MsgSt) (t : Nat) : Nat := 8 + m.len + t

/-- The revocation record of a message (Table 19-6, R551). -/
def Chip.revoke (c : Chip) (j verdict reason : Nat) (prov : Bool) (m : MsgSt) : Chip :=
  let l := if m.bytes.length < 4 then 0 else m.len
  let body := [b8 verdict, b8 reason] ++ le 2 j ++ le 4 m.handle ++ [b8 m.ty, if prov then 1 else 0] ++ le 2 m.first ++ le 2 m.last ++
    le 2 m.count ++ le 4 m.counter ++ le 2 l ++ [0, 0]
  let c := if verdict = 1 then c.count 0xF1C else c
  c.produce { ty := 0x02, handle := 0xA000000F, ts := c.time.now, ref := c.time.now, body := body, job := none, flags := 0x08 ||| c.coastFlag [1] c.time.now }

/-- The open messages of a hold-mode stream hold their records; a record whose messages have all been judged leaves, or is discarded where one failed (R549). -/
def Chip.syncHold (c : Chip) (j : Nat) : Chip :=
  let ms := match Tbl.find c.vers j with
    | some v => if v.prov then [] else v.msgs
    | none => []
  let q := c.out.queue.map fun (x : QRec) =>
    if x.job = some j then { x with opens := (ms.filter fun m => m.orders.contains x.order).length } else x
  let q' := q.filter fun (x : QRec) => !(x.bad && x.opens == 0)
  let c := { c with out := { c.out with queue := q' } }
  if q'.length = q.length then c else c.queueChanged

/-- The messages of job `j` that satisfy `p` get a verdict: a pass (reason 0), or a failure. -/
def Chip.closeMsgs (c : Chip) (j : Nat) (p : MsgSt → Bool) (reason : Nat) : Chip :=
  match Tbl.find c.vers j with
  | none => c
  | some v =>
    let shut := v.msgs.filter fun m => p m
    let c := { c with vers := Tbl.put c.vers j { v with msgs := v.msgs.filter fun m => !p m } }
    let mark := fun (x : QRec) => if x.job == some j && shut.any (fun m => m.orders.contains x.order) then { x with bad := true } else x
    let c := if reason = 0 ∨ v.prov then c else { c with out := { c.out with queue := c.out.queue.map mark } }
    let c := c.syncHold j
    c.each shut fun c m =>
      if m.bytes.length < 2 then c
      else if v.prov then c.revoke j (if reason = 0 then 0 else 1) reason true m
      else if reason = 0 then c
      else c.revoke j 1 reason false m

/-- What one record brings to the search: its sequence number, its order of production, handle and type. -/
structure RecRef where
  seq : Nat
  order : Nat
  handle : Nat
  ty : Nat
deriving DecidableEq, Repr

/-- A message takes bytes of a record. -/
def MsgSt.take (m : MsgSt) (r : RecRef) (b : List Byte) : MsgSt :=
  if m.orders.contains r.order then { m with bytes := m.bytes ++ b }
  else { m with bytes := m.bytes ++ b, orders := m.orders ++ [r.order], last := r.seq, count := m.count + 1 }

/-- A marker may begin. -/
def MsgSt.begin (r : RecRef) : MsgSt :=
  { bytes := [0x56], orders := [r.order], first := r.seq, last := r.seq, count := 1, handle := r.handle, ty := r.ty, complete := false }

/-- Search the data of a record (R547): `open_` is the message in progress, `done` the complete ones. -/
def feed (t : Nat) (r : RecRef) : Nat → List Byte → Option MsgSt → List MsgSt → Option MsgSt × List MsgSt
  | 0, _, o, done => (o, done)
  | n + 1, data, o, done =>
    match o with
    | none =>
      match data.dropWhile (· != 0x56) with
      | [] => (none, done)
      | _ :: rest => feed t r n rest (some (MsgSt.begin r)) done
    | some m =>
      match data with
      | [] => (some m, done)
      | b :: rest =>
        if m.bytes.length = 1 ∧ b ≠ 0x4E then feed t r n (b :: rest) none done
        else if m.bytes.length < 4 then
          let m' := m.take r [b]
          if m'.bytes.length = 4 ∧ m'.len = 0 then feed t r n rest none done else feed t r n rest (some m') done
        else
          let need := m.total t - m.bytes.length
          let m' := m.take r (data.take need)
          if m'.bytes.length = m'.total t then feed t r n (data.drop need) none (done ++ [{ m' with complete := true }])
          else (some m', done)

/-- Emit one record of job `j` whose data bytes are `data`; `broken` where the data is not fit for the sequence (R548 reason 4). -/
def Chip.emitFrag (c : Chip) (j : Nat) (spec : RecSpec) (data : List Byte) (broken : Bool) : Chip :=
  match Tbl.find c.vers j with
  | none => c.produce spec
  | some v0 =>
    let st := c.stream (streamKey spec.ty spec.handle)
    let skipped := match v0.lastSeq with | some s => decide (st.next ≠ (s + 1) % 65536) | none => false
    let c := if broken || st.genv || skipped then c.closeMsgs j (fun m => !m.complete) 4 else c
    let v := (Tbl.find c.vers j).getD v0
    let r : RecRef := { seq := st.next, order := c.out.order, handle := spec.handle, ty := spec.ty }
    let old := v.msgs.filter (·.complete)
    let (o, done) := feed v.tlen r (4 * data.length + 8) (if broken then [] else data) (v.msgs.find? fun m => !m.complete) []
    let ms := old ++ done ++ o.toList
    let touched := ms.any fun m => m.orders.contains r.order
    let c1 := { c with vers := Tbl.put c.vers j { v with msgs := ms, lastSeq := some st.next } }
    let c2 := c1.produce { spec with flags := spec.flags ||| (if v.prov && touched then 0x04 else 0) }
    if c2.out.order = r.order then { c2 with vers := Tbl.put c2.vers j v }
    else
      let c2 := c2.syncHold j
      if v.prov then c2 else c2.closeMsgs j (fun m => decide (4 ≤ m.bytes.length) && decide (4096 < m.total v.tlen)) 3

/-- Fragments of a unit (R191): 1,008 data bytes each, the remainder last; an empty unit is one fragment. -/
def fragments : Nat → List Byte → List (List Byte)
  | 0, _ => []
  | n + 1, l => if l.length ≤ 1008 then [l] else l.take 1008 :: fragments n (l.drop 1008)

/-- Emit a unit of job `j` (R191): `head i n m` gives the 8 bytes before the data of fragment `i` of `n` with `m` data bytes. A PROBE
unit without room for all its fragments is shed whole. -/
def Chip.emitUnit (c : Chip) (j ty handle ts flags : Nat) (head : Nat → Nat → Nat → List Byte) (data : List Byte) (verified broken : Bool) : Chip :=
  let fs := fragments (data.length + 1) data
  let n := fs.length
  let cls := dClass (c.jobDesc j)
  let len := sumList (fs.map fun f => 16 + (pad4 (head 0 n f.length ++ f)).length)
  if cls = 2 ∧ ¬ c.fits len false ∧ c.out.failing = none then
    let k := streamKey ty handle
    c.each fs fun c _ => (c.modStream k fun x => { x with next := (x.next + 1) % 65536, born := true }).shedRec k j c.out.order
  else
    c.each ((List.range n).zip fs) fun c x =>
      let spec : RecSpec := { ty := ty, handle := handle, ts := ts, ref := ts, body := head x.1 n x.2.length ++ x.2, job := some j, flags := flags }
      if verified then c.emitFrag j spec x.2 broken else c.produce spec

/-! Attachment. -/

/-- The declared rate of an MSC job, B/s (R546). -/
def declaredRate (d : List Byte) : Nat := if dKind d = 2 then 1000 * bits (dF0 d) 16 8 else bits (dF0 d) 0 11 * 100 / 8

/-- VAR_ATT_RATE. -/
def Chip.refreshAttach (c : Chip) : Chip := c.put 0xF18 (sumList (c.vers.map fun x => declaredRate (c.jobDesc x.1)))

/-- Detach a verified stream: its open messages are revoked with reason 5 (R546). -/
def Chip.detach (c : Chip) (j : Nat) : Chip :=
  if (Tbl.find c.vers j).isNone then c
  else
    let c := c.closeMsgs j (fun _ => true) 5
    { c with vers := Tbl.del c.vers j }.refreshAttach

/-- The verdict of the oldest complete message of a stream (R548). -/
def Chip.verdict (keys : Tbl Key) (c : Chip) (j : Nat) : Chip :=
  match Tbl.find c.vers j with
  | none => c
  | some v => match v.msgs.find? (·.complete) with
    | none => c
    | some m =>
      let c := c.count 0xF19
      let isM := fun x : MsgSt => x == m
      let good := match Tbl.find keys v.slot with
        | some k => (cmac k.bytes (m.bytes.take (8 + m.len))).take v.tlen == m.bytes.drop (8 + m.len)
        | none => false
      if !good then ((c.raise 60 (handleBlock 0x0F) 2).count 0xF1A).closeMsgs j isM 1
      else if v.ctr = 0xFFFFFFFF then
        let c := if v.told then c else { c with vers := Tbl.put c.vers j { v with told := true } }.raise 62 (handleBlock 0x0F) 2
        c.closeMsgs j isM 2
      else if m.counter ≤ v.ctr then c.closeMsgs j isM 2
      else
        let c := { c with vers := Tbl.put c.vers j { v with ctr := m.counter } }
        c.closeMsgs j isM 0

/-- A fault alarm during the verdict: the message is revoked with reason 7 (R552). -/
def Chip.verdictFault (c : Chip) (j : Nat) : Chip :=
  match Tbl.find c.vers j with
  | none => c
  | some v => match v.msgs.find? (·.complete) with
    | none => c
    | some m => c.closeMsgs j (fun x => x == m) 7

end Sys2Proof.Machine
end

