-- ==== Sys2Proof/Machine/Link.lean ====
section
/-! DEFINITION. The Studio link radio (R490 to R522): its parameters, states, frames, duty accounts, transmit queue, reception and peers, and its alarm and time frames. -/

namespace Sys2Proof.Machine

/-- The level-5 handle of the Studio link (Table 01-4). -/
def handleLnk : Nat := handleBlock 0x0D

/-! Configuration. -/

def lcMode (v : Nat) : Nat := bits v 0 3
def lcCoded (v : Nat) : Bool := v.testBit 3
def lcUs (v : Nat) : Bool := v.testBit 4
def lcDiversity (v : Nat) : Nat := bits v 5 2
def Chip.lnkCfg (c : Chip) : Nat := c.reg 0xD01

/-- Symbol length in µs, bits per symbol and receive bandwidth in Hz of a mode (Table 17-1). -/
def symbolUs (mode : Nat) : Nat := if mode = 0 then 20 else if mode = 1 ∨ mode = 3 then 10 else 5
def symbolBits (mode : Nat) : Nat := if mode = 3 ∨ mode = 4 then 2 else 1
def modeBandwidth (mode : Nat) : Nat := if mode = 0 then 100000 else if mode = 1 ∨ mode = 3 then 200000 else 400000

/-- EU sub-bands: edges in Hz, and the airtime per hour in µs (Table 17-8). -/
def subBands : List (Nat × Nat × Nat) :=
  [(863000000, 865000000, 3600000), (865000000, 868000000, 36000000), (868000000, 868600000, 36000000),
   (868700000, 869200000, 3600000), (869400000, 869650000, 360000000), (869700000, 870000000, 36000000)]

/-- The sub-band that a channel lies inside, with its limit. -/
def subBandOf (freq mode : Nat) : Option Nat :=
  let half := modeBandwidth mode / 2
  (List.range 6).find? fun n => match subBands[n]? with
    | some (lo, hi, _) => decide (lo + half ≤ freq) && decide (freq + half ≤ hi)
    | none => false

/-- A channel lies where R490 allows. -/
def channelOk (cfg freq : Nat) : Bool :=
  let half := modeBandwidth (lcMode cfg) / 2
  if lcUs cfg then decide (902000000 + half ≤ freq) && decide (freq + half ≤ 928000000)
  else (subBandOf freq (lcMode cfg)).isSome

/-- LNK_PRE_LEN and the diversity setting go together (R497). -/
def preambleOk (cfg pre : Nat) : Bool := decide ((if lcDiversity cfg = 2 then 5 else 4) ≤ pre) && decide (pre ≤ 64)

/-- LNK_CFG values that Table 17-12 refuses. -/
def lnkCfgBad (v : Nat) : Bool := 5 ≤ lcMode v || lcDiversity v == 3 || bits v 8 2 == 3 || bits v 10 2 == 3

/-- LNK_CFG_WRITE (R490, R497, R522). -/
def Chip.wrLnkCfg (c : Chip) (v : Nat) : WRes :=
  let v := v % 2 ^ 17
  if c.reg 0xD00 ≠ 0 ∨ lnkCfgBad v ∨ ¬ channelOk v (c.view 0xD02) ∨ ¬ preambleOk v (c.view 0xD04) then c.no rBad
  else (c.stage 0xD01 v).yes

/-- LNK_FREQ_WRITE (R490). -/
def Chip.wrLnkFreq (c : Chip) (v : Nat) : WRes := if channelOk (c.view 0xD01) v then (c.stage 0xD02 v).yes else c.no rBad

/-- Writes to the other parameters of page 0x0D that Table 17-12 refuses. -/
def Chip.lnkBad (c : Chip) (a v : Nat) : Bool :=
  let off := c.reg 0xD00 == 0
  let dbm := toSigned 8 v
  if a = 0xD03 then !off
  else if a = 0xD04 then !off || !preambleOk (c.view 0xD01) (v % 128)
  else if a = 0xD05 ∨ a = 0xD06 then decide (dbm < -10) || decide (14 < dbm)
  else if a = 0xD07 then decide (toSigned 16 v < -1200) || decide (-400 < toSigned 16 v)
  else if a = 0xD08 then decide (v % 256 < 64)
  else if a = 0xD09 then decide (v % 16 < 3) || decide (12 < v % 16)
  else if a = 0xD0A then v % 65536 == 0 || decide (20000 < v % 65536)
  else if a = 0xD0B then !off || decide (v % 128 < 8) || decide (64 < v % 128)
  else if a = 0xD0C then !off || v % 256 == 0xFF
  else if a = 0xD0D then bits v 0 4 == 0 || bits v 8 16 == 0
  else if a = 0xD0E then bits v 0 8 == 0 || decide (bits v 16 16 < 1000)
  else if a = 0xD0F then v % 4 == 3
  else if a = 0xD10 then !off || v % 4 == 0 || v % 4 == 3
  else if a = 0xD11 ∨ (0xD40 ≤ a ∧ a ≤ 0xD47) then !off
  else false

/-! Frames (Table 17-4, R494 to R496). -/

/-- The four bytes of a link header (Table 17-5). -/
def linkHeader (ver verMax kind src dest : Nat) (secured pri : Bool) : List Byte :=
  [b8 (ver + 4 * verMax + 16 * kind), b8 src, b8 dest, b8 ((if secured then 1 else 0) + (if pri then 2 else 0))]

def Chip.headerOf (c : Chip) (e : TxEnt) : List Byte :=
  linkHeader e.ver (c.reg 0xD10) e.kind (c.reg 0xD0C) e.dest e.secured e.pri

/-- N of an entry. -/
def TxEnt.n (e : TxEnt) : Nat := 4 + e.payload.length + (if e.secured then 12 else 0)

/-- The bytes that a tag covers: length byte to counter (R509). -/
def Chip.tagged (c : Chip) (e : TxEnt) : List Byte := b8 e.n :: (c.headerOf e ++ e.payload ++ le 4 e.ctr)

/-- A frame from its length byte to its CRC. -/
def Chip.frameOf (c : Chip) (e : TxEnt) : List Byte :=
  let l := b8 e.n :: (c.headerOf e ++ e.payload) ++ (if e.secured then le 4 e.ctr ++ e.tag else [])
  l ++ [b8 ((crc16 l).toNat / 256), b8 (crc16 l).toNat]

/-- Coded bits of a frame (R496). -/
def frameBits (coded : Bool) (n : Nat) : Nat := if coded then 256 * ceilDiv (8 * (n + 3) + 6) 128 else 8 * (n + 3)

/-- Airtime in µs (R496). -/
def airtimeUs (cfg pre ramp n : Nat) : Nat :=
  (8 * pre + 32 + ceilDiv (frameBits (lcCoded cfg) n) (symbolBits (lcMode cfg))) * symbolUs (lcMode cfg) + 2 * ramp

def Chip.airtime (c : Chip) (n : Nat) : Nat := airtimeUs c.lnkCfg (c.reg 0xD04) (c.reg 0xD0B) n

/-- From ramp-up to the last bit of the sync word, µs. -/
def Chip.syncLead (c : Chip) : Nat := c.reg 0xD0B + (8 * c.reg 0xD04 + 32) * symbolUs (lcMode c.lnkCfg)

/-- µs as studio counts, to nearest. -/
def usCounts (us : Nat) : Nat := (us * 4096 + 62) / 125

/-- Power in force, dBm (R492). -/
def Chip.lnkPower (c : Chip) : Int := min (c.int 0xD05 8) (c.int 0xD06 8)

/-! Peers (R501). -/

def Chip.peer (c : Chip) (src : Nat) : Option PeerSt := Tbl.find c.link.peers src

/-- The peer that a new source replaces: the least recently heard whose counter is 0. -/
def stalePeer (t : Tbl PeerSt) : Option Nat :=
  (t.foldl (fun (best : Option (Nat × Nat)) e => if e.2.ctr ≠ 0 then best else match best with
    | some b => if e.2.heard < b.2 then some (e.1, e.2.heard) else best
    | none => some (e.1, e.2.heard)) none).map (·.1)

/-- A source has room in the table. -/
def Chip.peerFits (c : Chip) (src : Nat) : Bool := (c.peer src).isSome || decide (c.link.peers.length < 64) || (stalePeer c.link.peers).isSome

/-- Change the entry of a source, taking one for it where it has none. -/
def Chip.modPeer (c : Chip) (src : Nat) (f : PeerSt → PeerSt) : Chip :=
  let t := c.link.peers
  let n := c.link.heard + 1
  let put := fun (t : Tbl PeerSt) (p : PeerSt) => { c with link := { c.link with peers := Tbl.put t src { f p with heard := n }, heard := n } }
  let new : PeerSt := { ver := 0, aerial := 0, rssi := 0, ctr := 0, heard := 0 }
  match Tbl.find t src with
  | some p => put t p
  | none =>
    if t.length < 64 then put t new
    else match stalePeer t with
      | some s => put (Tbl.del t s) new
      | none => c

/-! The duty accounts (R510). -/

/-- Sub-band of the channel in force; none in region US. -/
def Chip.subBand (c : Chip) : Option Nat := if lcUs c.lnkCfg then none else subBandOf (c.reg 0xD02) (lcMode c.lnkCfg)

def Chip.account (c : Chip) (n : Nat) : List Nat := Tbl.get [] c.link.duty n

/-- A frame of `us` passes the duty check. -/
def Chip.dutyOk (c : Chip) (us : Nat) : Bool := match c.subBand with
  | none => true
  | some n => decide (sumList (c.account n) + us ≤ ((subBands[n]?).map (·.2.2)).getD 0)

/-- Airtime goes to the current minute; LNK_DC_USED_n. -/
def Chip.charge (c : Chip) (us : Nat) : Chip := match c.subBand with
  | none => c
  | some n =>
    let l := match c.account n with
      | [] => [us]
      | x :: r => (x + us) :: r
    { c with link := { c.link with duty := Tbl.set [] c.link.duty n l } }.put (0xD20 + n) (sumList l)

/-- LNK_DUTY_MINUTE: a new current minute; sixty whole minutes are kept. -/
def Chip.dutyMinute (c : Chip) : Chip :=
  c.each (List.range 6) fun c n =>
    let l := (0 :: c.account n).take 61
    let l := if sumList l = 0 then [] else l
    { c with link := { c.link with duty := Tbl.set [] c.link.duty n l } }.put (0xD20 + n) (sumList l)

/-! States. -/

/-- LNK_STATE takes a value; LNK_RSSI reads 0x8000 outside RX. -/
def Chip.lnkState (c : Chip) (v : Nat) : Chip :=
  let c := { c with link := { c.link with busyAt := c.time.now } }.put 0xD00 v
  let c := if v = 2 ∨ v = 3 then c else c.put 0xD12 0x8000
  (c.putField 0x302 12 2 (if v = 0 ∨ v = 6 then 0 else 2)).refreshSched

/-- The COEX pins (R506). -/
def Chip.coex (c : Chip) (req pri : Bool) : Chip := { c with link := { c.link with coexReq := req, coexPri := pri } }

/-- A packet is detected: its preamble has qualified (DESIGN CHOICE, log entry 62: R315 names no stage of R497). -/
def detected (r : Option RxSt) : Bool := match r with | some x => decide (2 ≤ x.stage) | none => false

def Chip.setRx (c : Chip) (r : Option RxSt) : Chip :=
  { c with link := { c.link with rx := r, busyAt := if detected r || detected c.link.rx then c.time.now else c.link.busyAt } }
def Chip.setTx (c : Chip) (t : Option TxSt) : Chip := { c with link := { c.link with tx := t, busyAt := c.time.now } }
def Chip.setTxQueue (c : Chip) (q : List TxEnt) : Chip := { c with link := { c.link with queue := q } }

/-- A Studio-link record (R503). -/
def Chip.lnkRecord (c : Chip) (ts : Nat) (body : List Byte) : Chip :=
  c.produce { ty := 0x1D, handle := 0x00000008, ts := ts, ref := ts, body := body, job := none, flags := c.coastFlag [1, 2] ts }

/-- A frame taken from the queue ends (R508): transmit report, event 57, LNK_TX_CNT or LNK_TX_REFUSED_CNT. -/
def Chip.report (c : Chip) (e : TxEnt) (power : Int) (reason aerial airtime ts : Nat) (aborted : Bool) : Chip :=
  let flags := aerial + (if lcCoded c.lnkCfg then 2 else 0) + (if e.secured then 4 else 0) + (if aborted then 8 else 0)
  let c := c.lnkRecord ts ([2, b8 flags] ++ le 2 e.id ++ [b8 reason, b8 (ofSigned 8 power)] ++ le 2 (airtime / 10) ++ c.headerOf e ++
    le 4 (if e.secured then e.ctr else 0))
  (c.raise 57 handleLnk (reason + e.id * 65536)).count (if reason = 0 then 0xD36 else 0xD37)

/-- A queued frame is refused: nothing was sent. -/
def Chip.refuseTx (c : Chip) (e : TxEnt) (reason : Nat) : Chip := c.report e c.lnkPower reason 0 0 c.time.now false

/-- A transmission ends early (R507, R515): airtime up to now counts. -/
def Chip.abortTx (c : Chip) (t : TxSt) (reason : Nat) (byGnt : Bool) : Chip :=
  let us := min (c.airtime t.ent.n) (usBetween t.at_ c.time.now)
  let c := ((c.setTx none).coex false false).charge us
  let sync := t.at_ + usCounts c.syncLead
  c.report t.ent t.power reason t.aerial us (if sync ≤ c.time.now then sync else c.time.now) byGnt

/-- The link's frames are void (R515): the reception is discarded, a transmission ramps down, every queued entry is reported, and event 4 tells of what was outstanding (R34). -/
def Chip.linkVoid (c : Chip) : Chip :=
  let open_ := c.link.tx.isSome || !c.link.queue.isEmpty
  let c := (c.setRx none).when open_ fun c => c.raise 4 handleLnk (c.reg 0xD3D)
  let c := match c.link.tx with
    | none => c.coex false false
    | some t => if t.onAir ∧ t.at_ ≤ c.time.now then c.abortTx t rVoid false else (((c.setTx none).coex false false).refuseTx t.ent rVoid)
  let q := c.link.queue
  c.setTxQueue [] |>.each q fun c e => c.refuseTx e rVoid

/-- A generation step of the link (R35, R515). -/
def Chip.linkGenStep (c : Chip) : Chip := ((c.stepGenAt 0xD3D).markStreams (fun k => k / 2 ^ 32 == 0x1D) true false).linkVoid

/-- The link enters a state: 0 OFF, 1 STANDBY, 2 RX. From OFF, and from STANDBY with the LPLL off (R517), it settles until the LPLL locks (Table 17-9). -/
def Chip.enterLink (c : Chip) (st : Nat) : Chip :=
  let cur := c.reg 0xD00
  if st = 0 then (if cur = 0 then c else (c.linkGenStep.put 0x220 0).lnkState 0)
  else if cur = 0 then (c.put 0x220 1).lnkState 5
  else if cur = 5 ∨ cur = 6 then c
  else if st = 2 ∧ c.reg 0x220 = 0 then (c.put 0x220 1).lnkState 5
  else (if st = 1 then c.setRx none else c).lnkState st

/-- A frame is being sent, or received after sync (R514). -/
def Chip.inFrame (c : Chip) : Bool := c.link.tx.isSome || match c.link.rx with | some r => r.stage == 3 | none => false

/-- The state that a two-bit field of LNK_CFG selects: 0 RX, 1 STANDBY, 2 OFF. -/
def fieldState (v : Nat) : Nat := 2 - v % 3

/-- VDD_PA is invalid. -/
def Chip.paLost (c : Chip) : Bool := c.power.invalid.testBit 5

/-- The link follows its loops and its rail (R516, R580): it stops with them, and returns to the state last commanded when they run again. -/
def Chip.linkLoops (c : Chip) : Chip :=
  let st := c.reg 0xD00
  let dead := c.reg 0x220 == 4 || c.reg 0x210 == 4 || c.paLost
  if st ≠ 0 ∧ st ≠ 6 ∧ dead then (if c.reg 0x210 = 4 then c.linkVoid else c.linkGenStep).lnkState 6
  else if (st = 5 ∨ st = 6) ∧ !dead ∧ (c.reg 0x220 = 2 ∨ c.reg 0x220 = 5) then c.lnkState c.link.want
  else c

/-- A queued frame wakes a link that sleeps in STANDBY, and so does the end of Sketch mode (R517). -/
def Chip.linkWake (c : Chip) : Chip :=
  if c.reg 0xD00 = 1 ∧ c.reg 0x220 = 0 ∧ (!c.link.queue.isEmpty || c.reg 0x300 != 1) ∧ !c.asleep then
    { c with link := { c.link with want := 1 } }.put 0x220 1 |>.lnkState 5
  else c

/-- The calendar would still hold with the link enabled (R332): in every tick in which a job holds a reservation. -/
def Chip.standingOk (c : Chip) : Bool :=
  let c1 := c.put 0xD00 1
  let ts := (c.tick + 1) :: ((c.jobs.map fun e => e.2.start).filter fun t => decide (c.tick + 1 < t))
  ts.all fun t =>
    let js := c1.holding t false none
    let v := sumList (js.map (·.rate)) + c1.standRate
    let w := sumList (js.map Job.wBurst) + c1.standBurst
    let trel := sumList (js.map (·.trellis)) + c1.standTrellis
    decide (trel ≤ 62500) && (!(js.any fun x => emitsNow x.desc) || (decide (v ≤ c1.capacity) && decide (c1.bufferNeed v w ≤ c1.strBytes)))

/-- LNK_SET_STATE (R493, R514, R516, R579). `maskPass` and `maskWord` are the outcome of the mask check, which the built-in pulse always meets. -/
def Chip.setLinkState (c : Chip) (st : Nat) (maskPass : Bool) (maskWord : Nat) : List Byte × Chip :=
  let cur := c.reg 0xD00
  if 2 < st then ([b8 rBad], c)
  else if cur = 6 ∨ (st ≠ 0 ∧ c.paLost) then ([b8 rStopped], c)
  else if cur = 0 ∧ st ≠ 0 then
    let pass := maskPass || !c.bit 0xD01 16
    if !preambleOk c.lnkCfg (c.reg 0xD04) then ([b8 rBad], c)
    else
      let c := c.put 0xD14 (setBits maskWord 0 8 (if pass then 1 else 0))
      if !pass then ([b8 rBad], c)
      else if !c.standingOk then ([b8 rNoCapacity], c)
      else ([0x00, b8 st], { c with link := { c.link with want := st, req := none } }.enterLink st)
  else
    let c := { c with link := { c.link with want := st } }
    if c.inFrame then ([0x00, b8 st], { c with link := { c.link with req := some st } })
    else ([0x00, b8 st], { c with link := { c.link with req := none } }.enterLink st)

/-- LNK_STATE_APPLY (R514). -/
def Chip.applyLinkState (c : Chip) : Chip :=
  match c.link.req with
  | none => c
  | some st => if c.inFrame then c else { c with link := { c.link with req := none } }.enterLink st

/-! The transmit queue. -/

/-- Ramp-up of a timed entry, studio counts. -/
def Chip.rampOf (c : Chip) (t : Nat) : Nat := t - usCounts c.syncLead

/-- ±100 ns, and the 20 µs of COEX_REQ before ramp-up, in studio counts. -/
def tolerance : Nat := 3
def coexLead : Nat := usCounts 20

/-- A timed entry that could raise COEX_REQ at `from_` at the earliest cannot meet its time (R505). -/
def Chip.lateFrom (c : Chip) (from_ t : Nat) : Bool := decide (c.rampOf t + tolerance < from_ + coexLead)

/-- The earliest studio time at which COEX_REQ may rise: now, or the end of the frame on air. -/
def Chip.earliestReq (c : Chip) : Nat := match c.link.tx with
  | some t => max c.time.now (t.at_ + usCounts (c.airtime t.ent.n))
  | none => c.time.now

/-- Two timed entries overlap on air (Table 17-11). -/
def Chip.timedOverlap (c : Chip) (t1 n1 t2 n2 : Nat) : Bool :=
  let a := c.rampOf t1
  let b := c.rampOf t2
  decide (a < b + usCounts (c.airtime n2)) && decide (b < a + usCounts (c.airtime n1))

/-- A timed entry overlaps one that is queued. -/
def Chip.clashes (c : Chip) (t n : Nat) : Bool :=
  c.link.queue.any fun e => match e.timed with | some u => c.timedOverlap t n u e.n | none => false

/-- Group of an entry (R504): alarm frames, priority frames, others. -/
def TxEnt.group (e : TxEnt) : Nat := if e.kind = 1 then 0 else if e.pri then 1 else 2

/-- The untimed entry whose turn it is. -/
def firstUntimed (q : List TxEnt) : Option TxEnt :=
  let u := q.filter fun e => e.timed.isNone
  match u.find? fun e => e.group == 0 with
  | some e => some e
  | none => match u.find? fun e => e.group == 1 with
    | some e => some e
    | none => u.head?

/-- Ramp-up of the next timed entry. -/
def Chip.nextTimed (c : Chip) : Option Nat :=
  (c.link.queue.filterMap fun e => e.timed.map c.rampOf).foldl (fun b x => match b with
    | some y => some (min x y)
    | none => some x) none

/-- The entry that starts now, with its ramp-up (R504): a timed one whose COEX_REQ is due, or the untimed one whose turn it is, if it and 50 µs end before the next timed ramp-up. -/
def Chip.startable (c : Chip) : Option (TxEnt × Nat) :=
  let now := c.time.now
  let timed := c.link.queue.find? fun e => match e.timed with
    | some t => decide (c.rampOf t ≤ now + coexLead + tolerance) && !c.lateFrom now t
    | none => false
  match timed with
  | some e => some (e, max (now + coexLead) (c.rampOf (e.timed.getD 0)))
  | none => match firstUntimed c.link.queue with
    | none => none
    | some e =>
      let at_ := now + coexLead
      match c.nextTimed with
      | some r => if at_ + usCounts (c.airtime e.n + 50) ≤ r then some (e, at_) else none
      | none => some (e, at_)

/-- Take an entry out of the queue. -/
def Chip.unqueue (c : Chip) (e : TxEnt) : Chip := c.setTxQueue (c.link.queue.erase e)

/-- The aerial of a transmission (LNK_TX_ANT). -/
def Chip.txAerial (c : Chip) (dest : Nat) : Nat :=
  let v := c.reg 0xD0F
  if v = 2 then (match c.peer dest with | some p => p.aerial | none => 0) else v

/-- The bytes of a frame leave at the power in force (R492, Table 17-4). -/
def Chip.rampUp (c : Chip) (t : TxSt) : Chip :=
  { c with link := { c.link with tx := some { t with onAir := true, power := c.lnkPower }, sent := c.frameOf t.ent } }

/-- LNK_TX_DUE (R504 to R506). -/
def Chip.txDue (c : Chip) : Chip :=
  let st := c.reg 0xD00
  let ready := (st == 1 || st == 2) && (c.reg 0x220 == 2 || c.reg 0x220 == 5) && !c.inFrame
  if !ready then c
  else match c.startable with
    | none => c
    | some (e, at_) =>
      let c := c.unqueue e
      if !c.dutyOk (c.airtime e.n) then c.refuseTx e rDuty
      else
        let c := (c.setRx none).coex true e.pri
        let t : TxSt := { ent := e, onAir := false, at_ := at_, aerial := c.txAerial e.dest, back := st, power := c.lnkPower }
        let c := (c.setTx (some t)).lnkState 4
        if !c.bit 0xD01 7 || c.link.coexGnt then c.rampUp t else c

/-- A frame that has not ramped up is refused: the COEX pins fall, and the link is where it was. -/
def Chip.dropTx (c : Chip) (t : TxSt) (reason : Nat) : Chip :=
  (((c.setTx none).coex false false).lnkState t.back).refuseTx t.ent reason

/-- COEX_GNT_RISE (R506). -/
def Chip.gntRise (c : Chip) : Chip :=
  let c := { c with link := { c.link with coexGnt := true } }
  match c.link.tx with
  | none => c
  | some t =>
    if t.onAir then c
    else
      let at_ := max t.at_ c.time.now
      let late := match t.ent.timed with | some u => decide (c.rampOf u + tolerance < at_) | none => false
      if late then c.dropTx t rLate else c.rampUp { t with at_ := at_ }

/-- COEX_WAIT_TIMEOUT (R506). -/
def Chip.coexTimeout (c : Chip) : Chip := match c.link.tx with
  | some t => if t.onAir then c else (c.dropTx t rCoex).raise 59 handleLnk t.ent.id
  | none => c

/-- The end of a transmission or reception: the state that LNK_CFG selects, a frame's request waiting for LNK_STATE_APPLY. -/
def Chip.afterFrame (c : Chip) (lo : Nat) : Chip := c.enterLink (fieldState (c.field 0xD01 lo 2))

/-- COEX_GNT_FALL (R507). -/
def Chip.gntFall (c : Chip) : Chip :=
  let c := { c with link := { c.link with coexGnt := false } }
  match c.link.tx with
  | none => c
  | some t =>
    if !c.bit 0xD01 7 || !t.onAir then c
    else if c.time.now < t.at_ then c.setTx (some { t with onAir := false })
    else ((c.abortTx t rCoex true).lnkState t.back).afterFrame 10

/-- LNK_TX_END (R506, R508). -/
def Chip.txEnd (c : Chip) : Chip := match c.link.tx with
  | none => c
  | some t =>
    if !t.onAir then c
    else
      let us := c.airtime t.ent.n
      let c := ((c.setTx none).coex false false).charge us
      let c := c.report t.ent t.power 0 t.aerial us (t.at_ + usCounts c.syncLead) false
      (c.lnkState t.back).afterFrame 10

/-- LNK_TX_LATE (R505). -/
def Chip.txLate (c : Chip) : Chip :=
  let c := match c.link.tx with
    | some t => match t.ent.timed with
      | some u => if !t.onAir && decide (c.rampOf u + tolerance < c.time.now) then c.dropTx t rLate else c
      | none => c
    | none => c
  let late := c.link.queue.filter fun e => match e.timed with | some t => c.lateFrom c.earliestReq t | none => false
  c.each late fun c e => (c.unqueue e).refuseTx e rLate

/-- A secured frame takes its counter and its tag (R509). -/
def Chip.secure (keys : Tbl Key) (c : Chip) (e : TxEnt) : TxEnt × Chip :=
  if !e.secured then (e, c)
  else
    let n := c.reg 0xD3C + 1
    let e := { e with ctr := n }
    let tag := match Tbl.find keys (c.reg 0xD11) with | some k => (cmac k.bytes (c.tagged e)).take 8 | none => []
    ({ e with tag := tag }, (c.put 0xD3C n).count 0xF19)

/-- The key slot of the link serves secured frames (R543). -/
def Chip.linkKeyOk (keys : Tbl Key) (c : Chip) : Bool := match Tbl.find keys (c.reg 0xD11) with
  | some k => k.attr.testBit 2
  | none => false

/-- The counter may not advance: 0xFFFF_FFFF is never used (R509). -/
def Chip.counterSpent (c : Chip) : Bool := decide (0xFFFFFFFE ≤ c.reg 0xD3C)

/-- Event 62 at the first refusal (R509). -/
def Chip.tellSpent (c : Chip) : Chip :=
  if c.link.told then c else { c with link := { c.link with told := true } }.raise 62 (handleBlock 0x0F) 3

/-- The value nearest to now whose low 48 bits are `v` (R519). -/
def nearest48 (now v : Nat) : Nat :=
  let m := 2 ^ 48
  let base := now / m * m + v
  if now + m / 2 < base ∧ m ≤ base then base - m else if base + m / 2 ≤ now then base + m else base

/-- LNK_SEND (R509, R513, R519). -/
def Chip.lnkSend (keys : Tbl Key) (c : Chip) (p : List Byte) : List Byte × Chip :=
  let no := fun (r : Nat) (c : Chip) => (([b8 r] : List Byte), c)
  let st := c.reg 0xD00
  let fl := leAt p 0 1
  let dest := leAt p 1 1
  let secured := fl.testBit 1
  let data := p.drop 10
  let want := nearest48 c.time.now (leAt p 4 6)
  let timed := fl.testBit 0
  let vmax := c.reg 0xD10
  let pver := match c.peer dest with | some x => x.ver | none => 0
  let ver := if dest = 0xFF ∨ pver = 0 then vmax else min vmax pver
  if p.length < 10 ∨ 255 < p.length then no rBad c
  else if st = 0 ∨ st = 6 then no rStopped c
  else if 8 ≤ fl ∨ leAt p 2 2 ≠ 0 ∨ (secured ∧ 239 < data.length) ∨ (timed ∧ c.time.now + 2 ^ 31 < want) ∨ (secured ∧ !c.linkKeyOk keys) then no rBad c
  else if secured ∧ (vmax = 1 ∨ ver = 1) then no rNotNegotiated c
  else if secured ∧ c.counterSpent then no rExhausted c.tellSpent
  else if 16 ≤ (c.link.queue.filter fun e => e.kind == 0).length then no rNoCapacity c
  else
    let e : TxEnt := { id := c.link.nextId, kind := 0, dest := dest, secured := secured, pri := fl.testBit 2, timed := if timed then some want else none,
                       payload := data, ctr := 0, tag := [], ver := ver }
    if !c.dutyOk (c.airtime e.n) then no rDuty c
    else if timed ∧ (c.lateFrom c.earliestReq want || c.clashes want e.n) then no rLate c
    else
      let (e, c) := c.secure keys e
      let id := c.link.nextId
      let c := { c with link := { c.link with queue := c.link.queue ++ [e], nextId := if id = 0xFFFE then 0 else id + 1 } }.linkWake
      ([0x00] ++ le 2 id, c)

/-- LNK_CANCEL (R520). -/
def Chip.lnkCancel (c : Chip) (id : Nat) : List Byte × Chip :=
  match c.link.queue.find? fun e => e.kind == 0 && e.id == id with
  | some e => ([0x00], c.unqueue e)
  | none => match c.link.tx with
    | some t => if t.ent.kind = 0 ∧ t.ent.id = id ∧ (!t.onAir ∨ c.time.now < t.at_) then
        ([0x00], ((c.setTx none).coex false false).lnkState t.back)
      else ([b8 rBad], c)
    | none => ([b8 rBad], c)

/-- LNK_PEER (Table 17-10). -/
def Chip.lnkPeer (c : Chip) (a : Nat) : List Byte := match c.peer a with
  | some p => [0x00, b8 p.ver, b8 p.aerial, 0x00] ++ le 4 p.ctr ++ le 2 (ofSigned 16 p.rssi)
  | none => List.replicate 10 0

/-! Internal frames (R511, R512). -/

/-- Queue an alarm or time frame; 4 entries hold them. -/
def Chip.queueInternal (keys : Tbl Key) (c : Chip) (kind : Nat) (pri : Bool) (timed : Option Nat) (payload : List Byte) : Chip :=
  let secured := c.bit 0xD01 14 && c.reg 0xD10 == 2
  let e : TxEnt := { id := 0xFFFF, kind := kind, dest := 0xFF, secured := secured, pri := pri, timed := timed, payload := payload, ctr := 0, tag := [], ver := c.reg 0xD10 }
  if secured ∧ !c.linkKeyOk keys then c.count 0xD37
  else if secured ∧ c.counterSpent then c.tellSpent.refuseTx e rExhausted
  else
    let full := decide (4 ≤ (c.link.queue.filter fun x => x.kind != 0).length)
    let old := if kind = 1 then c.link.queue.find? fun x => x.kind == 2 else none
    if full && old.isNone then c.count 0xD37
    else
      let c := match full, old with
        | true, some x => (c.unqueue x).refuseTx x rLate
        | _, _ => c
      let clash := match timed with | some t => c.lateFrom c.earliestReq t || c.clashes t e.n | none => false
      if clash then c.refuseTx e rLate
      else
        let (e, c) := c.secure keys e
        (c.setTxQueue (c.link.queue ++ [e])).linkWake

/-- UTC of a studio time in seconds and milliseconds; 0 while unknown (R511). -/
def Chip.utcParts (c : Chip) (ts : Nat) : Nat × Nat :=
  if c.reg 0x233 = 0 then (0, 0)
  else
    let ms := (c.utcAt ts / 1000000).toNat
    (ms / 1000, ms % 1000)

/-- An alarm start or end is passed to the link (R511): the first copy now, the others at every gap. -/
def Chip.linkAlarm (keys : Tbl Key) (c : Chip) (body : List Byte) (ts : Nat) : Chip :=
  if !c.bit 0xD01 12 || c.reg 0xD00 == 0 then c
  else
    let u := c.utcParts ts
    let payload := body.take 12 ++ le 4 u.1 ++ le 2 u.2
    let c := c.queueInternal keys 1 true none payload
    let n := c.field 0xD0D 0 4
    if n ≤ 1 then c
    else { c with link := { c.link with copies := c.link.copies ++ [{ payload := payload, left := n - 1, due := c.tick + c.field 0xD0D 8 16 }] } }

/-- LNK_ALARM_COPY_DUE: the copies whose gap has passed. -/
def Chip.alarmCopies (keys : Tbl Key) (c : Chip) : Chip :=
  let due := c.link.copies.filter fun x => decide (x.due ≤ c.tick)
  let rest := c.link.copies.filterMap fun x =>
    if x.due ≤ c.tick then (if x.left ≤ 1 then none else some { x with left := x.left - 1, due := x.due + c.field 0xD0D 8 16 }) else some x
  let c : Chip := { c with link := { c.link with copies := rest } }
  if c.reg 0xD00 = 0 then c else c.each due fun c x => c.queueInternal keys 1 true none x.payload

/-- LNK_TIME_FRAME_QUEUE: the time frame of a TICK pulse (R512). -/
def Chip.timeFrame (keys : Tbl Key) (c : Chip) : Chip :=
  let period := c.field 0xD0E 0 8
  if !c.bit 0xD01 13 || c.reg 0x233 != 2 || c.reg 0xD00 == 0 || c.reg 0xD00 == 6 || c.utcSeconds % period != 0 then c
  else
    let off := c.field 0xD0E 16 16
    let payload := le 4 c.utcSeconds ++ [b8 (c.reg 0xC23), (c.fullTimeBody).getD 13 0] ++ le 2 off
    c.queueInternal keys 2 false (some (c.time.now + usCounts off)) payload

/-! Reception (R497 to R501). -/

/-- LNK_LEVEL_DETECT. -/
def Chip.rxLevel (c : Chip) (rssi : Int) : Chip :=
  let free := match c.link.rx with | none => true | some r => r.stage == 1
  if c.reg 0xD00 ≠ 2 ∨ rssi < c.int 0xD07 16 ∨ !free then c
  else (c.setRx (some { stage := 1, level := rssi, aerial := 0, afc := 0, rssi := rssi, syncAt := 0, overlap := false })).putInt 0xD12 16 rssi

/-- The aerial that diversity uses: the stronger one, or the one that LNK_CFG names. -/
def Chip.rxAerial (c : Chip) (measured : Nat) : Nat :=
  let d := lcDiversity c.lnkCfg
  if d = 2 then measured % 2 else d

/-- LNK_PREAMBLE_QUALIFIED. -/
def Chip.rxQualify (c : Chip) (quality : Nat) (afc level : Int) (aerial : Nat) : Chip := match c.link.rx with
  | none => c
  | some r =>
    if r.stage ≠ 1 ∨ quality < c.reg 0xD08 then c
    else
      let a := c.rxAerial aerial
      let r' : RxSt := { r with stage := 2, level := level, aerial := a, afc := afc }
      (c.setRx (some r')).putInt 0xD13 16 afc

/-- LNK_SYNC_DETECTED; COEX_REQ rises with LNK_CFG[15] (R506). -/
def Chip.rxSync (c : Chip) (rssi : Int) : Chip := match c.link.rx with
  | none => c
  | some r =>
    if r.stage ≠ 2 then c
    else
      let c := (c.setRx (some { r with stage := 3, rssi := rssi, syncAt := c.time.now })).lnkState 3
      if c.bit 0xD01 15 then c.coex true false else c

/-- LNK_SYNC_TIMEOUT (R498). -/
def Chip.rxTimeout (c : Chip) : Chip := match c.link.rx with
  | none => c
  | some r => if r.stage = 2 then (c.setRx none).count 0xD32 else c

/-- The first eight bytes of a packet record (Table 17-6). -/
def packetHead (kind : Nat) (r : RxSt) (coded verified : Bool) (corrected n : Nat) : List Byte :=
  [b8 kind, b8 (r.aerial + (if coded then 2 else 0) + (if verified then 4 else 0) + (if r.overlap then 8 else 0))] ++
  le 2 (ofSigned 16 r.rssi) ++ le 2 (ofSigned 16 r.afc) ++ [b8 (min 255 corrected), b8 n]

/-- LNK_CAPTURE_RESTART (R499). -/
def Chip.rxCapture (c : Chip) (level afc : Int) (aerial corrected n : Nat) : Chip := match c.link.rx with
  | none => c
  | some r =>
    if r.stage < 2 then c
    else if level < r.level + 10 * (c.reg 0xD09 : Int) then (c.setRx (some { r with overlap := true })).count 0xD35
    else
      let c := if r.stage = 3 then
          let c := c.lnkRecord r.syncAt (packetHead 1 r (lcCoded c.lnkCfg) false corrected n)
          (((c.raise 58 handleLnk 0).count 0xD34).coex false false).lnkState 2
        else c.count 0xD33
      let a := c.rxAerial aerial
      (c.setRx (some { stage := 2, level := level, aerial := a, afc := afc, rssi := level, syncAt := 0, overlap := false })).putInt 0xD13 16 afc

/-- A received frame of the Studio link: the bytes from the length byte to the CRC, and the bits that the Trellis engine corrected. -/
structure LinkFrame where
  bytes : List Byte
  corrected : Nat
deriving DecidableEq, Repr

/-- A segment of 256 coded bits without its interleaving (R495). -/
def unmixed (l : List Int) : List Int := (List.range 256).map fun j => l.getD (16 * (j % 16) + j / 16) 0

/-- The coded bits of a frame as trellis steps: generators 133 and 171, the first two of the engine. -/
def linkSteps (air : List Int) : List (List Int) :=
  let l := ((groupsOf 256 (air.length + 1) air).map unmixed).flatten
  (groupsOf 2 (l.length + 1) l).map fun g => g ++ [0, 0]

/-- The frame that the received bits carry, soft values with 0 bits positive (R495, R498): N from the length byte, then N + 2 more bytes. -/
def linkDecode (coded : Bool) (air : List Int) : LinkFrame :=
  let steps := linkSteps air
  let l := if coded then viterbi steps else air.map fun x => decide (x < 0)
  let bytes := bitsBytes l
  { bytes := bytes.take ((bytes.headD 0).toNat + 3), corrected := if coded then trlCorrected steps l else 0 }

/-- The segments of a coded frame go to the Trellis engine, each with a deadline of 1 tick (R502). -/
def Chip.linkTrellis (c : Chip) (coded : Bool) (air : List Int) : Chip :=
  c.each (List.range (if coded then air.length / 256 else 0)) fun c _ => c.trlPut .link (c.tick + 1) 200 128 []

/-- A received frame that passed its CRC, in the order of R500: version and kind, destination, tag, counter. -/
def Chip.rxAccept (keys : Tbl Key) (c : Chip) (r : RxSt) (f : LinkFrame) : Chip :=
  let n := leAt f.bytes 0 1
  let h0 := leAt f.bytes 1 1
  let ver := bits h0 0 2
  let smax := bits h0 2 2
  let kind := bits h0 4 4
  let src := leAt f.bytes 2 1
  let dest := leAt f.bytes 3 1
  let secured := (leAt f.bytes 4 1).testBit 0
  let ctr := if secured then leAt f.bytes (n - 11) 4 else 0
  let accept := fun (c : Chip) =>
    let c := c.modPeer src fun p => { p with ver := max p.ver smax, aerial := r.aerial, rssi := r.rssi, ctr := if secured then ctr else p.ctr }
    let pay := (f.bytes.drop 5).take (if secured then n - 16 else n - 4)
    let c := c.lnkRecord r.syncAt (packetHead 0 r (lcCoded c.lnkCfg) secured f.corrected n ++ (f.bytes.drop 1).take 4 ++ le 4 ctr ++ pay)
    (c.raise 56 handleLnk src).count 0xD30
  if ver = 0 ∨ c.reg 0xD10 < ver ∨ 2 < kind ∨ (secured ∧ ver = 1) then (c.modPeer src fun p => { p with ver := max p.ver smax }).count 0xD3A
  else if dest ≠ c.reg 0xD0C ∧ dest ≠ 0xFF then c
  else if secured then
    let c := c.count 0xF19
    let good := match Tbl.find keys (c.reg 0xD11) with
      | some k => k.attr.testBit 2 && decide (16 ≤ n) && (cmac k.bytes (f.bytes.take (n - 7))).take 8 == (f.bytes.drop (n - 7)).take 8
      | none => false
    if !good then ((c.raise 60 (handleBlock 0x0F) 3).count 0xF1A).count 0xD38
    else
      let last := match c.peer src with | some p => p.ctr | none => 0
      if ctr ≤ last ∨ ctr = 0xFFFFFFFF ∨ !c.peerFits src then c.count 0xD39 else accept c
  else accept c

/-- LNK_FRAME_END (R498, R500). -/
def Chip.rxEnd (keys : Tbl Key) (c : Chip) (air : List Int) : Chip := match c.link.rx with
  | none => c
  | some r =>
    if r.stage ≠ 3 then c
    else
      let coded := lcCoded c.lnkCfg
      let f := linkDecode coded air
      let c := c.linkTrellis coded air
      let n := leAt f.bytes 0 1
      let covered := f.bytes.take (n + 1)
      let good := decide (4 ≤ n) && f.bytes.length == n + 3 && leAt f.bytes (n + 1) 1 * 256 + leAt f.bytes (n + 2) 1 == (crc16 covered).toNat
      let c := ((c.setRx none).coex false false).lnkState 2
      let c := if good then c.rxAccept keys r f else c.count 0xD31
      c.afterFrame 8

/-- LNK_FREQ comes into force at a boundary outside a frame (R514). -/
def Chip.applyLnkFreq (c : Chip) : Chip := match Tbl.find c.staged 0xD02 with
  | some v => if c.inFrame then c else { c with staged := Tbl.del c.staged 0xD02 }.put 0xD02 v.toNat
  | none => c

/-- LNK_CFG comes into force at a boundary: the generation steps (R515). -/
def Chip.applyLnkCfg (c : Chip) (v : Nat) : Chip := (c.put 0xD01 v).linkGenStep

end Sys2Proof.Machine
end

