-- ==== Sys2Proof/Machine/Alarms.lean ====
section
/-! DEFINITION. Broadcast alarms (R256 to R264): conditions, instances, the ALERT pin, what starts and ends pass on, and alarm audio. -/

namespace Sys2Proof.Machine

/-! Conditions (Table 08-11, R257). -/

/-- ALM_CFG enables an alarm kind. -/
def Chip.almOn (c : Chip) (kind : Nat) : Bool :=
  c.bit 0xC30 (if kind = 1 then 0 else if kind = 2 then 1 else if kind = 3 then 4 else if kind = 4 then 2 else 3)

/-- The instance of a kind on a source; one for each identity under kind 3. -/
def AlarmSt.is (a : AlarmSt) (kind source identity : Nat) : Bool :=
  a.kind == kind && hLane a.source == hLane source && (kind != 3 || a.identity == identity)

def AlmPend.is (a : AlmPend) (kind source identity : Nat) : Bool :=
  a.kind == kind && hLane a.source == hLane source && (kind != 3 || a.identity == identity)

def Chip.almFind (c : Chip) (kind source identity : Nat) : Option Nat := (c.alarms.find? fun e => e.2.is kind source identity).map (·.1)

def Chip.modAlarm (c : Chip) (i : Nat) (f : AlarmSt → AlarmSt) : Chip := match Tbl.find c.alarms i with
  | some a => { c with alarms := Tbl.put c.alarms i (f a) }
  | none => c

/-- A result waits for the next tick boundary. -/
def Chip.almQueue (c : Chip) (start : Bool) (kind source identity ts subch : Nat) : Chip :=
  { c with almPend := c.almPend ++ [{ start := start, kind := kind, source := source, identity := identity, ts := ts, heard := ts, subch := subch, order := c.almOrder }],
           almOrder := c.almOrder + 1 }

/-- A unit of a kind was received: the end by timeout counts from it. -/
def Chip.almHeard (c : Chip) (kind source identity ref : Nat) : Chip := match c.almFind kind source identity with
  | some i => c.modAlarm i fun a => { a with lastSig := ref }
  | none => { c with almPend := c.almPend.map fun p => if p.start && p.is kind source identity then { p with heard := ref } else p }

/-- The start condition is met; `ts` is the reference point of the first unit of its run. A source that was lost keeps its instance (R258). -/
def Chip.almStart (c : Chip) (kind source identity ts subch : Nat) : Chip :=
  if !c.almOn kind then c
  else match c.almFind kind source identity with
    | some i => c.modAlarm i fun a => { a with lostAt := none }
    | none => if c.almPend.any fun p => p.start && p.is kind source identity then c else c.almQueue true kind source identity ts subch

/-- The end condition is met. -/
def Chip.almEnd (c : Chip) (kind source identity ts : Nat) : Chip :=
  let open_ := (c.almFind kind source identity).isSome || c.almPend.any fun p => p.start && p.is kind source identity
  let ending := c.almPend.any fun p => !p.start && p.is kind source identity
  if open_ && !ending then c.almQueue false kind source identity ts 0xFF else c

/-! Alarm audio (R261). -/

/-- Running lanes that hold an FM carrier, lowest first. -/
def Chip.fmLanes (c : Chip) : List Nat := (List.range 160).filter fun k => c.laneRuns k && c.laneIsFm k

/-- A Gallery entry is hard-linked in set `lsn`. -/
def Chip.hardIn (c : Chip) (e lsn : Nat) : Bool := bits (c.galW e 6) 16 14 == lsn + 0x3000

/-- LSNs of the hard-linked services with alarm support that lane `k` carries. -/
def Chip.alarmSets (c : Chip) (k : Nat) : List Nat :=
  ((c.holdsOf k).filter fun e => (c.galKind e == 3 || c.galKind e == 4) && c.galHas e 27 && bits (c.galW e 6) 28 2 == 3).map fun e => bits (c.galW e 6) 16 12

/-- The FM target of an instance held on a running lane: the lowest such lane. -/
def Chip.fmTarget (c : Chip) (a : AlarmSt) : Option Nat :=
  if a.kind ≤ 2 then c.fmLanes.find? fun k => k == hLane a.source
  else if a.kind = 3 then c.fmLanes.find? fun k => (c.lane k).rds.pi == some a.identity
  else
    let sets := c.alarmSets (hLane a.source)
    c.fmLanes.find? fun k => match (c.lane k).rds.pi with
      | some pi => match c.galFind 1 pi with
        | some e => sets.any fun s => c.hardIn e s
        | none => false
      | none => false

/-- Alarm audio is configured. -/
def Chip.almAudio (c : Chip) : Bool := c.bit 0xC30 7 && decide (c.reg 0xC37 < 8) && decide (c.almSlot < 16)

/-- Active instances, oldest first. -/
def insertAge (x : Nat × AlarmSt) : List (Nat × AlarmSt) → List (Nat × AlarmSt)
  | [] => [x]
  | y :: r => if x.2.order < y.2.order then x :: y :: r else y :: insertAge x r

def Chip.byAge (c : Chip) : List (Nat × AlarmSt) := c.alarms.foldl (fun l x => insertAge x l) []

/-- The instance that holds the programme, and its lane: the oldest one with a target. -/
def Chip.almHolder (c : Chip) : Option (Nat × Nat) :=
  if !c.almAudio then none else (c.byAge.filterMap fun x => (c.fmTarget x.2).map fun k => (x.1, k)).head?

/-- The alarm slot follows the holder: its lane and programme, or 0xFF and 15 written back. -/
def Chip.alarmAudio (c : Chip) : Chip :=
  let s := c.almSlot
  if 16 ≤ s then c
  else match c.almHolder with
    | some (_, k) => (c.applySlotLane true s k).put (fmsA s 1) (c.reg 0xC37)
    | none => if c.reg (fmsA s 0) = 0xFF then c else (c.applySlotLane true s 0xFF).put (fmsA s 1) 15

/-- Audio code and lane of an instance's record (Table 08-12). -/
def Chip.audioCode (c : Chip) (i : Nat) (a : AlarmSt) : Nat × Nat :=
  if !c.almAudio then (0, 0xFF)
  else match c.fmTarget a with
    | none => (2, 0xFF)
    | some k => if (c.almHolder.map (·.1)) = some i then (1, k) else (3, k)

/-! Instances. -/

/-- Gallery kind of an instance's identity (R256). -/
def almGalKind (kind : Nat) : Nat := if kind ≤ 3 then 1 else if kind = 4 then 2 else 4

/-- The alarm-active bit of an identity follows its active instances. -/
def Chip.almGal (c : Chip) (kind identity : Nat) : Chip := match c.galFind (almGalKind kind) identity with
  | some e => c.galBit e 28 (c.alarms.any fun x => almGalKind x.2.kind == almGalKind kind && x.2.identity == identity)
  | none => c

/-- The alarm record's body (Table 08-12). -/
def almBody (i : Nat) (a : AlarmSt) (state cause : Nat) (audio : Nat × Nat) : List Byte :=
  [b8 i, b8 a.kind, b8 state, b8 cause] ++ le 4 a.identity ++ [b8 a.subch, b8 audio.1, b8 audio.2, 0]

/-- An alarm record leaves, and the Studio link takes it (R260, R263). -/
def Chip.almRecord (keys : Tbl Key) (c : Chip) (i : Nat) (a : AlarmSt) (state cause ts : Nat) (audio : Nat × Nat) : Chip :=
  let body := almBody i a state cause audio
  let c := c.produce { ty := 0x06, handle := a.source, ts := ts, ref := ts, body := body, job := none, flags := c.laneFlags (hLane a.source) ts }
  c.linkAlarm keys body ts

/-- ALM_STATUS: the number of active instances, and ALERT. -/
def Chip.almCount (c : Chip) : Chip := c.putField 0xC39 0 6 c.alarms.length

/-- A broadcast alarm that starts ends test injection (R69). -/
def Chip.almInjection (c : Chip) : Chip := c.each [0, 1] fun c fe => if c.injecting fe then c.injStop fe 3 none else c

/-- The earliest waiting start or end. -/
def firstPend (start : Bool) (l : List AlmPend) : Option AlmPend :=
  (l.filter fun p => p.start == start).foldl (fun b p => match b with
    | some x => if p.ts < x.ts then some p else some x
    | none => some p) none

/-- ALARM_INSTANCE_START (R256 to R263). -/
def Chip.almTake (keys : Tbl Key) (c : Chip) : Chip := match firstPend true c.almPend with
  | none => c
  | some p =>
    let c := { c with almPend := c.almPend.filter fun x => x.order != p.order }
    match Tbl.lowestFree c.alarms 0 32 with
    | none => c.count 0xC3B
    | some i =>
      let first := c.alarms.isEmpty
      let a : AlarmSt := { kind := p.kind, source := p.source, identity := p.identity, order := p.order, lastSig := p.heard, lostAt := none, subch := p.subch }
      let c := { c with alarms := Tbl.put c.alarms i a }
      let c := ((c.put (0xC40 + i) p.source).count 0xC3A).modLane (hLane p.source) fun l => { l with undecided := 0 }
      let c := c.almCount.almGal p.kind p.identity
      let c := if first then { (c.putBit 0xC39 6 true) with alertAt := c.tick }.almInjection.dacMap else c.almInjection
      let c := (c.raise 40 p.source i).alarmAudio
      let c := c.each (List.range 12) fun c w => c.capTrigger w (c.capCauses w 2 c.time.now) false
      c.almRecord keys i a 1 0 p.ts (c.audioCode i a)

/-- ALERT_RELEASE (R259). -/
def Chip.alertRelease (c : Chip) : Chip :=
  if c.alarms.isEmpty ∧ c.alertAt + c.reg 0xC35 ≤ c.tick then c.putBit 0xC39 6 false else c

/-- The last instance has ended: the outputs leave the alarm mapping, and ALERT is released where ALM_PIN_MIN has passed. -/
def Chip.almQuiet (c : Chip) : Chip := if c.alarms.isEmpty then c.dacUnmap.alertRelease else c

/-- An instance ends (R257 to R263): its Sketch watch runs on for ALM_LOST_HOLD ticks (R262). -/
def Chip.almStop (keys : Tbl Key) (c : Chip) (i cause ts : Nat) : Chip := match Tbl.find c.alarms i with
  | none => c
  | some a =>
    let audio := c.audioCode i a
    let hold := c.tick + c.reg 0xC34
    let c := c.each (hLane a.source :: (c.fmTarget a).toList) fun c k => c.modLane k fun l => { l with watch := max l.watch hold }
    let c := { c with alarms := Tbl.del c.alarms i }
    let c := ((c.put (0xC40 + i) 0).almCount).almGal a.kind a.identity
    let c := (c.raise 41 a.source (i + 256 * cause)).alarmAudio.almQuiet
    c.almRecord keys i a 2 cause ts audio

/-- ALARM_INSTANCE_END. -/
def Chip.almFinish (keys : Tbl Key) (c : Chip) : Chip := match firstPend false c.almPend with
  | none => c
  | some p =>
    let c := { c with almPend := c.almPend.filter fun x => x.order != p.order }
    match c.almFind p.kind p.source p.identity with
    | some i => c.almStop keys i 1 p.ts
    | none => c

/-- ALARM_SIGNAL_TIMEOUT: kinds 2, 4 and 5 end where nothing has signalled for their timeout. -/
def Chip.almTimeout (keys : Tbl Key) (c : Chip) (i : Nat) : Chip := match Tbl.find c.alarms i with
  | none => c
  | some a =>
    let limit := (if a.kind = 2 then c.reg 0xC32 else c.reg 0xC33) * 32000
    if (a.kind = 2 ∨ a.kind = 4 ∨ a.kind = 5) ∧ a.lastSig + limit ≤ c.time.now then c.almStop keys i 2 (a.lastSig + limit) else c

/-- ALARM_LOST_HOLD_EXPIRE (R258). -/
def Chip.almLostExpire (keys : Tbl Key) (c : Chip) (i : Nat) : Chip := match Tbl.find c.alarms i with
  | none => c
  | some a => match a.lostAt with
    | none => c
    | some t =>
      let h := c.reg 0xC34
      if h ≠ 0xFFFF ∧ t + h * 32000 ≤ c.time.now then c.almStop keys i 3 (t + h * 32000) else c

/-- A profile switch that changes alarm parameters (R264). -/
def Chip.almSwitch (keys : Tbl Key) (c : Chip) : Chip :=
  let c := { c with almPend := [] }
  c.each (c.alarms.map (·.1)) fun c i => c.almStop keys i 4 c.time.now

/-- A lane that an active instance, or its hold after the end, keeps running in Sketch mode (R262). -/
def Chip.watched (c : Chip) (k : Nat) : Bool :=
  decide (c.tick < (c.lane k).watch) || c.alarms.any fun x => hLane x.2.source == k || c.fmTarget x.2 == some k

end Sys2Proof.Machine
end

