-- ==== Sys2Proof/Machine/Correlate.lean ====
section
/-! DEFINITION. The search for the lag of an excerpt in the anchor's history (R279), in whole numbers: correlations carry 30 fraction bits, and an anchor sample between two of the history lies on the line between them (log entry 64). -/

namespace Sys2Proof.Machine

/-- Samples of an excerpt (1.024 s at 8 kS/s), and studio counts per sample (R278, R279). -/
def excerptLen : Nat := 8192
def corrCounts : Nat := 4096

/-- Drop the samples of a history, oldest first, that lie before the last one at or before time `t`. -/
def histFrom (t : Int) : List (Nat × Int) → List (Nat × Int)
  | a :: b :: r => if (b.1 : Int) ≤ t then histFrom t (b :: r) else a :: b :: r
  | l => l

/-- The value at time `t` of a history that begins with the last sample at or before it; 0 where a sample is missing. -/
def histAt (t : Int) : List (Nat × Int) → Int
  | a :: b :: _ => if (a.1 : Int) ≤ t ∧ b.1 ≤ a.1 + 2 * corrCounts then a.2 + (b.2 - a.2) * (t - a.1) / ((b.1 : Int) - a.1) else 0
  | [a] => if (a.1 : Int) = t then a.2 else 0
  | [] => 0

/-- `n` anchor samples from connector time `t` on, one each 4,096 counts. -/
def histLine : Nat → Int → List (Nat × Int) → List Int
  | 0, _, _ => []
  | n + 1, t, l => let l := histFrom t l; histAt t l :: histLine n (t + corrCounts) l

/-- Sum of products, and of squares. -/
def dot (xs ys : List Int) : Int := (xs.zip ys).foldl (fun (a : Int) p => a + p.1 * p.2) 0
def energy (xs : List Int) : Nat := xs.foldl (fun (a : Nat) x => a + x.natAbs * x.natAbs) 0

/-- One correlation coefficient, 2^30 for 1; 0 without energy. -/
def coefficient (xs ys : List Int) : Int :=
  let r := isqrtN 72 (energy xs * energy (ys.take xs.length) * 2 ^ 40) 0
  if r = 0 then 0 else dot xs ys * 2 ^ 50 / r

/-- c[-d] to c[d] in order: `ys` holds y[-d] on. -/
def lagSearch (xs ys : List Int) (d : Nat) : List Int := (List.range (2 * d + 1)).map fun i => coefficient xs (ys.drop (2 * d - i))

/-- What the search of an excerpt gives: the index of the peak (τ = index - d), ρ, the neighbours of the peak, the highest c beyond 10 ms of it, and
whether either signal lies below -50 dBFS over the compared span. -/
structure LagResult where
  peak : Nat
  rho : Int
  left : Int
  right : Int
  second : Int
  quiet : Bool
deriving DecidableEq, Repr

/-- The RMS lies below -50 dBFS: the mean square below 10^-5 of the full scale of 32,767. -/
def below50 (xs : List Int) : Bool := decide (energy xs * 100000 < xs.length * 32767 * 32767)

/-- Index of the first greatest of a list. -/
def argMaxInt (l : List Int) : Nat :=
  ((List.range l.length).zip l).foldl (fun (b : Nat × Int) e => if b.2 < e.2 then e else b) (0, l.headD 0) |>.1

/-- Search an excerpt whose first sample is of connector time `tx` in a history, oldest first, over ±`d` samples (R279). -/
def searchLag (xs : List Int) (tx d : Nat) (hist : List (Nat × Int)) : LagResult :=
  let ys := histLine (excerptLen + 2 * d) ((tx : Int) - (d * corrCounts : Nat)) hist
  let cs := lagSearch xs ys d
  let t := argMaxInt cs
  let far := (((List.range cs.length).zip cs).filter fun e => decide (e.1 + 80 < t) || decide (t + 80 < e.1)).map (·.2)
  { peak := t, rho := cs.getD t 0, left := cs.getD (t - 1) 0, right := cs.getD (t + 1) 0, second := far.foldl max (-(2 ^ 30 : Nat)),
    quiet := below50 xs || below50 ((ys.drop (2 * d - t)).take xs.length) }

/-- The estimate fails on its peak: ρ below LNK_RHO_MIN per mille, the margin below LNK_PSR half decibels, or a quiet signal (R279). -/
def LagResult.fails (r : LagResult) (rhoMin psr : Nat) : Bool :=
  r.quiet || decide (r.rho * 1000 < rhoMin * 2 ^ 30) || decide (r.rho ≤ 0) || (decide (0 < r.second) && decide (dbAmp r.rho.toNat r.second.toNat < 50 * psr))

/-- round((t + frac) * 4096) with the parabola through the peak and its neighbours; `open_` is frac * 4096 where the peak has no parabola: at an end of the
range, or on a level with both neighbours (log entry 64). -/
def LagResult.lag (r : LagResult) (d : Nat) (open_ : Int) : Int :=
  let t : Int := (r.peak : Int) - d
  let den := 2 * (2 * r.rho - r.left - r.right)
  if r.peak = 0 ∨ 2 * d ≤ r.peak ∨ den ≤ 0 then t * corrCounts + open_
  else t * corrCounts + (2 * (r.right - r.left) * corrCounts + den) / (2 * den)

end Sys2Proof.Machine
end

