-- ==== Sys2Proof/Machine/DabRx.lean ====
section
/-! DEFINITION. DAB mode I on samples, bits and bytes, apart from the ensemble's state: nulls, spectra, the phase reference, impulse responses, soft values, interleaving, protection profiles, Reed-Solomon and fire codes, FIGs (Table 06-1, R166 to R170, R178, R179, R185 to R188, R197, R198). What EN 300 401 and TS 102 563 fix is PRESUMED from those standards (log entry 63). -/

namespace Sys2Proof.Machine

/-! Samples. -/

/-- The oldest sample held. -/
def EnsDsp.first (d : EnsDsp) : Nat := d.last + 1 - d.line.length

/-- The `n` samples from `a` on are held. -/
def EnsDsp.has (d : EnsDsp) (a n : Nat) : Bool := decide (d.first ≤ a) && decide (a + n ≤ d.last + 1) && !d.line.isEmpty

/-- The `n` samples from `a` on, oldest first. -/
def EnsDsp.slice (d : EnsDsp) (a n : Nat) : List Smp := ((d.line.drop (d.last + 1 - (a + n))).take n).reverse

/-- Sample `i` of the lane arrives; the samples of two frames are held. After a gap the samples begin anew (R175). -/
def EnsDsp.push (d : EnsDsp) (i : Nat) (y : Smp) : EnsDsp :=
  if d.line.isEmpty ∨ i ≠ d.last + 1 then { d with line := [y], last := i, seen := i, woke := true, sym := 0, soft := [] }
  else { d with line := pushN 400000 y d.line, last := i }

/-- The frame that can still be received: frames whose samples are no longer held are left out, on the held timing (R175). -/
def EnsDsp.catchUp (d : EnsDsp) : EnsDsp :=
  if d.sym = 0 ∧ d.start < d.first then { d with start := d.start + ceilDiv (d.first - d.start) 196608 * 196608 } else d

/-! Nulls (R166, R171). -/

def EnsDsp.power (d : EnsDsp) (a n : Nat) : Nat := sumList ((d.slice a n).map Smp.power)

/-- Samples that the mean before sample `i` covers: up to 196,608. -/
def EnsDsp.meanLen (d : EnsDsp) (i : Nat) : Nat := min 196608 (i - d.first)

/-- The block of 512 samples at `i` is 10 dB or more below the mean before it. -/
def EnsDsp.below (d : EnsDsp) (i : Nat) : Bool :=
  let n := d.meanLen i
  n != 0 && d.has i 512 && decide (10 * n * d.power i 512 ≤ 512 * d.power (i - n) n)

/-- The first sample of the dip whose block at `i` is the first below the mean: after the last 16 samples that are not (DESIGN CHOICE, log entry 61). -/
def EnsDsp.dipStart (d : EnsDsp) (i : Nat) : Nat :=
  let n := d.meanLen i
  let loud := (List.range 32).filter fun j => decide (16 * d.power (i - n) n < 10 * n * d.power (i + 16 * j) 16)
  match loud.getLast? with | some j => i + 16 * (j + 1) | none => i

/-- A dip begins with the block at `i`. -/
def EnsDsp.dipAt (d : EnsDsp) (i : Nat) : Option Nat := if d.below i && !d.below (i - 1) then some (d.dipStart i) else none

/-- The first dip among the samples not yet searched. -/
def EnsDsp.nextDip (d : EnsDsp) : Option Nat := (List.range (d.last + 1 - d.seen)).findSome? fun r => d.dipAt (d.seen + r)

/-- Two samples differ by at most `w`. -/
def near (w a b : Nat) : Bool := decide (a ≤ b + w) && decide (b ≤ a + w)

/-- A null starts within `w` samples of the expected one. -/
def EnsDsp.nullNear (d : EnsDsp) (w : Nat) : Bool :=
  (List.range (2 * w + 513)).any fun r => match d.dipAt (d.start + r - w - 512) with | some p => near w p d.start | none => false

/-! Spectra. -/

/-- One bin of a Fourier transform of `n` points: Σ x[i] e^(-2πj k i / n). -/
def dftBin (n : Nat) (x : List Smp) (k : Int) : Smp :=
  ((List.range n).zip x).foldl (fun (a : Smp) e =>
    let y := laneMix ((k * e.1 % n).toNat * 2 ^ 32 / n) e.2
    (a.1 + y.1, a.2 + y.2)) (0, 0)

/-- Sample `i` with a carrier offset of `cfo` tenths of a hertz removed (R168). -/
def derotate (cfo : Int) (i : Nat) (x : Smp) : Smp := laneMix ((i : Int) * cfo * (2 ^ 32 : Nat) / 20480000 % (2 ^ 32 : Nat)).toNat x

/-- The `n` samples from `a` on without the carrier offset. -/
def EnsDsp.tuned (d : EnsDsp) (cfo : Int) (a n : Nat) : List Smp := ((List.range n).zip (d.slice a n)).map fun e => derotate cfo (a + e.1) e.2

/-- The 1,536 carriers of mode I. -/
def dabCarriers : List Int := ((List.range 768).map fun (i : Nat) => (i : Int) - 768) ++ (List.range 768).map fun (i : Nat) => (i : Int) + 1

/-- Carrier numbers in the order of the bits: the frequency interleaving of mode I. -/
def piSeq : Nat → Nat → List Nat
  | 0, _ => []
  | n + 1, x => x :: piSeq n ((13 * x + 511) % 2048)

def dabOrder : List Int := ((piSeq 2048 0).filter fun x => decide (256 ≤ x) && decide (x ≤ 1792) && x != 1024).map fun (x : Nat) => (x : Int) - 1024

/-- The place of carrier `k` among the 1,536. -/
def dabPlace (k : Int) : Nat := if k < 0 then (k + 768).toNat else (k + 767).toNat

/-- First sample of symbol `m` (Table 06-2). -/
def EnsDsp.symAt (d : EnsDsp) (m : Nat) : Nat := d.start + 2656 + (m - 1) * 2552

/-- The carriers of symbol `m`: the FFT window starts `adv` samples before the first path's useful part (R169). -/
def EnsDsp.symbol (d : EnsDsp) (cfo : Int) (adv m : Nat) : List Smp :=
  let x := d.tuned cfo (d.symAt m + 504 - adv) 2048
  dabCarriers.map (dftBin 2048 x)

/-- Guard interval correlation of symbol `m`. -/
def EnsDsp.guardCorr (d : EnsDsp) (cfo : Int) (m : Nat) : Smp :=
  let x := d.tuned cfo (d.symAt m) 504
  let y := d.tuned cfo (d.symAt m + 2048) 504
  (x.zip y).foldl (fun (a : Smp) e => (a.1 + e.2.1 * e.1.1 + e.2.2 * e.1.2, a.2 + e.2.2 * e.1.1 - e.2.1 * e.1.2)) (0, 0)

/-- The offset that a guard correlation shows: within ±500 Hz, in 0.1 Hz. -/
def guardOffset (g : Smp) : Int := rnd 48 (argTurn g * 10000)

/-! The phase reference (R167, R198). -/

/-- x j^q. -/
def quarter (q : Nat) (x : Smp) : Smp := match q % 4 with
  | 0 => x
  | 1 => (-x.2, x.1)
  | 2 => (-x.1, -x.2)
  | _ => (x.2, -x.1)

/-- The carriers divided by the phase reference. -/
def byReference (y : List Smp) : List Smp := ((List.range 1536).zip y).map fun e => quarter (4 - (Config.dabReference e.1).toNat) e.2

/-- Powers of the 2,048 taps of the impulse response. -/
def impulse (y : List Smp) : List Nat :=
  let v := dabCarriers.zip (byReference y)
  (List.range 2048).map fun t => Smp.power (v.foldl (fun (a : Smp) e =>
    let z := laneMix ((-(e.1) * t % 2048).toNat * 2 ^ 21) e.2
    (a.1 + z.1, a.2 + z.2)) (0, 0))

def maxNat (l : List Nat) : Nat := l.foldl max 0

/-- Numbers in rising order. -/
def insertNat (x : Nat) : List Nat → List Nat
  | [] => [x]
  | y :: r => if x ≤ y then x :: y :: r else y :: insertNat x r

def sortNat (l : List Nat) : List Nat := l.foldr insertNat []

/-- Twice the median. -/
def median2 (l : List Nat) : Nat := let s := sortNat l; s.getD ((s.length - 1) / 2) 0 + s.getD (s.length / 2) 0

/-- The place and value of the largest number; of equal ones the first. -/
def argMax (l : List Nat) : Nat × Nat := ((List.range l.length).zip l).foldl (fun (b : Nat × Nat) e => if b.2 < e.2 then e else b) (0, l.headD 0)

/-- Correlation with the phase reference at every integer offset within ±`r` carriers. -/
def EnsDsp.offsets (d : EnsDsp) (frac : Int) (r : Nat) : List Nat :=
  let x := d.tuned frac (d.symAt 1 + 504) 2048
  (List.range (2 * r + 1)).map fun (i : Nat) => maxNat (impulse (dabCarriers.map fun k => dftBin 2048 x (k + ((i : Int) - r))))

/-- The carrier offset that the phase reference gives, 0.1 Hz; none where no integer offset is 9 dB above the median of the others (R167). -/
def EnsDsp.phaseOffset (d : EnsDsp) (r : Nat) : Option Int :=
  let frac := guardOffset (d.guardCorr 0 1)
  let l := d.offsets frac r
  let (i, p) := argMax l
  let m := median2 (l.take i ++ l.drop (i + 1))
  if m ^ 10 * 10 ^ 9 ≤ (2 * p) ^ 10 then some (((i : Int) - r) * 10000 + frac) else none

/-- Sum of two lists of powers; an empty one is zero. -/
def addPowers (a b : List Nat) : List Nat := if a.isEmpty then b else if b.isEmpty then a else List.zipWith (· + ·) a b

/-- The response averaged over the last frames (R198), as a sum. -/
def EnsDsp.response (d : EnsDsp) (avg : Nat) : List Nat := (d.cirs.take (2 ^ avg)).foldl addPowers []

/-- A power is at most `half` half decibels below another. -/
def levelWithin (half p strongest : Nat) : Bool := p != 0 && decide (strongest ^ 20 ≤ p ^ 20 * 10 ^ half)

/-- The first path: the earliest tap within the threshold of the strongest, where the taps from 1,024 on lie before the window (R169). -/
def firstPath (thr : Nat) (l : List Nat) : Nat :=
  let m := maxNat l
  (((List.range 2048).map fun i => (i + 1024) % 2048).find? fun i => levelWithin thr (l.getD i 0) m).getD 0

/-- A tap as a delay. -/
def tapDelay (t : Nat) : Int := if t < 1024 then t else (t : Int) - 2048

/-! Soft values (R170). -/

/-- Mean amplitude of each carrier over the symbols held. -/
def meanAmps (l : List (List Nat)) : List Nat := (l.foldl addPowers []).map fun s => s / max 1 l.length

/-- The differential products of a symbol, with the phase slope of a sample clock offset removed (R169, R170). -/
def products (sro : Int) (y prev : List Smp) : List Smp :=
  (dabCarriers.zip (y.zip prev)).map fun e =>
    let a := e.2.1
    let b := e.2.2
    laneMix (e.1 * sro * 2552 * (2 ^ 21 : Nat) / 100000000 % (2 ^ 32 : Nat)).toNat (a.1 * b.1 + a.2 * b.2, a.2 * b.1 - a.1 * b.2)

/-- A scaled product component as a soft value; the scale is a constant of Config (log entry 61). -/
def softValue (x : Int) : Int := clampInt (-7) 7 (rnd 16 (x * Config.dabSoft))

/-- The soft values of a symbol in the order of its bits: real parts, then imaginary parts. -/
def softSymbol (scaled : List Smp) : List Int :=
  let at_ := fun k => scaled.getD (dabPlace k) (0, 0)
  dabOrder.map (fun k => softValue (at_ k).1) ++ dabOrder.map fun k => softValue (at_ k).2

/-- Signal and error power of scaled products against the nearest ideal point (R316); `a` is the carrier's mean amplitude. -/
def productError (a : Nat) (z : Smp) : Nat × Nat :=
  let r : Int := a * 23170 / 32768
  let e := Smp.power ((z.1.natAbs : Int) - r, (z.2.natAbs : Int) - r)
  (a * a, e)

/-! Protection (R178, R185). -/

/-- Puncturing vector `n` (1 to 24) over 32 bits of the mother code: one bit of each four always, and one more at a time in groups of eight. -/
def punctureVector (n : Nat) : List Bool :=
  ((List.range 8).map fun g =>
    let o := [0, 4, 2, 6, 1, 5, 3, 7].getD g 0
    let ones := 1 + ((List.range 3).filter fun m => decide (8 * m + o < n)).length
    (List.range 4).map fun i => decide (i < ones)).flatten

/-- Blocks of 128 bits with their puncturing vectors, then the 24 bits of the tail. -/
def punctureOf (l : List (Nat × Nat)) : List Bool :=
  (l.map fun e => (List.replicate (4 * e.1) (punctureVector e.2)).flatten).flatten ++ (List.replicate 6 [true, true, false, false]).flatten

/-- The FIC: 21 blocks and 3 (R178). -/
def ficPuncture : List Bool := punctureOf [(21, 16), (3, 15)]

/-- The profile of a subchannel: EEP sets A and B by level, UEP by its table index. -/
def subProfile (s : SubCh) : List (Nat × Nat) :=
  let lev := s.prot % 128
  if !s.prot.testBit 7 then Config.uepProfile (lev - 1)
  else if s.prot.testBit 8 then
    let n := s.rate / 32
    let p := [10, 6, 4, 2].getD (lev - 1) 0
    [(24 * n - 3, p), (3, p - 1)]
  else
    let n := s.rate / 8
    match lev with
    | 1 => [(6 * n - 3, 24), (3, 23)]
    | 2 => if n = 1 then [(5, 13), (1, 12)] else [(2 * n - 3, 14), (4 * n + 3, 13)]
    | 3 => [(6 * n - 3, 8), (3, 7)]
    | _ => [(4 * n - 3, 3), (2 * n + 3, 2)]

/-- Soft values in trellis steps. -/
def trellisSteps (puncture : List Bool) (soft : List Int) : List (List Int) :=
  let l := depuncture puncture soft
  groupsOf 4 (l.length + 1) l

/-- Frames of delay of bit `i` of a logical frame (time interleaving over 16 CIFs). -/
def cifDelay (i : Nat) : Nat := [0, 8, 4, 12, 2, 10, 6, 14, 1, 9, 5, 13, 3, 11, 7, 15].getD (i % 16) 0

/-- The logical frame of the oldest of 16 CIFs, newest first: bit i lies in the CIF that came `cifDelay i` after it. -/
def deinterleave (cifs : List (Nat × Nat × List Int)) (s : SubCh) : List Int :=
  (List.range (64 * s.size)).map fun i => (cifs.getD (15 - cifDelay i) (0, 0, [])).2.2.getD (64 * s.start + i) 0

/-! Reed-Solomon and fire codes (R187, R188). -/

/-- Multiplication in GF(2^8) with polynomial 0x11D. -/
def gfMul (a b : Nat) : Nat :=
  let p := (List.range 8).foldl (fun (r : Nat) i => if b.testBit i then r ^^^ (a * 2 ^ i) else r) 0
  (List.range 7).foldl (fun (r : Nat) i => if r.testBit (14 - i) then r ^^^ (0x11D * 2 ^ (6 - i)) else r) p

def gfPow (a : Nat) : Nat → Nat
  | 0 => 1
  | n + 1 => gfMul a (gfPow a n)

def gfInv (a : Nat) : Nat := gfPow a 254

/-- The value of a polynomial, highest term first. -/
def gfEval (l : List Nat) (x : Nat) : Nat := l.foldl (fun r c => gfMul r x ^^^ c) 0

/-- The ten syndromes of a word of 120 symbols. -/
def syndromes (l : List Nat) : List Nat := (List.range 10).map fun i => gfEval l (gfPow 2 i)

/-- A step of Berlekamp's and Massey's algorithm: locator, the one before, its discrepancy, length, shift. -/
structure BmSt where
  c : List Nat
  b : List Nat
  d : Nat
  l : Nat
  m : Nat
deriving DecidableEq, Repr

def BmSt.step (s : List Nat) (x : BmSt) (n : Nat) : BmSt :=
  let d := (List.range (x.l + 1)).foldl (fun r i => r ^^^ gfMul (x.c.getD i 0) (s.getD (n - i) 0)) 0
  if d = 0 then { x with m := x.m + 1 }
  else
    let k := gfMul d (gfInv x.d)
    let c := (List.range (max x.c.length (x.b.length + x.m))).map fun i => x.c.getD i 0 ^^^ (if i < x.m then 0 else gfMul k (x.b.getD (i - x.m) 0))
    if 2 * x.l ≤ n then { c := c, b := x.c, d := d, l := n + 1 - x.l, m := 1 } else { x with c := c, m := x.m + 1 }

/-- The locator of the errors, lowest term first, and their number. -/
def locator (s : List Nat) : BmSt := (List.range 10).foldl (BmSt.step s) { c := [1], b := [1], d := 1, l := 0, m := 1 }

/-- Correct a word of RS(120, 110): up to 5 symbols; none where it cannot be corrected. Also the number of symbols corrected. -/
def rsCorrect (w : List Nat) : Option (List Nat × Nat) :=
  let s := syndromes w
  if s.all (· == 0) then some (w, 0)
  else
    let x := locator s
    -- symbol p of the word is the coefficient of x^(119 - p); its locator root is α^-(119 - p)
    let places := (List.range 120).filter fun p => gfEval x.c.reverse (gfPow 2 (255 - (119 - p))) == 0
    if 5 < x.l ∨ places.length ≠ x.l then none
    else
      let omega := (List.range 10).map fun i => (List.range (i + 1)).foldl (fun r j => r ^^^ gfMul (s.getD j 0) (x.c.getD (i - j) 0)) 0
      let deriv := (List.range x.c.length).map fun i => if i % 2 = 0 then x.c.getD (i + 1) 0 else 0
      let fix := fun (p : Nat) =>
        let v := gfPow 2 (255 - (119 - p))
        gfMul (gfPow 2 (119 - p)) (gfMul (gfEval omega.reverse v) (gfInv (gfEval deriv.reverse v)))
      let y := ((List.range 120).zip w).map fun e => if places.contains e.1 then e.2 ^^^ fix e.1 else e.2
      if (syndromes y).all (· == 0) then some (y, x.l) else none

/-- The fire code over the first 11 bytes of a superframe: the first two hold the check word of the nine that follow (R187). -/
def fireOk (l : List Byte) : Bool :=
  decide (11 ≤ l.length) && bitsNat (bytesBits (l.take 2)) == crcOf 16 0x782F 0 (bytesBits ((l.drop 2).take 9))

/-- A superframe of 120 s bytes decoded (R188): its 110 s data bytes, bytes corrected, and codewords that could not be. -/
def superDecode (s : Nat) (l : List Byte) : List Byte × Nat × Nat :=
  let words := (List.range s).map fun r => (List.range 120).map fun c => (l.getD (r + c * s) 0).toNat
  let done := words.map fun w => match rsCorrect w with | some (y, n) => (y, n, 0) | none => (w, 0, 1)
  let data := (List.range (110 * s)).map fun i => b8 ((done.getD (i % s) ([], 0, 0)).1.getD (i / s) 0)
  (data, sumList (done.map fun d => d.2.1), sumList (done.map fun d => d.2.2))

/-! FIBs and FIGs (R179, R236, Table 08-3). -/

/-- The FIB's CRC passes: 30 bytes, and the complement of their CRC-16. -/
def fibOk (l : List Byte) : Bool := (crc16 (l.take 30)).toNat == 0xFFFF - (bitsNat (bytesBits ((l.drop 30).take 2)))

/-- A component of a DAB service as FIG 0/2 lists it: stream mode with its SubChId, or packet mode with its SCId; DAB+ (ASCTy 63). -/
structure FigComp where
  stream : Bool
  id : Nat
  plus : Bool
deriving DecidableEq, Repr

/-- The content of a FIG that the FIG decoder takes (Table 08-3), by FIG type. `cn`: it describes the next configuration. -/
inductive Fig where
  /-- FIG 0/0: ensemble identifier, change flags, alarm flag, CIF count, and the low part of the CIF count of a change. -/
  | ensemble (eid change : Nat) (alarm : Bool) (cif occurs : Nat)
  /-- FIG 0/1: SubChId, start and size in CU, protection as DAB_SC_PROT packs it, bit rate in kb/s. -/
  | subchannel (cn : Bool) (id start size prot rate : Nat)
  /-- FIG 0/2: a service and its components, in order. -/
  | service (cn : Bool) (sid : Nat) (components : List FigComp)
  /-- FIG 0/3: the SubChId that carries a packet-mode component. -/
  | packet (cn : Bool) (scid subch : Nat)
  /-- FIG 0/6: linkage set number, active, hard and international flags, and the members, each a Gallery kind and identity. -/
  | linkage (lsn : Nat) (active hard intl : Bool) (members : List (Nat × Nat))
  /-- FIG 0/8: SCIdS of a service's component: stream mode with its SubChId, or packet mode with its SCId. -/
  | scids (sid scids : Nat) (stream : Bool) (id : Nat)
  /-- FIG 0/9: extended country code and local time offset. -/
  | country (ecc lto : Nat)
  /-- FIG 0/10: MJD, milliseconds of the day, long form, leap second indicator. -/
  | time (mjd ms : Nat) (long lsi : Bool)
  /-- FIG 0/17: a service's programme type. -/
  | programmeType (sid pty : Nat)
  /-- FIG 0/18: a service's announcement clusters. -/
  | announceSupport (sid : Nat) (clusters : List Nat)
  /-- FIG 0/19: cluster, ASw flags, SubChId, region when given. -/
  | announceSwitch (cluster flags subch : Nat) (region : Option Nat)
  /-- FIG 0/21: the Gallery kind and identity that the frequencies belong to; each in kHz with its AF pool kind. -/
  | frequencies (kind id : Nat) (list : List (Nat × Nat))
  /-- FIG 0/24: the other ensembles that carry a service. -/
  | otherEnsembles (sid : Nat) (eids : List Nat)
  /-- FIG 1/0, 1/1, 1/5: a label of the ensemble, or of a service or data service. -/
  | label (ensemble : Bool) (id charset : Nat) (text : List Byte)
deriving DecidableEq, Repr

/-- `n` bytes from `i` on as a number, first byte highest. -/
def beAt (l : List Byte) (i n : Nat) : Nat := bitsNat (bytesBits ((l.drop i).take n))

/-- Bits `hi - w + 1` to `hi` of a byte. -/
def fieldOf (l : List Byte) (i lo w : Nat) : Nat := bits ((l.getD i 0).toNat) lo w

/-- The FIGs of a FIB's data field, header byte in front; `n` bounds their number. -/
def figSplit : Nat → List Byte → List (List Byte)
  | 0, _ => []
  | _, [] => []
  | n + 1, h :: r =>
    let len := h.toNat % 32
    if h = 0xFF ∨ r.length < len then [] else (h :: r.take len) :: figSplit n (r.drop len)

/-- Take entries off a field: `f` gives what an entry says and the bytes it takes; `n` bounds their number. -/
def entries {α : Type} (f : List Byte → Option (List α × Nat)) : Nat → List Byte → List α
  | 0, _ => []
  | _, [] => []
  | n + 1, l => match f l with
    | some (x, k) => if k = 0 ∨ l.length < k then [] else x ++ entries f n (l.drop k)
    | none => []

/-- Size in CU, protection level 1 to 5 and bit rate of the UEP table's entries. -/
def uepTable : List (Nat × Nat) :=
  [(16, 32), (21, 32), (24, 32), (29, 32), (35, 32), (24, 48), (29, 48), (35, 48), (42, 48), (52, 48), (29, 56), (35, 56), (42, 56), (52, 56), (32, 64), (42, 64)] ++
  [(48, 64), (58, 64), (70, 64), (40, 80), (52, 80), (58, 80), (70, 80), (84, 80), (48, 96), (58, 96), (70, 96), (84, 96), (104, 96), (58, 112), (70, 112), (84, 112)] ++
  [(104, 112), (64, 128), (84, 128), (96, 128), (116, 128), (140, 128), (80, 160), (104, 160), (116, 160), (140, 160), (168, 160), (96, 192), (116, 192), (140, 192)] ++
  [(168, 192), (208, 192), (116, 224), (140, 224), (168, 224), (208, 224), (232, 224), (128, 256), (168, 256), (192, 256), (232, 256), (280, 256), (160, 320), (208, 320)] ++
  [(280, 320), (192, 384), (280, 384), (416, 384)]

def figSub (cn : Bool) (l : List Byte) : Option (List Fig × Nat) :=
  let id := fieldOf l 0 2 6
  let start := fieldOf l 0 0 2 * 256 + fieldOf l 1 0 8
  if fieldOf l 2 7 1 = 0 then
    let i := fieldOf l 2 0 6
    let e := uepTable.getD i (0, 0)
    some (if fieldOf l 2 6 1 = 0 then [.subchannel cn id start e.1 (i + 1) e.2] else [], 3)
  else
    let size := fieldOf l 2 0 2 * 256 + fieldOf l 3 0 8
    let lev := fieldOf l 2 2 2
    let opt := fieldOf l 2 4 3
    let rate := if opt = 0 then 8 * (size / [12, 8, 6, 4].getD lev 1) else 32 * (size / [27, 21, 18, 15].getD lev 1)
    some (if opt < 2 then [.subchannel cn id start size (lev + 1 + 128 + 256 * opt) rate] else [], 4)

def figService (cn long : Bool) (l : List Byte) : Option (List Fig × Nat) :=
  let h := if long then 4 else 2
  let n := fieldOf l h 0 4
  let comp := fun (i : Nat) =>
    let o := h + 1 + 2 * i
    let tm := fieldOf l o 6 2
    if tm = 3 then some ({ stream := false, id := fieldOf l o 0 6 * 64 + fieldOf l (o + 1) 2 6, plus := false } : FigComp)
    else if tm = 2 then none
    else some { stream := true, id := fieldOf l (o + 1) 2 6, plus := tm == 0 && fieldOf l o 0 6 == 63 }
  some ([.service cn (beAt l 0 h) ((List.range n).filterMap comp)], h + 1 + 2 * n)

def figPacket (cn : Bool) (l : List Byte) : Option (List Fig × Nat) :=
  some ([.packet cn (beAt l 0 2 / 16) (fieldOf l 3 2 6)], if fieldOf l 1 0 1 = 1 then 7 else 5)

def figLinkage (long : Bool) (l : List Byte) : Option (List Fig × Nat) :=
  let lsn := beAt l 0 2 % 4096
  let intl := fieldOf l 0 4 1 == 1
  let set := fun ms => Fig.linkage lsn (fieldOf l 0 6 1 == 1) (fieldOf l 0 5 1 == 1) intl ms
  if fieldOf l 0 7 1 = 0 then some ([set []], 2)
  else
    let n := fieldOf l 2 0 4
    let q := fieldOf l 2 5 2
    let kind := if long ∨ q = 0 then 3 else if q = 1 then 1 else 4
    let w := if long then 4 else if intl then 3 else 2
    let id := fun (i : Nat) => let v := beAt l (3 + w * i) w; if !long && intl && kind != 4 then v % 65536 else v
    some ([set ((List.range n).map fun i => (kind, id i))], 3 + w * n)

def figScids (long : Bool) (l : List Byte) : Option (List Fig × Nat) :=
  let h := if long then 4 else 2
  let ext := if fieldOf l h 7 1 = 1 then 1 else 0
  let sid := beAt l 0 h
  let n := fieldOf l h 0 4
  if fieldOf l (h + 1) 7 1 = 0 then some ([.scids sid n true (fieldOf l (h + 1) 0 6)], h + 2 + ext)
  else some ([.scids sid n false (beAt l (h + 1) 2 % 4096)], h + 3 + ext)

def figTime (l : List Byte) : List Fig :=
  let long := fieldOf l 2 3 1 == 1
  let hm := (fieldOf l 2 0 3 * 4 + fieldOf l 3 6 2) * 60 + fieldOf l 3 0 6
  let ms := if long then fieldOf l 4 2 6 * 1000 + beAt l 4 2 % 1024 else 0
  [.time (beAt l 0 3 / 64 % 2 ^ 17) (hm * 60000 + ms) long (fieldOf l 2 5 1 == 1)]

def figPty (l : List Byte) : Option (List Fig × Nat) :=
  let lang := fieldOf l 2 5 1
  let cc := fieldOf l 2 4 1
  some ([.programmeType (beAt l 0 2) (fieldOf l (3 + lang) 0 5)], 4 + lang + cc)

def figSupport (l : List Byte) : Option (List Fig × Nat) :=
  let n := fieldOf l 4 0 5
  some ([.announceSupport (beAt l 0 2) ((List.range n).map fun i => fieldOf l (5 + i) 0 8)], 5 + n)

def figSwitch (l : List Byte) : Option (List Fig × Nat) :=
  let region := fieldOf l 3 6 1 == 1
  some ([.announceSwitch (fieldOf l 0 0 8) (beAt l 1 2) (fieldOf l 3 0 6) (if region then some (fieldOf l 4 0 6) else none)], if region then 5 else 4)

/-- A frequency of 16 bits: a multiple of 1 kHz or of 10 kHz. -/
def freq16 (v : Nat) : Nat := if v < 32768 then v else (v - 32768) * 10

/-- One frequency list of FIG 0/21, by its range and modulation. -/
def figFreqs (l : List Byte) : Option (List Fig × Nat) :=
  let n := fieldOf l 2 0 3
  let id := beAt l 0 2
  let d := (l.drop 3).take n
  let some_ := fun (kind id : Nat) (q : List (Nat × Nat)) => some ([Fig.frequencies kind id q], 3 + n)
  match fieldOf l 2 4 4 with
  | 0 => some_ 2 id ((List.range (n / 3)).map fun i => (16 * (beAt d (3 * i) 3 % 2 ^ 19), 1))
  | 8 => some_ 1 id ((List.range n).map fun i => (87500 + 100 * fieldOf d i 0 8, 0))
  | 6 => some_ 4 (id + 65536 * fieldOf d 0 0 8) ((List.range ((n - 1) / 2)).map fun i => (freq16 (beAt d (1 + 2 * i) 2), 2))
  | 14 => some_ 5 (id + 65536 * fieldOf d 0 0 8) ((List.range ((n - 1) / 2)).map fun i => (freq16 (beAt d (1 + 2 * i) 2), 3))
  | _ => some ([], 3 + n)

def figFrequencyInfo (l : List Byte) : Option (List Fig × Nat) :=
  let n := fieldOf l 1 0 5
  some (entries figFreqs 32 ((l.drop 2).take n), 2 + n)

def figOther (long : Bool) (l : List Byte) : Option (List Fig × Nat) :=
  let h := if long then 4 else 2
  let n := fieldOf l h 0 4
  some ([.otherEnsembles (beAt l 0 h) ((List.range n).map fun i => beAt l (h + 1 + 2 * i) 2)], h + 1 + 2 * n)

/-- What a FIG says: header byte, then its data field. Data of another ensemble counts in FIG 0/21 and 0/24 only. -/
def figParse (f : List Byte) : List Fig :=
  let l := f.drop 2
  let ext := fieldOf f 1 0 5
  let cn := fieldOf f 1 7 1 == 1
  let other := fieldOf f 1 6 1 == 1
  let long := fieldOf f 1 5 1 == 1
  let size := fun (n : Nat) (x : List Fig) => if l.length < n then [] else x
  if l.isEmpty then []
  else if fieldOf f 0 5 3 = 0 then
    if ext = 21 then entries figFrequencyInfo 32 l
    else if ext = 24 then entries (figOther long) 32 l
    else if other then []
    else match ext with
      | 0 => size 4 [.ensemble (beAt l 0 2) (fieldOf l 2 6 2) (fieldOf l 2 5 1 == 1) (fieldOf l 2 0 5 % 20 * 250 + fieldOf l 3 0 8 % 250) (fieldOf l 4 0 8)]
      | 1 => entries (figSub cn) 32 l
      | 2 => entries (figService cn long) 32 l
      | 3 => entries (figPacket cn) 32 l
      | 6 => entries (figLinkage long) 32 l
      | 8 => entries (figScids long) 32 l
      | 9 => size 2 [.country (fieldOf l 1 0 8) (fieldOf l 0 0 6)]
      | 10 => size 4 (figTime l)
      | 17 => entries figPty 32 l
      | 18 => entries figSupport 32 l
      | 19 => entries figSwitch 32 l
      | _ => []
  else if fieldOf f 0 5 3 = 1 then
    let e := fieldOf f 1 0 3
    let cs := fieldOf f 1 4 4
    if e = 0 then size 18 [.label true (beAt l 0 2) cs ((l.drop 2).take 16)]
    else if e = 1 then size 18 [.label false (beAt l 0 2) cs ((l.drop 2).take 16)]
    else if e = 5 then size 20 [.label false (beAt l 0 4) cs ((l.drop 4).take 16)]
    else []
  else []

/-- The FIGs of a FIB. -/
def figsOf (fib : List Byte) : List Fig := ((figSplit 30 (fib.take 30)).map figParse).flatten

/-! TII (R197). -/

/-- The 70 patterns of four combs of eight, in order. -/
def tiiPatterns : List (List Nat) :=
  (List.range 256).filterMap fun v =>
    let l := (List.range 8).filter fun b => v.testBit (7 - b)
    if l.length = 4 then some l else none

/-- Carriers of main identifier `p` and sub identifier `c`: pairs in the four quarters of the band. -/
def tiiCarriers (p c : Nat) : List Int :=
  let combs := tiiPatterns.getD p []
  let at_ := fun (base : Int) => (combs.map fun (b : Nat) => let k : Int := base + 2 * c + 48 * b; [k, k + 1]).flatten
  at_ (-768) ++ at_ (-384) ++ at_ 1 ++ at_ 385

/-- The pairs found at or above the threshold, with their level against the mean carrier power in 0.01 dB: every carrier of the pattern is there. `n` is the
number of frames summed. -/
def tiiFind (thr mean n : Nat) (powers : List Nat) : List (Nat × Nat × Int) :=
  ((List.range 70).map fun p => (List.range 24).filterMap fun c =>
    let l := (tiiCarriers p c).map fun k => powers.getD (dabPlace k) 0
    if mean != 0 && l.all fun x => levelWithin thr x (mean * n) then some (p, c, dbPower (sumList l) (mean * n * l.length)) else none).flatten

end Sys2Proof.Machine
end

