-- ==== Sys2Proof/Machine/Rds.lean ====
section
/-! DEFINITION. RDS on the FM lanes (R230 to R235, Table 08-1): block sync, groups, their records, and the fields they bring to the Gallery, the timebase and the alarms. Bit places inside a group are those of IEC 62106 (PRESUMED, log entry 11). -/

namespace Sys2Proof.Machine

def Chip.rds (c : Chip) (k : Nat) : RdsSt := (c.lane k).rds
def Chip.modRds (c : Chip) (k : Nat) (f : RdsSt → RdsSt) : Chip := c.modLane k fun l => { l with rds := f l.rds }

/-- The RDS decoder of a lane runs. -/
def Chip.rdsRuns (c : Chip) (k : Nat) : Bool := c.laneRuns k && (c.lane k).filled && c.laneIsFm k

/-! Blocks. -/

/-- The remainder of a 26-bit word, or `n` + 10 bits of one, by x^10 + x^8 + x^7 + x^5 + x^4 + x^3 + 1 (PRESUMED, log entry 11): 0 or the offset word. -/
def rdsSyndrome : Nat → Nat → Nat
  | 0, w => w
  | n + 1, w => rdsSyndrome n (if w.testBit (n + 10) then w ^^^ (0x5B9 <<< n) else w)

/-- Offset words A, B, C, D and C' (PRESUMED, log entry 11). -/
def rdsOffset (o : Nat) : Nat := [0x0FC, 0x198, 0x168, 0x1B4, 0x350].getD o 0

/-- Error bursts of length `n` + 1 in a block. -/
def rdsBursts (n : Nat) : List Nat :=
  (((List.range (2 ^ (n + 1))).filter fun p => p.testBit 0 && p.testBit n).map fun p => (List.range (26 - n)).map fun i => p <<< i).flatten

/-- The shortest error burst of at most `n` bits that leaves word `w` with offset `o` (R230). -/
def rdsBurst (n w o : Nat) : Option Nat := (((List.range n).map rdsBursts).flatten).find? fun e => rdsSyndrome 16 (w ^^^ e) == rdsOffset o

/-- Bits set. -/
def ones (w : Nat) : Nat := ((List.range 26).filter w.testBit).length

/-- The word of 26 received bits as a block that should bear one of the offsets `os`, with bursts of up to `n` bits corrected (R230, R231). -/
def rdsDecode (n w : Nat) (os : List Nat) : RdsBlock := match os.find? fun o => rdsSyndrome 16 w == rdsOffset o with
  | some o => { bits := BitVec.ofNat 16 (w / 1024), offset := some o, corrected := 0, ok := true }
  | none => match os.findSome? fun o => (rdsBurst n w o).map fun e => (o, e) with
    | some (o, e) => { bits := BitVec.ofNat 16 ((w ^^^ e) / 1024), offset := some o, corrected := ones e, ok := true }
    | none => { bits := BitVec.ofNat 16 (w / 1024), offset := none, corrected := 0, ok := false }

/-- State of a block (Table 08-2): 0 clean, 1 corrected, 2 uncorrectable. -/
def RdsBlock.state (b : RdsBlock) : Nat := if !b.ok then 2 else if b.corrected = 0 then 0 else 1

/-- Fields may be read from a block (R232). -/
def Chip.blockFields (c : Chip) (b : RdsBlock) : Bool := b.state == 0 || (b.state == 1 && c.bit 0xC10 3)

/-- Place of an offset word in a group: C' stands where C does. -/
def offsetPlace (o : Nat) : Nat := if o = 4 then 2 else o

/-- Uncorrectable blocks among the last 50. -/
def badBlocks (l : List Bool) : Nat := (l.filter fun b => !b).length

/-- The first 26 bits as a word, and the time of the first. -/
def rdsWord (l : List (Nat × Bool)) : Nat := (l.take 26).foldl (fun a b => 2 * a + b.2.toNat) 0
def rdsTime (l : List (Nat × Bool)) : Nat := (l.head?.map (·.1)).getD 0

/-- The first place in the bits, from `i`, where two blocks in a row match consecutive offsets (R230). -/
def rdsSearch : List (Nat × Bool) → Nat → Option Nat
  | [], _ => none
  | x :: r, i =>
    let fit := fun w => (List.range 5).find? fun o => rdsSyndrome 16 w == rdsOffset o
    if r.length < 51 then none
    else match fit (rdsWord (x :: r)), fit (rdsWord (r.drop 25)) with
      | some a, some b => if offsetPlace b = (offsetPlace a + 1) % 4 then some i else rdsSearch r (i + 1)
      | _, _ => rdsSearch r (i + 1)

/-- The offsets that may stand at place `p` of the group that runs: at C also C', first where block B says version B. -/
def RdsSt.offsets (r : RdsSt) (p : Nat) : List Nat :=
  if p = 2 then (match r.group with | [_, b] => if b.2.ok && b.2.bits.toNat.testBit 11 then [4, 2] else [2, 4] | _ => [2, 4]) else [p]

/-- The first break among bits that follow one at `prev`, `i` places on: the place of the bit after it, and how many bit lengths lie between (a bit lasts
524,288 / 19 counts). -/
def rdsBreak : Nat → Nat → List Nat → Option (Nat × Nat)
  | _, _, [] => none
  | prev, i, t :: r => let m := ((t - prev) * 38 + 524288) / 1048576; if m ≤ 1 then rdsBreak t (i + 1) r else some (i, m)

/-- What a break of the multiplex costs in sync (R380): bits up to the next block boundary, and the blocks passed over. -/
def RdsSt.skip (r : RdsSt) (l : List (Nat × Bool)) : Nat × Nat := match rdsBreak r.lastBit 0 ((l.take 26).map (·.1)) with
  | none => (0, 0)
  | some (i, m) => let pos := i + m - 1; (i + (26 - pos % 26) % 26, (pos + 25) / 26)

/-- The bits that the decoder takes now, the blocks passed over, and the blocks in the bits: the next block in sync, two blocks that match before sync, else
all bits that cannot begin one. -/
def Chip.rdsNext (c : Chip) (k : Nat) : Nat × Nat × List (Nat × RdsBlock) :=
  let l := (c.lane k).dsp.rdsBits.bits
  let r := c.rds k
  if r.sync then
    let (n, m) := r.skip l
    let l := l.drop n
    if l.length < 26 then (0, 0, []) else (n + 26, m, [(rdsTime l, rdsDecode (c.field 0xC10 0 3) (rdsWord l) (r.offsets ((r.expect + m) % 4)))])
  else match rdsSearch l 0 with
    | none => (l.length - 51, 0, [])
    | some i => let l := l.drop i; (i + 52, 0, [l, l.drop 26].map fun x => (rdsTime x, rdsDecode 0 (rdsWord x) (List.range 5)))

/-- A block joins the group that runs at place `p`; a fourth block completes it (R231). -/
def RdsSt.put (r : RdsSt) (p : Nat) (b : Nat × RdsBlock) : RdsSt :=
  let g := if p = 0 then [b] else if r.group.length = p then r.group ++ [b] else []
  match g with
  | [a, b, c, d] => { r with group := [], ready := r.ready ++ [(a.1, { a := a.2, b := b.2, c := c.2, d := d.2 })] }
  | g => { r with group := g }

/-- RDS_BLOCK_RECEIVED (R230, R231): the decoder takes bits, and sync, the block at its place and the count of uncorrectable blocks follow. -/
def Chip.rdsBlock (c : Chip) (k : Nat) : Chip :=
  if !c.rdsRuns k then c
  else
    let (n, m, l) := c.rdsNext k
    let last := (((c.lane k).dsp.rdsBits.bits.take n).getLast?.map (·.1)).getD (c.rds k).lastBit
    let c := c.modLane k fun x => { x with dsp := { x.dsp with rdsBits := { x.dsp.rdsBits with bits := x.dsp.rdsBits.bits.drop n } } }
    let c := c.each l fun c b => c.swtLane k (.rds (c.laneStamp k 128 (b.1 + 717447)) b.2.state)
    let c := c.modRds k fun r => { r with lastBit := last, expect := if m = 0 then r.expect else (r.expect + m) % 4, group := if m = 0 then r.group else [] }
    match l with
    | [b] =>
      let recent := (b.2.ok :: (c.rds k).recent).take 50
      let lost := decide (c.reg 0xC11 ≤ badBlocks recent)
      let c := if b.2.ok then c else c.count 0xC13
      c.modRds k fun r => if lost then { r.put r.expect b with recent := [], sync := false, expect := 4, group := [] }
        else { r.put r.expect b with recent := recent, expect := (r.expect + 1) % 4 }
    | [a, b] =>
      let p := offsetPlace (a.2.offset.getD 0)
      c.modRds k fun r => { ({ r with group := [] }.put p a).put ((p + 1) % 4) b with sync := true, recent := [], expect := (p + 2) % 4 }
    | _ => c

/-! Groups. -/

def Group.bv (g : Group) : Nat := g.b.bits.toNat
def Group.cv (g : Group) : Nat := g.c.bits.toNat
def Group.dv (g : Group) : Nat := g.d.bits.toNat
def Group.ty (g : Group) : Nat := bits g.bv 12 4
def Group.isB (g : Group) : Bool := g.bv.testBit 11
def Group.pty (g : Group) : Nat := bits g.bv 5 5
def Group.cPrime (g : Group) : Bool := g.c.offset == some 4

/-- The record body of a group (Table 08-2). -/
def Group.body (g : Group) : List Byte :=
  let bl := [g.a, g.b, g.c, g.d]
  let status := g.a.state + 4 * g.b.state + 16 * g.c.state + 64 * g.d.state
  (bl.map fun b => le 2 b.bits.toNat).flatten ++
    [b8 status, b8 (g.ty + (if g.isB then 16 else 0) + (if g.cPrime then 32 else 0))] ++ le 2 (sumList (bl.map (·.corrected)))

/-- The running stream job of record type `ty` on a lane. -/
def Chip.streamJob (c : Chip) (k ty : Nat) : Option Nat :=
  (c.jobs.find? fun e => dKind e.2.desc == 4 && hLane (dHandle e.2.desc) == k && dOption e.2.desc == ty && (e.2.state == 2 || e.2.state == 5)).map (·.1)

/-- Offer a group to the lane's RDS stream job (R235, R240). -/
def Chip.groupRecord (c : Chip) (k ref : Nat) (g : Group) : Chip := match c.streamJob k 0x10 with
  | none => c
  | some j =>
    if (dF0 (c.jobDesc j)).testBit (2 * g.ty + (if g.isB then 1 else 0)) then
      c.produce { ty := 0x10, handle := c.handleUnit k ref 0 0 1, ts := ref, ref := ref, body := g.body, job := some j, flags := c.laneFlags k ref }
    else c

/-! Confirmation (R232). -/

/-- A field was received; whether this is its second consecutive reception with this value. -/
def Chip.rdsField (c : Chip) (k key v : Nat) : Bool × Chip :=
  let again := Tbl.find (c.rds k).seen key == some v
  (again, c.modRds k fun r => { r with seen := Tbl.put r.seen key v, conf := if again then Tbl.put r.conf key v else r.conf })

def keyPi : Nat := 0
def keyPty : Nat := 1
def keyEcc : Nat := 2
def keyOn : Nat := 3
def keyPs (seg : Nat) : Nat := 8 + seg
/-- Fields of another network, by PI(ON). -/
def keyEon (pi f : Nat) : Nat := 0x100000 + pi * 16 + f

/-! The station of a lane. -/

/-- The Gallery entry that an FM lane carries. -/
def Chip.station (c : Chip) (k : Nat) : Option Nat := match (c.rds k).pi with
  | some pi => c.galFind 1 pi
  | none => none

/-- The lane that first carried this lane's PI among those that carry it. -/
def Chip.piOwner (c : Chip) (k : Nat) : Nat :=
  let same := (List.range 160).filter fun j => (c.rds j).pi == (c.rds k).pi && c.laneHeld j
  same.foldl (fun b j => if (c.rds j).piAt < (c.rds b).piAt then j else b) k

/-- Confirmed PS or ECC of two lanes differ. -/
def Chip.piDiffers (c : Chip) (j k : Nat) : Bool :=
  [keyEcc, keyPs 0, keyPs 1, keyPs 2, keyPs 3].any fun key =>
    match Tbl.find (c.rds j).conf key, Tbl.find (c.rds k).conf key with
    | some x, some y => x != y
    | _, _ => false

/-- A lane's PI conflicts with the carrier first received (R246): bit 29, GAL_PI_CONFLICT_CNT and event 46 once per entry. -/
def Chip.piConflict (c : Chip) (k e : Nat) : Chip :=
  let o := c.piOwner k
  if o ≠ k ∧ c.piDiffers o k ∧ !c.galHas e 29 then (((c.galBit e 29 true).galMark e).count 0xC0C).raise 46 (c.handleLane k) e else c

/-- The lane's receptions write the entry: it is the carrier first received, or does not conflict with it. -/
def Chip.piWrites (c : Chip) (k : Nat) : Bool := c.piOwner k == k || !c.piDiffers (c.piOwner k) k

/-- A field of the lane's own entry. -/
def Chip.ownField (c : Chip) (k w lo n v : Nat) : Chip := match c.station k with
  | some e => if c.piWrites k then c.galField e w lo n v else c
  | none => c

/-- A confirmed PI (R242, R249): the station's entry, held by the lane, with the frequency heard. -/
def Chip.piConfirmed (c : Chip) (k pi : Nat) : Chip :=
  let new := (c.rds k).pi != some pi
  let c := if new then (c.dropHolds k).modRds k fun r => { r with pi := some pi, piAt := c.time.now } else c
  match c.galInsert 1 pi with
  | (none, c) => c
  | (some e, c) =>
    let listed := (c.holdsOf k).contains e
    let c := c.galHold k e
    if listed then c else c.afAdd e (c.laneKHz k) 0 0 false true

/-- Two characters of a PS segment. -/
def psField (c : Chip) (e seg v : Nat) : Chip :=
  -- the first character of a segment is the high byte
  c.galField e (2 + seg / 2) (16 * (seg % 2)) 16 (v / 256 + (v % 256) * 256)

/-- A PS segment of the lane's own station (R232, R246). -/
def Chip.psSegment (c : Chip) (k seg v : Nat) : Chip :=
  let (ok, c) := c.rdsField k (keyPs seg) v
  match ok, c.station k with
  | true, some e =>
    let c := c.piConflict k e
    if !c.piWrites k then c
    else
      let c := psField c e seg v
      let all := [0, 1, 2, 3].all fun s => (Tbl.find (c.rds k).conf (keyPs s)).isSome
      if all then c.galField e 1 26 1 1 else c
  | _, _ => c

/-! AF lists (R234). -/

/-- Frequency of an AF code: kHz and AF pool kind. -/
def afFm (code : Nat) : Option (Nat × Nat) := if 1 ≤ code ∧ code ≤ 204 then some (87500 + 100 * code, 0) else none
def afLfMf (code : Nat) : Option (Nat × Nat) :=
  if 1 ≤ code ∧ code ≤ 15 then some (144 + 9 * code, 3) else if 16 ≤ code ∧ code ≤ 135 then some (387 + 9 * code, 3) else none

/-- Frequencies of a list in method A. -/
def afCodes : List Nat → List (Nat × Nat)
  | [] => []
  | [x] => (afFm x).toList
  | x :: y :: r => if x = 250 then (afLfMf y).toList ++ afCodes r else (afFm x).toList ++ afCodes (y :: r)

/-- Pairs of a list. -/
def pairUp : List Nat → List (Nat × Nat)
  | x :: y :: r => (x, y) :: pairUp r
  | _ => []

/-- A list begins: its length code, 224 to 249. -/
def isLength (code : Nat) : Bool := decide (224 ≤ code) && decide (code ≤ 249)

/-- The frequencies of a whole list, each with its regional mark. A list is in method B where every pair after the first names the tuned frequency. -/
def afList (l : List Nat) : List (Nat × Nat × Bool) :=
  match l with
  | _ :: tuned :: rest =>
    let ps := pairUp rest
    if !ps.isEmpty && ps.all (fun p => p.1 == tuned || p.2 == tuned) then
      ((afFm tuned).toList.map fun f => (f.1, f.2, false)) ++
        (ps.map fun p => if p.1 = tuned then (afFm p.2).toList.map fun f => (f.1, f.2, false) else (afFm p.1).toList.map fun f => (f.1, f.2, true)).flatten
    else (afCodes (tuned :: rest)).map fun f => (f.1, f.2, false)
  | _ => []

/-- A confirmed list goes to the AF pool of entry `e`. -/
def Chip.afCommit (c : Chip) (e source : Nat) (l : List Nat) : Chip :=
  c.each (afList l) fun c f => c.afAdd e f.1 f.2.1 source f.2.2 false

/-- Two codes are received: a length code ends the list before it, which is confirmed where it equals its predecessor. -/
def afStep (cur prev : List Nat) (hi lo : Nat) : List Nat × List Nat × Option (List Nat) :=
  if isLength hi then ([hi, lo], cur, if !cur.isEmpty && cur == prev then some cur else none)
  else if cur.isEmpty then ([], prev, none) else (cur ++ [hi, lo], prev, none)

def Chip.ownAf (c : Chip) (k hi lo : Nat) : Chip :=
  let r := c.rds k
  let (cur, prev, done) := afStep r.afCur r.afPrev hi lo
  let c := c.modRds k fun r => { r with afCur := cur, afPrev := prev }
  match done, c.station k with
  | some l, some e => c.afCommit e 1 l
  | _, _ => c

/-! Other networks (Table 08-1, groups 14A and 14B). -/

/-- The entry of PI(ON): one that stands, or a new one at its second consecutive reception. -/
def Chip.eonEntry (c : Chip) (k pi : Nat) : Option Nat × Chip :=
  let (ok, c) := c.rdsField k keyOn pi
  match c.galFind 1 pi with
  | some e => (some e, c)
  | none => if ok then c.galInsert 1 pi else (none, c)

/-- Variant 13: runs of PTY 31 and of another PTY (Table 08-11, kind 3). -/
def Chip.eonAlarm (c : Chip) (k ref pi pty : Nat) : Chip :=
  let run := fun (t : Tbl (Nat × Nat)) => match Tbl.find t pi with
    | some (n, f) => (n + 1, f)
    | none => (1, ref)
  if pty = 31 then
    let (n, f) := run (c.rds k).eonOn
    let c := c.modRds k fun r => { r with eonOn := Tbl.put r.eonOn pi (n, f), eonOff := Tbl.del r.eonOff pi }
    if 2 ≤ n then c.almStart 3 (c.handleLane k) pi f 0xFF else c
  else
    let (n, f) := run (c.rds k).eonOff
    let c := c.modRds k fun r => { r with eonOff := Tbl.put r.eonOff pi (n, f), eonOn := Tbl.del r.eonOn pi }
    if 2 ≤ n then c.almEnd 3 (c.handleLane k) pi f else c

/-- Group 14A. -/
def Chip.group14A (c : Chip) (k ref : Nat) (g : Group) : Chip :=
  let pi := g.dv
  let v := bits g.bv 0 4
  let (oe, c) := c.eonEntry k pi
  let c := if v = 13 then c.eonAlarm k ref pi (bits g.cv 11 5) else c
  match oe with
  | none => c
  | some e =>
    if v ≤ 3 then
      let (ok, c) := c.rdsField k (keyEon pi v) g.cv
      if ok then psField c e v g.cv else c
    else if v = 4 then
      let (cur0, prev0) := (Tbl.find (c.rds k).eonAf pi).getD ([], [])
      let (cur, prev, done) := afStep cur0 prev0 (g.cv / 256) (g.cv % 256)
      let c := c.modRds k fun r => { r with eonAf := Tbl.put r.eonAf pi (cur, prev) }
      match done with
      | some l => c.afCommit e 2 l
      | none => c
    else if v = 12 then
      let la := g.cv.testBit 15
      c.galLink e (bits g.cv 0 12) la (la && !g.cv.testBit 14) (g.cv.testBit 12)
    else if v = 13 then
      let c := c.galField e 1 6 1 (bits g.cv 0 1)
      let (ok, c) := c.rdsField k (keyEon pi 4) (bits g.cv 11 5)
      if ok then c.galField e 1 8 5 (bits g.cv 11 5) else c
    else c

/-- Group 14B: TA(ON). -/
def Chip.group14B (c : Chip) (k : Nat) (g : Group) : Chip :=
  match c.eonEntry k g.dv with
  | (some e, c) => c.galField e 1 6 1 (bits g.bv 3 1)
  | (none, c) => c

/-! Interpretation (R233). -/

/-- The PI of a group: block A, or C' of a version B group. -/
def Chip.groupPi (c : Chip) (g : Group) : Option Nat :=
  if c.blockFields g.a then some g.a.bits.toNat
  else if g.isB && g.cPrime && c.blockFields g.c then some g.cv else none

/-- PTY runs of kind 1 (Table 08-11). -/
def Chip.ptyAlarm (c : Chip) (k ref pi pty : Nat) : Chip :=
  let r := c.rds k
  let need := c.reg 0xC31
  if pty = 31 then
    let n := r.ptyRun + 1
    let f := if r.ptyRun = 0 then ref else r.ptyFirst
    let c := c.modRds k fun r => { r with ptyRun := n, ptyFirst := f, clearRun := 0 }
    if need ≤ n then c.almStart 1 (c.handleLane k) pi f 0xFF else c
  else
    let n := r.clearRun + 1
    let f := if r.clearRun = 0 then ref else r.clearFirst
    let c := c.modRds k fun r => { r with clearRun := n, clearFirst := f, ptyRun := 0 }
    if need ≤ n then c.almEnd 1 (c.handleLane k) pi f else c

/-- A group 9A (Table 08-11, kind 2). -/
def Chip.group9A (c : Chip) (k ref pi : Nat) : Chip :=
  let l := ((c.rds k).nines ++ [ref]).filter fun t => decide (ref < t + 327680000)
  let c := c.modRds k fun r => { r with nines := l }
  let need := c.reg 0xC31
  let c := if need ≤ l.length then c.almStart 2 (c.handleLane k) pi (l.getD (l.length - need) ref) 0xFF else c
  c.almHeard 2 (c.handleLane k) pi ref

/-- TA and MS of groups 0A, 0B and 15B. -/
def Chip.taMs (c : Chip) (k : Nat) (g : Group) : Chip := (c.ownField k 1 6 1 (bits g.bv 4 1)).ownField k 1 7 1 (bits g.bv 3 1)

/-- Group 4A: clock time (Table 08-9). -/
def Chip.group4A (c : Chip) (k ref : Nat) (g : Group) : Chip :=
  let mjd := bits g.bv 0 2 * 32768 + bits g.cv 1 15
  let hour := bits g.cv 0 1 * 16 + bits g.dv 12 4
  let minute := bits g.dv 6 6
  let half := bits g.dv 0 5
  let lto := if g.dv.testBit 5 then ofSigned 8 (-(half : Int)) else half
  if hour < 24 ∧ minute < 60 then c.timeMessage k 4 0 false mjd ((hour * 60 + minute) * 60000) false lto ref else c

/-- What a group passed on says (Table 08-1). -/
def Chip.interpret (c : Chip) (k ref : Nat) (g : Group) : Chip :=
  let c := match c.groupPi g with
    | none => c
    | some pi =>
      let (ok, c) := c.rdsField k keyPi pi
      if ok then c.piConfirmed k pi else c
  if !c.blockFields g.b then c
  else
    let pi := match (c.rds k).pi with | some p => p | none => (c.groupPi g).getD 0
    let cf := c.blockFields g.c
    let df := c.blockFields g.d
    let c := c.ownField k 1 5 1 (bits g.bv 10 1)
    let c := if g.pty = 31 then c.ownField k 1 27 1 1 else c
    let (ok, c) := c.rdsField k keyPty g.pty
    let c := if ok then c.ownField k 1 8 5 g.pty else c
    let c := c.ptyAlarm k ref pi g.pty
    if g.ty = 0 then
      let c := c.taMs k g
      let c := if df then c.psSegment k (bits g.bv 0 2) g.dv else c
      if !g.isB && cf then c.ownAf k (g.cv / 256) (g.cv % 256) else c
    else if g.ty = 1 ∧ !g.isB ∧ cf ∧ bits g.cv 12 3 = 0 then
      let (ok, c) := c.rdsField k keyEcc (bits g.cv 0 8)
      match ok, c.station k with
      | true, some e =>
        let c := c.piConflict k e
        (c.ownField k 1 4 1 1).ownField k 1 16 8 (bits g.cv 0 8)
      | _, _ => c
    else if g.ty = 4 ∧ !g.isB ∧ cf ∧ df then c.group4A k ref g
    else if g.ty = 9 ∧ !g.isB then c.group9A k ref pi
    else if g.ty = 14 ∧ df then (if g.isB then c.group14B k g else if cf then c.group14A k ref g else c)
    else if g.ty = 15 ∧ g.isB then c.taMs k g
    else c

/-- A group that is passed on (R231 to R235), with the reference time of its first bit. -/
def Chip.rdsPass (c : Chip) (k ref : Nat) (g : Group) : Chip :=
  let c := c.count 0xC12
  let c := c.modRds k fun r => { r with last := some (g.body, c.tick) }
  let c := (c.groupRecord k ref g).interpret k ref g
  let opens := c.blockFields g.b && (g.pty == 31 || (g.ty == 9 && !g.isB))
  c.modLane k fun l => { l with undecided := if opens then c.reg 0xC31 else l.undecided - 1 }

/-- RDS_GROUP (R231): the oldest group not yet taken is passed on where its block B is clean or corrected. -/
def Chip.rdsGroup (c : Chip) (k : Nat) : Chip := match (c.rds k).ready with
  | [] => c
  | (t, g) :: rest =>
    if !c.rdsRuns k then c
    else
      let c := c.modRds k fun r => { r with ready := rest }
      if g.b.state = 2 then c else c.rdsPass k (c.laneStamp k 128 t) g

end Sys2Proof.Machine
end

