-- ==== Sys2Proof/Machine/Dab.lean ====
section
/-! DEFINITION. DAB ensembles (R162 to R200, R236 to R238, R247): acquisition and frames, FIBs and FIGs, subchannel resolution and reconfiguration, logical frames and DAB+ superframes, and TII. -/

namespace Sys2Proof.Machine

/-- The lane of ensemble `e`. -/
def Chip.ensLane (c : Chip) (e : Nat) : Nat := c.reg (dabA e 0)
def Chip.ensState (c : Chip) (e : Nat) : Nat := c.reg (dabA e 1)

/-- The ensemble receives samples: its lane runs. -/
def Chip.ensRuns (c : Chip) (e : Nat) : Bool := decide (e < 8) && c.ensLane e != 0xFF && c.laneRuns (c.ensLane e) && (c.lane (c.ensLane e)).filled

/-- A job runs and may emit records. -/
def Chip.jobEmits (c : Chip) (j : Nat) : Bool := match c.job? j with
  | some x => x.state == 2 || x.state == 5
  | none => false

/-- An event whose detail the manual does not state carries a free value (log entry 12). -/
def Chip.raiseFree (c : Chip) (n handle : Nat) : Chip :=
  let (w, c) := c.freeWord
  c.raise n handle w.toNat

/-! Acquisition (R166 to R172). -/

/-- The ensemble returns to null search: what is in flight is discarded, and versions are taken afresh (R238). -/
def Chip.ensSearch (c : Chip) (e : Nat) : Chip :=
  let d := (c.ens e).dsp
  ((c.put (dabA e 1) 1).ensVoid e).modEns e fun x => { x with dsp := { EnsDsp.reset with line := d.line, last := d.last, seen := d.last + 1 } }

/-- Change the samples and symbols of ensemble `e`. -/
def Chip.modEnsDsp (c : Chip) (e : Nat) (f : EnsDsp → EnsDsp) : Chip := c.modEns e fun x => { x with dsp := f x.dsp }

/-- DAB_NULL_DETECTED (R166): the next dip among the lane's samples; with a partner one frame before it, state 2. -/
def Chip.dabNull (c : Chip) (e : Nat) : Chip :=
  let d := (c.ens e).dsp
  if !c.ensRuns e || c.ensState e != 1 then c
  else match d.nextDip with
    | none => c
    | some p =>
      let second := d.dips.any fun q => near 64 (q + 196608) p
      let c := c.modEns e fun x =>
        { x with phaseFails := 0, dsp := { d with seen := p + 2656, start := p, sym := 0, dips := p :: d.dips.filter fun q => decide (p ≤ q + 196672) } }
      if second then c.put (dabA e 1) 2 else c

/-- The null symbol's carrier powers enter the TII measurement, where the frame is a TII frame (R197). -/
def Chip.tiiFrame (c : Chip) (e : Nat) : Bool :=
  let cfg := c.reg (dabA e 0x0B)
  cfg.testBit 0 && decide ((c.ens e).dsp.tiiN % max 1 (bits cfg 8 8) < 2 ^ bits cfg 4 3) && decide (3 ≤ c.ensState e)

def Chip.tiiTake (c : Chip) (e : Nat) (cfo : Int) : Chip :=
  let cfg := c.reg (dabA e 0x0B)
  if !cfg.testBit 0 then c.modEnsDsp e fun d => { d with tiiN := 0, tii := [] }
  else if !c.tiiFrame e then c.modEnsDsp e fun d => { d with tiiN := d.tiiN + 1 }
  else c.modEnsDsp e fun d =>
    let x := d.tuned cfo (d.start + 304) 2048
    let sum := addPowers d.tii (dabCarriers.map fun k => Smp.power (dftBin 2048 x k))
    if d.tiiN % max 1 (bits cfg 8 8) + 1 = 2 ^ bits cfg 4 3 then { d with tiiN := d.tiiN + 1, tii := [], tiiDone := some sum }
    else { d with tiiN := d.tiiN + 1, tii := sum }

/-- The phase reference of a frame in states 3 to 5 (R168, R169, R197, R198): impulse response, first and strongest path, the window's move, TII; the search
for the null reaches 64 samples, or DAB_SKETCH_WIN after a wake (R171, R175). -/
def Chip.takePhase (c : Chip) (e : Nat) : Chip :=
  let d := (c.ens e).dsp
  let cfo := c.int (dabA e 3) 32
  let adv := c.reg (dabA e 6)
  let y := d.symbol cfo adv 1
  let d1 := { d with cirs := (impulse y :: d.cirs).take 64 }
  let r := d1.response (c.reg (dabA e 0x0A))
  let first := firstPath (c.reg (dabA e 7)) r
  let move := tapDelay first - (adv : Int)
  let d2 := { d1 with
    nullOk := d.nullNear (if d.woke then c.reg (dabA e 9) else 64), woke := false, sym := 1, prev := y, amps := [y.map Smp.mag], corr := d.guardCorr cfo 1,
    soft := [], move := if 4 ≤ c.ensState e then clampInt (-4) 4 move else move, mean := sumList (y.map Smp.power) / 1536, sig := 0, err := 0 }
  let c := c.swtLane (c.ensLane e) (.cir (c.laneStamp (c.ensLane e) 0 (16 * d.start)) (min (2 ^ c.reg (dabA e 0x0A)) d1.cirs.length) r)
  ((c.put (dabA e 0x0E) (first + (argMax r).1 * 65536)).modEnsDsp e fun _ => d2).tiiTake e cfo

/-- DAB_PHASE_REFERENCE (R167): the integer and the fractional offset, and state 3; after 4 failures state 1. -/
def Chip.dabPhase (c : Chip) (e : Nat) : Chip :=
  let x := c.ens e
  let st := c.ensState e
  if !c.ensRuns e || decide (st < 2) || x.dsp.sym != 0 || !x.dsp.has (x.dsp.symAt 1) 2552 then c
  else if st = 2 then match x.dsp.phaseOffset (c.reg (dabA e 5)) with
    | some cfo =>
      let c := ((c.putInt (dabA e 3) 32 cfo).put (dabA e 1) 3).modEns e fun x => { x with phaseFails := 0, noGood := 0, good := false }
      c.takePhase e
    | none =>
      if 4 ≤ x.phaseFails + 1 then c.ensSearch e
      else c.modEns e fun y => { y with phaseFails := y.phaseFails + 1, dsp := { y.dsp with start := y.dsp.start + 196608 } }
  else c.takePhase e

/-- The reference point of the frame in progress: the start of its null symbol at the connector (R30, Table 01-5). -/
def Chip.frameRef (c : Chip) (e : Nat) : Nat := c.laneStamp (c.ensLane e) 0 (16 * (c.ens e).dsp.start)

/-- CIF count of the first CIF of the frame with reference point `ref`, from the last FIG 0/0; a free value before the first (log entry 63). -/
def Chip.cifAt (c : Chip) (e ref : Nat) : Nat × Chip := match (c.ens e).cif with
  | some (n, r) => (((n : Int) + 4 * (((ref : Int) + 1572864 - r) / 3145728) % 5000).toNat % 5000, c)
  | none => let (w, c) := c.freeWord; (w.toNat % 5000, c)

/-- MER in 0.1 dB of a signal and an error power (R316). -/
def merOf (sig err : Nat) : Option Int := if sig = 0 ∨ err = 0 then none else some (logRatio 100 sig err)

/-- The FIC of a frame is complete: its four blocks go to the Trellis engine (R178, Table 06-9). -/
def Chip.ficPut (c : Chip) (e : Nat) (soft : List Int) : Chip :=
  let ref := c.frameRef e
  c.each (List.range 4) fun c b => c.trlPut (.fic e ref b) (c.tick + 4) 774 774 (trellisSteps ficPuncture ((soft.drop (2304 * b)).take 2304))

/-- The end of a frame (R168, R169): the fine offset by at most 100 Hz/s, the window's move, the sample clock offset. -/
def Chip.frameEnd (c : Chip) (e : Nat) : Chip :=
  let d := (c.ens e).dsp
  let moves := (d.move :: d.moves).take 16
  let total := moves.foldl (· + ·) (0 : Int)
  let c := c.putInt (dabA e 3) 32 (c.int (dabA e 3) 32 + clampInt (-96) 96 (guardOffset d.corr))
  let c := c.putInt (dabA e 4) 16 (clampInt (-2000) 2000 (total * 100000000 / (196608 * (moves.length : Int))))
  c.modEnsDsp e fun d => { d with start := ((d.start : Int) + 196608 + d.move).toNat, sym := 0, moves := moves, corr := (0, 0), soft := [] }

/-- The next symbol of the frame is demodulated (R168 to R170, Table 06-2). -/
def Chip.ensSymbol (c : Chip) (e : Nat) : Chip :=
  let d := (c.ens e).dsp
  let m := d.sym + 1
  let cfo := c.int (dabA e 3) 32
  let y := d.symbol cfo (c.reg (dabA e 6)) m
  let amps := (y.map Smp.mag :: d.amps).take 8
  let means := meanAmps amps
  let scaled := (means.zip (products (c.int (dabA e 4) 16) y d.prev)).map fun z => ((z.2.1 / ((max 1 z.1 : Nat) : Int), z.2.2 / ((max 1 z.1 : Nat) : Int)) : Smp)
  let pe := (means.zip scaled).map fun z => productError z.1 z.2
  let g := d.guardCorr cfo m
  let soft := d.soft ++ softSymbol scaled
  let sig := d.sig + sumList (pe.map (·.1))
  let err := d.err + sumList (pe.map (·.2))
  let c := c.modEns e fun x => { x with
    mer := if m = 4 ∨ m = 76 then merOf sig err else x.mer
    dsp := { d with sym := m, prev := y, amps := amps, corr := (d.corr.1 + g.1, d.corr.2 + g.2), soft := soft, sig := sig, err := err } }
  let c := if m = 4 ∨ m = 76 then c.swtLane (c.ensLane e)
      (.ens (c.frameRef e) (c.ensState e) sig err d.nullOk (c.reg (dabA e 0x0E)) (c.int (dabA e 4) 16) (c.int (dabA e 3) 32)) else c
  if m = 4 then (c.ficPut e soft).modEnsDsp e fun d => { d with soft := [], due := true }
  else if m % 18 = 4 then
    let ref := c.frameRef e
    let (n, c) := c.cifAt e ref
    let c := c.modEnsDsp e fun d => { d with soft := [], ready := if 4 ≤ c.ensState e then d.ready ++ [((n + (m - 22) / 18) % 5000, ref, soft)] else d.ready }
    if m = 76 then c.frameEnd e else c
  else c

/-- The ensemble takes the symbols whose samples have arrived. -/
def Chip.ensAdvance (c : Chip) (e : Nat) : Chip :=
  c.each (List.range 80) fun c _ =>
    let d := (c.ens e).dsp
    if 3 ≤ c.ensState e ∧ 0 < d.sym ∧ d.sym < 76 ∧ d.has (d.symAt (d.sym + 1)) 2552 then c.ensSymbol e else c

/-- The lane's outputs of a tick enter its ensemble. -/
def Chip.ensTake (c : Chip) (e : Nat) (l : List (Nat × Smp)) : Chip :=
  if l.isEmpty then c else (c.modEnsDsp e fun d => (l.foldl (fun d y => d.push (y.1 / 16) y.2) d).catchUp).ensAdvance e

/-- The ensemble is lost (R172): event 35, deinterleavers cleared, alarm sources lost (R258). -/
def Chip.ensLost (c : Chip) (e : Nat) : Chip :=
  let k := c.ensLane e
  (((c.raise 35 (c.handleLane k) e).mscVoid k).alarmSourceLost k).ensSearch e

/-- Parameters of an ensemble or channel written since the last frame come into force (R200, R229): staged addresses from `a` on, `n` of them. -/
def Chip.applyStaged (c : Chip) (a n : Nat) : Chip :=
  let mine := c.staged.filter fun x => decide (a ≤ x.1) && decide (x.1 < a + n)
  let c : Chip := { c with staged := c.staged.filter fun x => !(decide (a ≤ x.1) && decide (x.1 < a + n)) }
  c.each mine fun c x => c.put x.1 x.2.toNat

/-- The frame's FIC is complete: received, decoded and passed on (R171). -/
def Chip.ficDone (c : Chip) (e : Nat) : Bool :=
  (c.ens e).dsp.due && (c.ens e).fic.isEmpty && c.trl.all fun b => match b.client with | .fic i _ _ => i != e | _ => true

/-- DAB_FRAME_JUDGED (R171, R172): once, when the frame's FIC is complete. -/
def Chip.dabJudge (c : Chip) (e : Nat) : Chip :=
  let st := c.ensState e
  if !c.ensRuns e || decide (st < 3) || !c.ficDone e then c
  else
    let c := if !(c.ens e).dsp.nullOk ∧ 4 ≤ st then c.count (dabA e 0x12) else c
    let c := c.modEnsDsp e fun d => { d with due := false }
    let c := c.modLane (c.ensLane e) fun l => { l with undecided := l.undecided - 1 }
    let x := c.ens e
    let c := (c.modEns e fun x => { x with good := false }).applyStaged (dabA e 0) 0x80
    let limit := c.reg (dabA e 8)
    if x.good then c.modEns e fun x => { x with held := 0, noGood := 0 }
    else if st = 3 then
      if limit ≤ x.noGood + 1 then c.ensSearch e else c.modEns e fun x => { x with noGood := x.noGood + 1 }
    else
      let c := (c.put (dabA e 1) 5).modEns e fun y => { y with held := x.held + 1 }
      if limit ≤ x.held + 1 then c.ensLost e else c

/-! Services and their indices (R14, R236, R247). -/

/-- Ageing time in ticks. -/
def Chip.idxAge (c : Chip) : Nat := c.reg 0xC02 * 1024

/-- The lowest index, of `n`, that is free or whose holder has aged out. -/
def freeIndex (now age n : Nat) (t : List (Nat × Nat)) : Option Nat :=
  (List.range n).find? fun i => match t.find? fun e => e.1 == i with
    | none => true
    | some e => decide (e.2 + age ≤ now)

/-- Take the listed components into a service; the others are no longer listed. -/
def Chip.listComps (c : Chip) (old : Tbl CompSt) (l : List FigComp) : Tbl CompSt :=
  l.foldl (fun (t : Tbl CompSt) x =>
    let mine := t.find? fun e => e.2.stream == x.stream && e.2.id == x.id
    match mine with
    | some e => Tbl.put t e.1 { e.2 with plus := x.plus, seen := c.tick, listed := true }
    | none => match freeIndex c.tick c.idxAge 32 (t.map fun e => (e.1, e.2.seen)) with
      | some i => Tbl.put t i { stream := x.stream, id := x.id, plus := x.plus, scids := none, seen := c.tick, listed := true }
      | none => t) (old.map fun e => (e.1, { e.2 with listed := false }))

/-- FIG 0/2 lists a service: its index, the lowest that is free. -/
def Chip.listService (c : Chip) (e sid : Nat) (l : List FigComp) : Chip :=
  let x := c.ens e
  match x.svcs.find? fun s => s.2.sid == sid with
  | some s => c.modEns e fun y => { y with svcs := Tbl.put y.svcs s.1 { s.2 with seen := c.tick, comps := c.listComps s.2.comps l } }
  | none => match freeIndex c.tick c.idxAge 64 (x.svcs.map fun s => (s.1, s.2.seen)) with
    | some i => c.modEns e fun y => { y with svcs := Tbl.put y.svcs i { sid := sid, seen := c.tick, comps := c.listComps [] l } }
    | none => c

/-! Versions (R238). -/

/-- A content was received under a key: the first is held; one that differs is confirmed at its second consecutive reception. -/
def versionStep (held cand : Tbl Nat) (key v : Nat) : Tbl Nat × Tbl Nat × Bool :=
  match Tbl.find held key with
  | none => (Tbl.put held key v, cand, false)
  | some h =>
    if h = v then (held, Tbl.del cand key, false)
    else if Tbl.find cand key = some v then (Tbl.put held key v, Tbl.del cand key, true)
    else (held, Tbl.put cand key v, false)

def Chip.ensVersion (c : Chip) (e key v : Nat) : Chip :=
  c.modEns e fun x =>
    let (h, d, ch) := versionStep x.versions x.candidates key v
    { x with versions := h, candidates := d, changed := x.changed || ch }

def SubCh.code (s : SubCh) : Nat := s.start + 1024 * (s.size + 1024 * (s.prot + 512 * s.rate))

def compCode (l : List FigComp) : Nat :=
  l.foldl (fun n x => n * 16384 + x.id * 4 + (if x.stream then 2 else 0) + (if x.plus then 1 else 0) + 1) 0

/-! FIGs (Table 08-3). -/

/-- An identity is carried by the lane: its entry is inserted, held, and heard on the lane's frequency. -/
def Chip.carried (c : Chip) (k kind ident afKind : Nat) : Option Nat × Chip :=
  match c.galInsert kind ident with
  | (none, c) => (none, c)
  | (some e, c) =>
    let listed := (c.holdsOf k).contains e
    let c := c.galHold k e
    (some e, if listed then c else c.afAdd e (c.laneKHz k) afKind 0 false true)

/-- Change the entry of an identity, where it has one. -/
def Chip.onEntry (c : Chip) (kind ident : Nat) (f : Chip → Nat → Chip) : Chip := match c.galFind kind ident with
  | some e => f c e
  | none => c

/-- Ensemble frequencies that an ensemble's entry lists. -/
def Chip.ensembleKHz (c : Chip) (eid : Nat) : List Nat := match c.galFind 2 eid with
  | some e => ((c.afChain e).filter fun a => bits (c.afW a 0) 18 2 == 1).map fun a => bits (c.afW a 0) 0 18
  | none => []

/-- A reconfiguration is announced: the next organisation of the subchannels (change flag bit 0) or services (bit 1) is received anew (R186). -/
def Chip.newOrg (c : Chip) (e change : Nat) : Chip := c.modEns e fun x =>
  { x with next := if change.testBit 0 then [] else x.next
           packets := if change.testBit 1 then [] else x.packets
           svcs := if change.testBit 1 then x.svcs.map fun s => (s.1, { s.2 with comps := s.2.comps.map fun q => (q.1, { q.2 with listed := false }) }) else x.svcs }

/-- One FIG of ensemble `e`, in the FIB whose frame's null symbol began at `ref`. -/
def Chip.fig (c : Chip) (e ref : Nat) (f : Fig) : Chip :=
  let k := c.ensLane e
  let h := c.handleLane k
  match f with
  | .ensemble eid change alarm _ occurs =>
    let c := if (c.ens e).eid.isSome ∧ (c.ens e).eid ≠ some eid then c.dropHolds k else c
    let begins := change != 0 && !(c.ens e).announced
    let c := c.modEns e fun x => { x with eid := some eid, al := alarm, announced := change != 0, occurs := occurs }
    let c := if begins then c.newOrg e change else c
    (c.carried k 2 eid 1).2
  | .subchannel cn id start size prot rate =>
    let s : SubCh := { start := start, size := size, prot := prot, rate := rate }
    if cn != (c.ens e).announced then c else (c.modEns e fun x => { x with next := Tbl.put x.next id s }).ensVersion e id s.code
  | .service cn sid l =>
    let c := if cn != (c.ens e).announced then c else (c.listService e sid l).ensVersion e (64 + sid) (compCode l)
    match c.carried k 3 sid 1 with
    | (some g, c) => c.galField g 1 3 1 (if sid < 65536 then 0 else 1)
    | (none, c) => c
  | .packet cn scid subch => if cn != (c.ens e).announced then c else c.modEns e fun x => { x with packets := Tbl.put x.packets scid subch }
  | .linkage lsn active hard intl ms => c.each ms fun c m => c.onEntry m.1 m.2 fun c g => c.galLink g lsn active hard intl
  | .scids sid n stream id =>
    c.modEns e fun x => { x with svcs := x.svcs.map fun s =>
      if s.2.sid = sid then (s.1, { s.2 with comps := s.2.comps.map fun q => if q.2.stream = stream ∧ q.2.id = id then (q.1, { q.2 with scids := some n }) else q }) else s }
  | .country ecc lto =>
    let c := c.modEns e fun x => { x with lto := lto }
    c.each (c.holdsOf k) fun c g => (c.galField g 1 4 1 1).galField g 1 16 8 ecc
  | .time mjd ms long lsi => c.timeMessage k (if long then 1 else 3) 1 long mjd ms lsi (c.ens e).lto ref
  | .programmeType sid pty => c.onEntry 3 sid fun c g => c.galField g 1 8 5 pty
  | .announceSupport sid clusters => c.onEntry 3 sid fun c g => c.galField g 1 27 1 (if clusters.contains 0xFF then 1 else 0)
  | .announceSwitch cluster flags subch region =>
    let c := if flags.testBit 0 then c.modLane k fun l => { l with undecided := 2 } else c
    if cluster ≠ 0xFF then c
    else
      let eid := (c.ens e).eid.getD 0
      let placed := match region with | some r => r == c.reg 0xC36 | none => true
      if flags.testBit 0 then
        if (c.bit 0xC30 5 && !(c.ens e).al) || (c.bit 0xC30 6 && !placed) then c
        else (c.almHeard 4 h eid ref).almStart 4 h eid ref (subch % 64)
      else c.almEnd 4 h eid ref
  | .frequencies kind id l => c.onEntry kind id fun c g => c.each l fun c q => c.afAdd g q.1 q.2 3 false false
  | .otherEnsembles sid eids => c.onEntry 3 sid fun c g => c.each ((eids.map c.ensembleKHz).flatten) fun c f => c.afAdd g f 1 4 false false
  | .label ens id charset text => c.onEntry (if ens then 2 else 3) id fun c g => c.galLabel g charset text

/-! FIBs (R179, R237). -/

/-- The FIB record's body (Table 08-4). -/
def fibBody (cif index : Nat) (bytes : List Byte) : List Byte := le 2 cif ++ [b8 index, 0] ++ bytes

/-- Offer a FIB to the ensemble's stream job. -/
def Chip.fibRecord (c : Chip) (k ref cif index : Nat) (bytes : List Byte) : Chip := match c.streamJob k 0x11 with
  | none => c
  | some j => c.produce { ty := 0x11, handle := c.handleUnit k ref 0 0 2, ts := ref, ref := ref, body := fibBody cif index bytes, job := some j, flags := c.laneFlags k ref }

/-- A good FIB gives sync (R171): event 34 from state 3. -/
def Chip.fibGood (c : Chip) (e : Nat) : Chip :=
  let st := c.ensState e
  let c := c.modEns e fun x => { x with good := true }
  if st = 3 then (c.put (dabA e 1) 4).raise 34 (c.handleLane (c.ensLane e)) e
  else if st = 5 then c.put (dabA e 1) 4
  else c

/-- A FIG 0/0 in FIC block `block` gives the CIF count of that block's CIF. -/
def Chip.takeCif (c : Chip) (e ref block : Nat) (figs : List Fig) : Chip := c.each figs fun c f => match f with
  | .ensemble _ _ _ cif _ => c.modEns e fun x => { x with cif := some ((cif + 5000 - block) % 5000, ref) }
  | _ => c

/-- One FIB: 30 data bytes and the CRC (R179). -/
def Chip.fib (c : Chip) (e ref block index : Nat) (l : List Byte) : Chip :=
  let c := c.swtLane (c.ensLane e) (.block ref 0 (fibOk l))
  if fibOk l then
    let figs := figsOf l
    let c := ((c.count (dabA e 0x10)).fibGood e).takeCif e ref block figs
    let (cif, c) := c.cifAt e ref
    let c := c.fibRecord (c.ensLane e) ref cif index l
    c.each figs fun c g => c.fig e ref g
  else c.count (dabA e 0x11)

/-- DAB_FIC_DECODED (R178 to R180): the oldest FIC block that the Trellis engine delivered yields 3 FIBs. -/
def Chip.dabFic (c : Chip) (e : Nat) : Chip :=
  if !c.ensRuns e || c.ensState e < 3 then c
  else match (c.ens e).fic with
    | [] => c
    | b :: r =>
      let c := c.modEns e fun x => { x with fic := r }
      c.each ((List.range 3).zip (groupsOf 32 3 b.bytes)) fun c x => c.fib e b.ref b.block (3 * b.block + x.1) x.2

/-! Subchannels (R183, R185, R186). -/

def Chip.msc (c : Chip) (j : Nat) : MscSt := Tbl.get MscSt.reset c.mscs j
def Chip.setMsc (c : Chip) (j : Nat) (m : MscSt) : Chip := { c with mscs := Tbl.put c.mscs j m }

/-- The MSC jobs on a lane, in order of admission. -/
def insertMsc (x : Nat × MscSt) : List (Nat × MscSt) → List (Nat × MscSt)
  | [] => [x]
  | y :: r => if x.2.order < y.2.order then x :: y :: r else y :: insertMsc x r

def Chip.mscOn (c : Chip) (k : Nat) : List Nat :=
  ((c.mscs.filter fun e => hLane (dHandle (c.jobDesc e.1)) == k).foldl (fun l x => insertMsc x l) []).map (·.1)

/-- The component that a job names. -/
def Chip.jobComp (c : Chip) (e j : Nat) : Option CompSt :=
  let h := dHandle (c.jobDesc j)
  match Tbl.find (c.ens e).org (hSvc h) with
  | some s => match Tbl.find s.comps (hComp h) with
    | some q => if q.listed then some q else none
    | none => none
  | none => none

/-- The subchannel of a component. -/
def EnsSt.subOf (x : EnsSt) (q : CompSt) : Option Nat := if q.stream then some q.id else Tbl.find x.pkts q.id

/-- Resolve a job through the current FIG 0/2 and FIG 0/1 (R183, R186). What a decoder that goes on holds stays. -/
def Chip.resolve (c : Chip) (e j : Nat) : Chip :=
  let m := c.msc j
  let d := c.jobDesc j
  let found := match c.jobComp e j with
    | some q => match (c.ens e).subOf q with
      | some id => (Tbl.find (c.ens e).subs id).map fun s => (id, s, q.plus)
      | none => none
    | none => none
  match found with
  | none => c.setMsc j { m.void with sub := none, cfg := none, exceeds := false }
  | some (id, s, plus) =>
    let fits := decide (s.size ≤ bits (dF0 d) 0 10) && decide (s.rate ≤ 8 * bits (dF0 d) 16 8)
    let same := m.sub == some id && m.cfg == some s
    let m1 := { m with sub := some id, cfg := some s, plus := plus }
    if fits then
      c.setMsc j (if same && m.decoding then m1 else { m1.void with exceeds := false, decoding := true })
    else
      let c := if same && m.exceeds then c else c.raiseFree 24 (c.handleLane (c.ensLane e))
      c.setMsc j { m1.void with exceeds := true }

def Chip.resolveAll (c : Chip) (e : Nat) : Chip := c.each (c.mscOn (c.ensLane e)) fun c j => c.resolve e j

/-- DAB+ decoding in use (R184, R187). -/
def Chip.dabPlus (c : Chip) (j : Nat) : Bool :=
  let m := c.msc j
  let s := match m.cfg with | some x => x.rate / 8 | none => 0
  m.plus && !(dF0 (c.jobDesc j)).testBit 24 && decide (s ≤ 48)

/-- The record handle of a job's units. -/
def Chip.mscHandle (c : Chip) (j ts unit : Nat) : Nat :=
  let h := dHandle (c.jobDesc j)
  c.handleUnit (hLane h) ts (hSvc h) (hComp h) unit

/-- The 8 bytes before the data of a logical frame (Table 06-6). -/
def frameHead (cif sub : Nat) (first : Bool) (corrected i n len : Nat) : List Byte :=
  le 2 cif ++ [b8 (sub % 64 + (if first then 64 else 0)), b8 (i + 16 * (n - 1))] ++ le 2 (min 0xFFFF corrected) ++ le 2 len

/-- One decoded logical frame of job `j` (R185, R187, R190): a record, or for DAB+ a part of the superframe, where superframe sync is declared at the first
fire code that passes. -/
def Chip.logicalFrame (c : Chip) (j : Nat) (f : MscFrame) : Chip :=
  let m := c.msc j
  if !m.decoding || !c.jobEmits j then c
  else if c.dabPlus j then
    if m.sync then c.setMsc j { m with sf := m.sf ++ [f] }
    else if fireOk f.bytes then c.setMsc j { m with sync := true, fails := 0, sf := [f] }
    else c
  else
    let k := hLane (dHandle (c.jobDesc j))
    let c := c.setMsc j { m with first := false }
    c.emitUnit j 0x18 (c.mscHandle j f.ref 3) f.ref (c.laneFlags k f.ref) (frameHead f.cif (m.sub.getD 0) m.first f.corrected) f.bytes true false

/-- The logical frames of job `j` that the Trellis engine delivered. -/
def Chip.mscOut (c : Chip) (j : Nat) : Chip :=
  let l := (c.msc j).out
  (c.setMsc j { c.msc j with out := [] }).each l fun c f => c.logicalFrame j f

/-- The organisation last received comes into force (R186). -/
def Chip.takeOrg (c : Chip) (e : Nat) : Chip := c.modEns e fun x => { x with subs := x.next, pkts := x.packets, org := x.svcs, announced := false }

/-- Job `j` takes the newest CIF: with the 15 after its own, a logical frame leaves the deinterleaver and goes to the Trellis engine (R185, Table 06-9). -/
def Chip.mscCif (c : Chip) (e j : Nat) : Chip :=
  let m := c.msc j
  match m.decoding, m.cfg with
  | true, some s =>
    let fill := min 16 (m.fill + 1)
    let c := c.setMsc j { m with fill := fill }
    let l := (c.ens e).dsp.cifs
    match l[15]? with
    | some (cif, ref, _) => if fill < 16 then c else
        c.trlPut (.msc j e ref cif) (c.tick + 24) (192 * bits (dF0 (c.jobDesc j)) 16 8 + 6) (24 * s.rate + 6) (trellisSteps (punctureOf (subProfile s)) (deinterleave l s))
    | none => c
  | _, _ => c

/-- DAB_CIF_DECODED (R185, R186): the logical frames that are decoded leave, and the oldest complete CIF is taken: DAB_CIF_CNT, a change at the announced
count or, unannounced, at this CIF, and the deinterleavers. -/
def Chip.dabCif (c : Chip) (e : Nat) : Chip :=
  if !c.ensRuns e || c.ensState e < 4 then c
  else
    let c := c.each (c.mscOn (c.ensLane e)) Chip.mscOut
    match (c.ens e).dsp.ready with
    | [] => c
    | x :: r =>
      let c := (c.put (dabA e 0x0D) x.1).modEnsDsp e fun d => { d with ready := r, cifs := (x :: d.cifs).take 16 }
      let c := if (c.ens e).announced ∧ x.1 % 250 ≠ (c.ens e).occurs then c else c.takeOrg e
      let c := c.resolveAll e
      c.each (c.mscOn (c.ensLane e)) fun c j => c.mscCif e j

/-- DAB_RECONFIGURATION (R186): the next CIF has the announced count. -/
def Chip.dabReconf (c : Chip) (e : Nat) : Chip :=
  let x := c.ens e
  if !c.ensRuns e || decide (c.ensState e < 4) || !x.announced || !(match x.dsp.ready with | [] => false | q :: _ => q.1 % 250 == x.occurs) then c
  else (c.takeOrg e).resolveAll e

/-! Superframes (R188, R189). -/

/-- The 8 bytes before the data of a superframe (Table 06-7). -/
def superHead (cif sub : Nat) (first fire : Bool) (corrected bad i n len : Nat) : List Byte :=
  le 2 cif ++ [b8 (sub % 64 + (if first then 64 else 0) + (if fire then 128 else 0)), b8 (i + 16 * (n - 1)), b8 (min 255 corrected), b8 bad] ++ le 2 len

/-- A failed superframe of job `j` on ensemble `e`: DAB_SC_FAIL_CNT, with DAB_SAT[4]. -/
def Chip.superFail (c : Chip) (e j : Nat) : Chip :=
  let m := c.msc j
  if m.failCnt < 0xFFFFFFFF then c.setMsc j { m with failCnt := m.failCnt + 1 }
  else if c.bit (dabA e 0x14) 4 then c
  else
    let slot := ((c.mscOn (c.ensLane e)).findIdx fun x => x == j)
    (c.putBit (dabA e 0x14) 4 true).raiseSat 4 (dabA e (0x83 + 4 * slot))

/-- DAB_SUPERFRAME_DECODED (R188): five logical frames in sync. Four failures in a row clear the sync, and the search goes on with the frames that follow. -/
def Chip.dabSuper (c : Chip) (j : Nat) : Chip :=
  let m := c.msc j
  let k := hLane (dHandle (c.jobDesc j))
  match c.ensOf k, m.sf with
  | some e, f :: rest =>
    if !m.decoding || !m.sync || !c.dabPlus j || !c.jobEmits j || !c.ensRuns e || decide (rest.length < 4) then c
    else
      let s := match m.cfg with | some x => x.rate / 8 | none => 0
      let (data, corrected, bad) := superDecode s ((m.sf.take 5).map (·.bytes)).flatten
      let fire := fireOk data
      let failed := !fire || bad != 0
      let fails := if fire then 0 else m.fails + 1
      let lost := decide (4 ≤ fails)
      let c := c.setMsc j { m with first := lost, fails := if lost then 0 else fails, sync := !lost, recent := (failed :: m.recent).take 8,
                                   sf := if lost then [] else m.sf.drop 5, out := if lost then m.sf.drop 5 ++ m.out else m.out }
      let c := if failed then c.superFail e j else c
      let c := c.countBy (dabA e 0x13) corrected
      c.emitUnit j 0x19 (c.mscHandle j f.ref 4) f.ref (c.laneFlags k f.ref) (superHead f.cif (m.sub.getD 0) m.first fire corrected bad) data true (!fire)
  | _, _ => c

/-! TII (R197). -/

/-- Insert a pair by level, strongest first. -/
def insertTii (x : Nat × Nat × Int) : List (Nat × Nat × Int) → List (Nat × Nat × Int)
  | [] => [x]
  | y :: r => if y.2.2 < x.2.2 then x :: y :: r else y :: insertTii x r

/-- DAB_TII_MEASUREMENT_END: the pairs found go to DAB_TII_0 to DAB_TII_7, strongest first. -/
def Chip.dabTii (c : Chip) (e : Nat) : Chip :=
  let d := (c.ens e).dsp
  match d.tiiDone with
  | none => c
  | some powers =>
    if !c.ensRuns e || c.ensState e < 3 then c
    else
      let found := tiiFind (c.reg (dabA e 0x0C)) d.mean (2 ^ bits (c.reg (dabA e 0x0B)) 4 3) powers
      let l := (found.foldl (fun l x => insertTii x l) []).take 8
      let c := c.modEnsDsp e fun d => { d with tiiDone := none }
      let words := (List.range 8).map fun i => match l[i]? with
        | some (a, b, lev) => a + b * 128 + 4096 + satSigned 16 lev * 65536
        | none => 0
      let c := c.swtLane (c.ensLane e) (.tii (c.laneStamp (c.ensLane e) 0 c.time.now) words)
      c.each (List.range 8) fun c i => c.put (dabA e (0x20 + i)) (words.getD i 0)

/-! The Trellis engine's deliveries. -/

/-- A FIC block is decoded: 768 bits without the energy dispersal (R178). -/
def Chip.ficDecoded (c : Chip) (e ref block : Nat) (soft : List (List Int)) : Chip :=
  c.modEns e fun x => { x with fic := x.fic ++ [{ ref := ref, block := block, bytes := bitsBytes (descramble (viterbi soft)) }] }

/-- A logical frame is decoded (R185). -/
def Chip.mscDecoded (c : Chip) (j ref cif : Nat) (soft : List (List Int)) : Chip :=
  let m := c.msc j
  let l := viterbi soft
  if m.decoding then c.setMsc j { m with out := m.out ++ [{ cif := cif, ref := ref, corrected := trlCorrected soft l, bytes := bitsBytes (descramble l) }] } else c

/-! Computed parameters (Table 06-12). -/

/-- DAB_SC_MAP, DAB_SC_PROT, DAB_SC_HANDLE and DAB_SC_FAIL_CNT of slot `s`: word `w` of the s-th MSC job. -/
def Chip.dabSc (c : Chip) (e s w : Nat) : Nat :=
  match (if c.ensLane e = 0xFF then [] else c.mscOn (c.ensLane e))[s]? with
  | none => 0
  | some j =>
    let m := c.msc j
    let z : SubCh := { start := 0, size := 0, prot := 0, rate := 0 }
    let s := m.cfg.getD z
    if w = 0 then (m.sub.getD 0) % 64 + (if m.sub.isSome then 64 else 0) + (if m.exceeds then 128 else 0) + s.start % 1024 * 256 + s.size % 1024 * 2 ^ 18
    else if w = 1 then s.prot % 512 + (if m.cfg.isSome && c.dabPlus j then 512 else 0) + (if m.sync then 1024 else 0) + s.rate % 65536 * 65536
    else if w = 2 then setBits (dHandle (c.jobDesc j)) 25 4 (c.laneWin (hLane (dHandle (c.jobDesc j))))
    else m.failCnt

end Sys2Proof.Machine
end

