-- ==== Sys2Proof/Machine/DrmRx.lean ====
section
/-! DEFINITION. DRM on samples, cells and bits, apart from the channel's state: resampling, mode search, time and frequency references, the equaliser, soft values, the levels of the multilevel code, FAC and SDC content (Tables 07-1, 07-3, 08-5, R204 to R217). What ES 201 980 fixes is PRESUMED from it, or a constant of Config (log entry 63). -/

namespace Sys2Proof.Machine

/-! Modes (Table 07-3): 0 to 4 for A to E; lengths in native samples. -/

def drmUseful (m : Nat) : Nat := [1152, 1024, 704, 448, 432].getD m 432
def drmGuard (m : Nat) : Nat := [128, 256, 256, 352, 48].getD m 48
def drmSymbol (m : Nat) : Nat := drmUseful m + drmGuard m
def drmSymbols (m : Nat) : Nat := [15, 15, 20, 24, 40].getD m 40
def drmSpacing (m : Nat) : Nat := [4, 2, 2, 1, 4].getD m 4
def drmPeriod (m : Nat) : Nat := [5, 3, 2, 3, 4].getD m 4

/-- Native samples of a frame: 400 ms at 48 kS/s, 100 ms at 192 kS/s. -/
def drmFrame : Nat := 19200

/-- Native rate. -/
def drmRate (m : Nat) : Nat := if m = 4 then 192000 else 48000

/-- Frames of a super frame. -/
def drmSuper (m : Nat) : Nat := if m = 4 then 4 else 3

/-! Samples (R204). -/

/-- The oldest native sample held. -/
def DrmDsp.first (d : DrmDsp) : Nat := d.last + 1 - d.line.length

/-- The `n` native samples from `a` on are held. -/
def DrmDsp.has (d : DrmDsp) (a n : Nat) : Bool := decide (d.first ≤ a) && decide (a + n ≤ d.last + 1) && !d.line.isEmpty

/-- The `n` native samples from `a` on, oldest first, each with its studio time. -/
def DrmDsp.slice (d : DrmDsp) (a n : Nat) : List (Nat × Smp) := ((d.line.drop (d.last + 1 - (a + n))).take n).reverse

/-- One input sample in units of 2^-24 / 3. -/
def resampleUnit : Nat := 3 * 2 ^ 24

/-- Lane output `y` of studio time `t` arrives, `p` counts after the one before it: derotation by -5 kHz where `half` (option 0x21), and resampling by 3/4, where the
step follows the sample clock offset, 0.01 ppm (R204, R207). After a gap the samples begin anew on the held timing (R226). -/
def DrmDsp.push (d : DrmDsp) (half : Bool) (p : Nat) (sro : Int) (t : Nat) (y : Smp) : DrmDsp :=
  let gap := d.input.isEmpty || t != d.inAt + p
  let d := if gap then
      { d with input := [], pos := 0, line := [], sym := 0, woke := true, syms := [], fac := [], sdc := [], msc := [], last := d.last + (t - d.inAt) * 3 / (4 * max 1 p) }
    else d
  let rot := if half then (d.rot + 2 ^ 32 - 335544320) % 2 ^ 32 else 0
  let x := pushN 32 (if half then laneMix rot y else y) d.input
  let d := { d with input := x, inAt := t, rot := rot }
  if resampleUnit ≤ d.pos then { d with pos := d.pos - resampleUnit }
  else
    let z := firSum (fun i => (Config.drmResample d.pos i).toInt) 32 x
    let step := 2 ^ 26 + (sro * 2 ^ 26 / 100000000)
    { d with pos := ((d.pos : Int) + step - resampleUnit).toNat, line := pushN 60000 (t + d.pos * p / resampleUnit - 16 * p, (rnd 15 z.1, rnd 15 z.2)) d.line, last := d.last + 1 }

/-- The frame that can still be received, on the held timing (R226). -/
def DrmDsp.catchUp (d : DrmDsp) : DrmDsp :=
  if d.sym = 0 ∧ d.start < d.first then { d with start := d.start + ceilDiv (d.first - d.start) drmFrame * drmFrame } else d

/-- Phase of the derotator at native sample `i` (R207). -/
def DrmDsp.phaseAt (d : DrmDsp) (m i : Nat) : Nat :=
  (((d.ph : Int) + ((i : Int) - d.phAt) * d.cfo * (2 ^ 24 : Nat) / (10 * drmRate m)) % (2 ^ 32 : Nat)).toNat

/-- The `n` native samples from `a` on without the carrier offset. -/
def DrmDsp.tuned (d : DrmDsp) (m a n : Nat) : List Smp := ((List.range n).zip (d.slice a n)).map fun e => laneMix (d.phaseAt m (a + e.1)) e.2.2

/-- The offset changes from native sample `i` on; the phase goes on. -/
def DrmDsp.setCfo (d : DrmDsp) (m i : Nat) (cfo : Int) : DrmDsp := { d with cfo := cfo, ph := d.phaseAt m i, phAt := i }

/-! Guard correlation and the mode (R205). -/

/-- Guard correlation of a symbol of mode `m` that begins at native sample `a`. -/
def DrmDsp.guardCorr (d : DrmDsp) (m a : Nat) : Smp :=
  let x := d.tuned m a (drmGuard m)
  let y := d.tuned m (a + drmUseful m) (drmGuard m)
  (x.zip y).foldl (fun (s : Smp) e => (s.1 + e.2.1 * e.1.1 + e.2.2 * e.1.2, s.2 + e.2.2 * e.1.1 - e.2.1 * e.1.2)) (0, 0)

/-- The correlation peaks of the last 8 symbol periods of mode `m`: their places in the period, and their power summed. -/
def DrmDsp.peaks (d : DrmDsp) (m : Nat) : List Nat × Nat :=
  let s := drmSymbol m
  let base := d.last + 1 - 9 * s
  let l := (List.range 8).map fun j => argMax ((List.range s).map fun n => Smp.power (d.guardCorr m (base + j * s + n)))
  (l.map (·.1), sumList (l.map (·.2)))

/-- Two places in a symbol period agree: within 2 samples (DESIGN CHOICE, log entry 63). -/
def samePlace (period a b : Nat) : Bool := near 2 a b || near 2 (a + period) b || near 2 a (b + period)

/-- The mode that the guard intervals show among the candidates, with the first sample of a symbol: its peak repeats over 8 symbols and is 6 dB above that of every
other candidate, powers taken over equal lengths. -/
def DrmDsp.modeFound (d : DrmDsp) (cands : List Nat) : Option (Nat × Nat) :=
  cands.findSome? fun m =>
    let s := drmSymbol m
    if !d.has (d.last + 1 - 9 * s) (9 * s) then none
    else
      let (l, p) := d.peaks m
      let clear := cands.all fun o => o == m || decide (1000 * ((d.peaks o).2 * drmGuard m ^ 2) ^ 5 ≤ (p * drmGuard o ^ 2) ^ 5)
      let q := l.headD 0
      if p != 0 && clear && l.all (samePlace s q) then some (m, d.last + 1 - 9 * s + q) else none

/-! Time and frequency references (R206, R209). -/

/-- Carrier `k` of the symbol that begins at native sample `a`; the FFT window begins in the middle of the guard interval. -/
def DrmDsp.bin (d : DrmDsp) (m a : Nat) (k : Int) : Smp := dftBin (drmUseful m) (d.tuned m (a + drmGuard m / 2) (drmUseful m)) k

/-- Correlation of a symbol with the time reference cells at carrier offset `o`, and whether it is coherent: at least half of what the powers allow
(DESIGN CHOICE, log entry 63). -/
def DrmDsp.timeCorr (d : DrmDsp) (m a : Nat) (o : Int) : Nat × Bool :=
  let cells := (Config.drmTimeCells m).map fun e => (d.bin m a (e.1 + o), (e.2 : Smp))
  let s := cells.foldl (fun (r : Smp) e => (r.1 + e.1.1 * e.2.1 + e.1.2 * e.2.2, r.2 + e.1.2 * e.2.1 - e.1.1 * e.2.2)) (0, 0)
  let all := sumList (cells.map fun e => e.1.power) * sumList (cells.map fun e => e.2.power)
  (s.power, all != 0 && decide (all ≤ 2 * s.power))

/-- The symbols since the mode was identified that are held. -/
def DrmDsp.symbolsFrom (d : DrmDsp) (m : Nat) : List Nat :=
  let s := drmSymbol m
  ((List.range ((d.last + 1 - d.from_) / s)).map fun j => d.from_ + j * s).filter fun a => d.has a s

/-- Integer carrier offsets within ±`range` Hz. -/
def drmOffsets (m range : Nat) : List Int :=
  let n := range * drmUseful m / drmRate m
  (List.range (2 * n + 1)).map fun (i : Nat) => (i : Int) - n

/-- The offset that a guard correlation shows, in 2^-8 of 0.1 Hz. -/
def guardHz (m : Nat) (g : Smp) : Int := rnd 48 (argTurn g * (2560 * drmRate m / drmUseful m : Nat))

/-- The frame start and the offset that the reference cells give, in 2^-8 of 0.1 Hz: in modes A to D the integer offset is that of the most power on the frequency
reference carriers, in mode E that of the best time reference; the fraction is that of the guard correlation. -/
def DrmDsp.timeRef (d : DrmDsp) (m range : Nat) : Option (Nat × Int) :=
  let l := d.symbolsFrom m
  let g := l.foldl (fun (s : Smp) a => let x := d.guardCorr m a; (s.1 + x.1, s.2 + x.2)) (0, 0)
  let frac := guardHz m g
  let d := { d with cfo := frac, ph := 0, phAt := 0 }
  let offs := drmOffsets m range
  let power := fun (o : Int) => sumList (l.map fun a => sumList ((Config.drmFreqCells m).map fun k => Smp.power (d.bin m a (k + o))))
  let timed := fun (o : Int) => maxNat (l.map fun a => (d.timeCorr m a o).1)
  let o := offs.getD (argMax (offs.map (if m = 4 then timed else power))).1 0
  match l.find? fun a => (d.timeCorr m a o).2 with
  | some a => some (a, o * (2560 * drmRate m / drmUseful m : Nat) + frac)
  | none => none

/-- The time reference is found within ±`w` native samples of the frame's start. -/
def DrmDsp.trefNear (d : DrmDsp) (m w : Nat) : Bool := (List.range (2 * w + 1)).any fun r => (d.timeCorr m (d.start + r - w) 0).2

/-! The equaliser (R211 to R215). -/

/-- x / y with 16 fraction bits. -/
def Smp.over (x y : Smp) : Smp :=
  let n : Int := max 1 y.power
  ((x.1 * y.1 + x.2 * y.2) * 65536 / n, (x.2 * y.1 - x.1 * y.2) * 65536 / n)

/-- The mean of samples. -/
def meanSmp (l : List Smp) : Smp :=
  let s := l.foldl (fun (a : Smp) x => (a.1 + x.1, a.2 + x.2)) (0, 0)
  (s.1 / (max 1 l.length : Nat), s.2 / (max 1 l.length : Nat))

/-- The gain reference cells of symbol `s` of the frame whose carriers are `y`: place, received value, known value. -/
def gainCells (m s : Nat) (low : Int) (y : List Smp) : List (Nat × Smp × Smp) :=
  ((List.range y.length).zip y).filterMap fun e =>
    let p : Smp := Config.drmGain m s (low + e.1)
    if p = (0, 0) then none else some (e.1, e.2, p)

/-- The raw estimates of a symbol and their average with the 2^t - 1 before them on the same carrier (R211). -/
def DrmDsp.estimate (d : DrmDsp) (t n : Nat) (cells : List (Nat × Smp × Smp)) : DrmDsp :=
  cells.foldl (fun d e =>
    let raw := (Smp.over e.2.1 e.2.2 :: Tbl.get [] d.raw e.1).take 8
    { d with raw := Tbl.put d.raw e.1 raw, est := Tbl.put d.est e.1 (((n, meanSmp (raw.take (2 ^ t))) :: Tbl.get [] d.est e.1).take 4) }) d

/-- The estimate on a pilot carrier at symbol `n`: linear between the averaged estimates around it (R212). -/
def timeInterp (l : List (Nat × Smp)) (n : Nat) : Smp :=
  match (l.takeWhile fun e => decide (n < e.1)).getLast?, l.find? fun e => decide (e.1 ≤ n) with
  | some b, some a =>
    let mix := fun (x y : Int) => x + (y - x) * ((n - a.1 : Nat) : Int) / ((b.1 - a.1 : Nat) : Int)
    (mix a.2.1 b.2.1, mix a.2.2 b.2.2)
  | none, some a => a.2
  | some b, none => b.2
  | none, none => (0, 0)

/-- x e^(-2πj k i / n). -/
def turned (n : Nat) (k : Int) (i : Nat) (x : Smp) : Smp := laneMix ((k * i % n).toNat * 2 ^ 32 / n) x

/-- The first path of the pilot-derived impulse response: the earliest tap near the strongest (R213); the threshold is a constant of Config. -/
def pilotTau (m : Nat) (low : Int) (h : List (Nat × Smp)) : Nat :=
  let u := drmUseful m
  let taps := (List.range (u / drmSpacing m)).map fun t =>
    Smp.power (h.foldl (fun (a : Smp) e => let z := turned u (-(low + e.1)) t e.2; (a.1 + z.1, a.2 + z.2)) (0, 0))
  let top := maxNat taps
  ((List.range taps.length).find? fun i => levelWithin Config.drmPathThr (taps.getD i 0) top).getD 0

/-- The gain of every carrier of a symbol (R213): `h` the pilot carriers by place. -/
def freqInterp (m len : Nat) (tau n : Nat) (low : Int) (h : List (Nat × Smp)) : List Smp :=
  let u := drmUseful m
  let x := drmSpacing m
  let g := h.map fun e => turned u (-(low + e.1)) tau e.2
  let first := (h.head?.map (·.1)).getD 0
  (List.range n).map fun (c : Nat) =>
    let at_ : Int := ((c : Int) - first) / x
    let r := (((c : Int) - first) % x).toNat
    let s := firSum (fun i => (Config.drmSinc x len r i).toInt) (2 * len)
      ((List.range (2 * len)).map fun (i : Nat) => g.getD (clampInt 0 ((g.length : Int) - 1) (at_ - len + 1 + i)).toNat (0, 0))
    turned u (low + c) tau (rnd 15 s.1, rnd 15 s.2)

/-- One dimension of a constellation of unit power with 2^l amplitudes: half the distance of two points, 16 fraction bits. -/
def halfStep (l : Nat) : Int := [46341, 20724, 10112].getD (l - 1) 46341

/-- Amplitude `a` of 2^l. -/
def amplitude (l a : Nat) : Int := (2 * (a : Int) - ((2 ^ l : Nat) - 1)) * halfStep l

/-- The nearest amplitude. -/
def nearestAmp (l : Nat) (z : Int) : Int :=
  let c := (List.range (2 ^ l)).map (amplitude l)
  c.foldl (fun b a => if (z - a).natAbs < (z - b).natAbs then a else b) (c.headD 0)

/-- |a|² and |e|² of a cell: the nearest point, and the distance to it (R215). -/
def cellError (l : Nat) (z : Smp) : Nat × Nat :=
  let a : Smp := (nearestAmp l z.1, nearestAmp l z.2)
  (a.power, Smp.power (z.1 - a.1, z.2 - a.2))

/-! Soft values and levels (R214, R216). -/

/-- The least distance of a component to the amplitudes whose label begins with the known bits of the levels below and has bit `b` at this one. -/
def bestDist (l : Nat) (known : List Bool) (b : Bool) (z : Int) : Option Nat :=
  let want := known ++ [b]
  let fits := (List.range (2 ^ l)).filter fun a => ((List.range want.length).zip want).all fun e => (Config.drmLabel l a).testBit e.1 == e.2
  fits.foldl (fun r a =>
    let e := (z - amplitude l a).natAbs * (z - amplitude l a).natAbs
    match r with | none => some e | some x => some (min x e)) none

/-- The soft value of a component: max-log likelihood scaled by the weight (R214). -/
def drmSoftOf (l : Nat) (known : List Bool) (w : Nat) (z : Int) : Int :=
  match bestDist l known false z, bestDist l known true z with
  | some a, some b => clampInt (-7) 7 (rnd 48 (((b : Int) - a) * w * Config.drmSoft / 65536))
  | _, _ => 0

/-- The components of cells, in phase and quadrature, with their weights. -/
def components (cells : List DrmCell) : List (Int × Nat) := (cells.map fun c => [(c.z.1, c.w), (c.z.2, c.w)]).flatten

/-- The coded bits of a decoded level in the order of the components: coded again, punctured, interleaved (R214). -/
def recoded (kind mode count level prot n : Nat) (bits_ : List Bool) : List Bool :=
  let code := (trlEncode 0 (bits_ ++ List.replicate 6 false)).flatten
  let kept := ((Config.drmPuncture kind mode count level prot n).zip code).filterMap fun e => if e.1 then some e.2 else none
  let placed := ((List.range n).zip kept).map fun e => (Config.drmBitPlace kind level n e.1, e.2)
  (List.range n).map fun i => ((placed.find? fun e => e.1 == i).map (·.2)).getD false

/-- The soft values of the next level of a block, in trellis steps. -/
def DrmBlock.next (b : DrmBlock) (kind mode : Nat) : List (List Int) :=
  let x := components b.cells
  let n := x.length
  let level := b.levels.length
  let known := ((List.range level).zip b.levels).map fun e => recoded kind mode b.count e.1 b.prot n e.2
  let soft := ((List.range n).zip x).map fun e => drmSoftOf b.count (known.map fun k => k.getD e.1 false) e.2.2 e.2.1
  let ordered := (List.range n).map fun p => soft.getD (Config.drmBitPlace kind level n p) 0
  trellisSteps (Config.drmPuncture kind mode b.count level b.prot n) ordered

/-- The bits of a block whose levels are all decoded: part A of every level, then part B, without the energy dispersal. -/
def DrmBlock.bits (b : DrmBlock) (kind mode : Nat) : List Bool :=
  let n := (components b.cells).length
  let part := fun (level : Nat) => Config.drmPartA kind mode b.count level b.prot n
  let l := (List.range b.levels.length).zip b.levels
  descramble ((l.map fun e => e.2.take (part e.1)).flatten ++ (l.map fun e => e.2.drop (part e.1)).flatten)

/-- The cells of a multiplex frame, from the frames that carry them, newest first (R220): cell `i` of a frame belongs to the multiplex frame that began `i mod depth`
frames before it. -/
def cellFrame (depth : Nat) (l : List (Nat × List DrmCell)) : List DrmCell :=
  let n := ((l.head?.map (·.2)).getD []).length
  (List.range n).map fun p =>
    let i := Config.drmCellPlace n p
    ((l.getD (depth - 1 - i % depth) (0, [])).2).getD i { z := (0, 0), w := 0 }

/-! FAC and SDC (R208, R217, Table 08-5). -/

/-- Bits `i` to `i + n - 1` as a number. -/
def bitsAt (l : List Bool) (i n : Nat) : Nat := bitsNat ((l.drop i).take n)

/-- The FAC's CRC-8 passes: x^8 + x^4 + x^3 + x^2 + 1 from all ones, complemented. -/
def facOk (l : List Bool) : Bool :=
  let n := l.length - 8
  decide (8 < l.length) && bitsAt l n 8 == 255 - crcOf 8 0x1D 0xFF (l.take n)

/-- The SDC's CRC-16 passes: four zeros before the AFS index, and the complement of the CRC. -/
def sdcOk (l : List Bool) : Bool :=
  let n := l.length - 16
  decide (20 < l.length) && bitsAt l n 16 == 0xFFFF - crcOf 16 0x1021 0xFFFF ([false, false, false, false] ++ l.take n)

/-- One DRM service as the FAC names it (R239). -/
structure DrmService where
  shortId : Nat
  sid : Nat
  isData : Bool
  pty : Nat
deriving DecidableEq, Repr

/-- Content of a FAC block (R208, R217). -/
structure Fac where
  /-- Identity: 0 and 3 first frame of the super frame, 1 intermediate, 2 last. -/
  ident : Nat
  occupancy : Nat
  long : Bool
  /-- 0 4-QAM, 1 16-QAM, 2 64-QAM. -/
  mapping : Nat
  sdc16 : Bool
  hierarchical : Bool
  /-- A reconfiguration is announced. -/
  reconf : Bool
  services : List DrmService
deriving DecidableEq, Repr

/-- A service of the FAC: 44 bits. -/
def facService (l : List Bool) (i : Nat) : DrmService :=
  { sid := bitsAt l i 24, shortId := bitsAt l (i + 24) 2, isData := bitsAt l (i + 31) 1 == 1, pty := bitsAt l (i + 32) 5 }

def facParse (plus : Bool) (l : List Bool) : Fac :=
  let msc := bitsAt l 8 2
  { ident := bitsAt l 1 2, occupancy := bitsAt l 3 4, long := bitsAt l 7 1 == 0
    mapping := if plus then (if msc = 0 then 1 else 0) else if msc = 3 then 1 else 2
    sdc16 := !plus && bitsAt l 10 1 == 0
    hierarchical := !plus && (msc == 1 || msc == 2)
    reconf := bitsAt l 15 3 != 0
    services := facService l 20 :: (if plus then [facService l 64] else []) }

/-- One SDC data entity (Table 08-5), by type. -/
inductive SdcEntity where
  /-- Type 0: protection levels as one number, and the streams. -/
  | multiplex (prot : Nat) (streams : List DrmStream)
  /-- Type 1: label of a service. -/
  | label (shortId : Nat) (text : List Byte)
  /-- Type 3: alternative frequencies of this multiplex, kHz. -/
  | frequencies (kHz : List Nat)
  /-- Types 5 and 9: the stream that carries a service's data or audio. -/
  | claim (shortId stream : Nat)
  /-- Type 6: alarm announcement supported, and alarm switched on. -/
  | announce (shortId : Nat) (support alarm : Bool)
  /-- Type 8: MJD and minutes of the day. -/
  | time (mjd minutes : Nat)
  /-- Type 11: alternative frequencies of another service: its service identifier, or none and the short identifier of a service of this multiplex; kHz. -/
  | otherService (sid : Option Nat) (short : Nat) (kHz : List Nat)
deriving DecidableEq, Repr

/-- Frequencies of 16 bits from bit `i` on. -/
def freqsAt (l : List Bool) (i : Nat) : List Nat := (List.range ((l.length - i) / 16)).map fun j => freq16 (bitsAt l (i + 16 * j) 16)

/-- One entity by its type; `l` is its body. -/
def sdcEntityOf (ty : Nat) (l : List Bool) : List SdcEntity := match ty with
  | 0 => [.multiplex (bitsAt l 0 4) ((List.range ((l.length - 4) / 24)).map fun i => { a := bitsAt l (4 + 24 * i) 12, b := bitsAt l (16 + 24 * i) 12 })]
  | 1 => [.label (bitsAt l 0 2) (bitsBytes (l.drop 4))]
  | 3 => [.frequencies (freqsAt l (4 + 8 * bitsAt l 2 1 + 8 * bitsAt l 3 1))]
  | 5 => [.claim (bitsAt l 0 2) (bitsAt l 2 2)]
  | 6 => ((List.range 4).filter fun i => l.getD i false).map fun i => .announce (3 - i) (l.getD (4 + Config.drmAlarmFlag % 10) false) (l.getD (14 + Config.drmAlarmFlag % 10) false)
  | 8 => [.time (bitsAt l 0 17) (bitsAt l 17 5 * 60 + bitsAt l 22 6)]
  | 9 => [.claim (bitsAt l 0 2) (bitsAt l 2 2)]
  | 11 =>
    let i := 12 + 8 * bitsAt l 3 1
    if l.getD 4 false then [.otherService none (bitsAt l 1 2) (freqsAt l i)]
    else if bitsAt l 7 5 < 2 then [.otherService (some (bitsAt l i 24)) 0 (freqsAt l (i + 24))]
    else []
  | _ => []

/-- The entities of an SDC block's data field; `n` bounds their number. -/
def sdcEntities : Nat → List Bool → List SdcEntity
  | 0, _ => []
  | n + 1, l =>
    let len := 8 * bitsAt l 0 7 + 4
    if l.length < 12 + len ∨ (l.take 12).all (!·) then []
    else sdcEntityOf (bitsAt l 8 4) ((l.drop 12).take len) ++ sdcEntities n (l.drop (12 + len))

/-- The data field of an SDC block: after the AFS index, before the CRC. -/
def sdcParse (l : List Bool) : List SdcEntity := sdcEntities 64 ((l.take (l.length - 16)).drop 4)

end Sys2Proof.Machine
end

