-- ==== Sys2Proof/Machine/Drm.lean ====
section
/-! DEFINITION. DRM channels (R201 to R229, R239): acquisition and frames, FAC and SDC blocks with their content, and MSC streams. -/

namespace Sys2Proof.Machine

def Chip.chLane (c : Chip) (n : Nat) : Nat := c.reg (drmA n 0)
def Chip.chState (c : Chip) (n : Nat) : Nat := c.reg (drmA n 1)
def Chip.chRuns (c : Chip) (n : Nat) : Bool := decide (n < 16) && c.chLane n != 0xFF && c.laneRuns (c.chLane n) && (c.lane (c.chLane n)).filled

/-- The channel is DRM+ (option 0x22). -/
def Chip.chPlus (c : Chip) (n : Nat) : Bool := c.isDrmPlus (c.chLane n)

/-- The MSC job of a channel. -/
def Chip.chJob (c : Chip) (n : Nat) : Option Nat := (c.mscOn (c.chLane n)).head?

/-- The DRM lane job of a channel, which emits its FAC and SDC records. -/
def Chip.chLaneJob (c : Chip) (n : Nat) : Option Nat := (c.lane (c.chLane n)).job

/-! Acquisition (R205 to R210). -/

/-- The channel returns to mode search: what is in flight is discarded. -/
def Chip.chSearch (c : Chip) (n : Nat) : Chip :=
  let d := (c.drm n).dsp
  ((c.put (drmA n 1) 1).chVoid n).modDrm n fun x =>
    { x with dsp := { DrmDsp.reset with input := d.input, inAt := d.inAt, pos := d.pos, rot := d.rot, line := d.line, last := d.last } }

def Chip.modDrmDsp (c : Chip) (n : Nat) (f : DrmDsp → DrmDsp) : Chip := c.modDrm n fun x => { x with dsp := f x.dsp }

/-- DRM_MODE_IDENTIFIED (R205): modes A to D on a DRM30 lane, E on a DRM+ lane. -/
def Chip.drmMode (c : Chip) (n : Nat) : Chip :=
  if !c.chRuns n || c.chState n != 1 then c
  else match (c.drm n).dsp.modeFound (if c.chPlus n then [4] else [0, 1, 2, 3]) with
    | none => c
    | some (m, a) => (c.put (drmA n 1) 2).modDrm n fun x => { x with mode := m, dsp := { x.dsp with from_ := a } }

/-- DRM_TIME_REFERENCE (R206): the frame start and the offset, within the search range. -/
def Chip.drmTimeRef (c : Chip) (n : Nat) : Chip :=
  let x := c.drm n
  let range := c.reg (drmA n 6)
  if !c.chRuns n || c.chState n != 2 then c
  else match x.dsp.timeRef x.mode range with
    | none => c
    | some (a, cfo) =>
      if 2560 * range < cfo.natAbs then c
      else ((c.putInt (drmA n 4) 32 (rnd 8 cfo)).put (drmA n 1) 3).modDrmDsp n fun d => { d with start := a, cfo := cfo, ph := 0, phAt := 0, sym := 0 }

/-- DRM_FRAME_SEARCH_TIMEOUT (R206): 3 frame periods without a time reference. -/
def Chip.drmTimeout (c : Chip) (n : Nat) : Chip :=
  let d := (c.drm n).dsp
  if c.chRuns n && c.chState n == 2 && decide (d.from_ + 3 * drmFrame ≤ d.last + 1) then c.chSearch n else c

/-- The channel is lost (R210): event 37. -/
def Chip.chLost (c : Chip) (n : Nat) : Chip :=
  let k := c.chLane n
  let c := (((c.raise 37 (c.handleLane k) n).mscVoid k).alarmSourceLost k).chSearch n
  c.put (drmA n 0x0B) (c.reg (drmA n 0x0B) &&& 0xFFFFFEF0)

/-! The multiplex (R219 to R221). -/

/-- Bytes of a multiplex frame. -/
def muxBytes (l : List DrmStream) : Nat := sumList (l.map fun s => s.a + s.b)

/-- Signalled bit rate in b/s: a multiplex frame every 400 ms in DRM30, every 100 ms in DRM+. -/
def Chip.muxRate (c : Chip) (n : Nat) : Nat := match (c.drm n).mux with
  | some (_, l) => muxBytes l * (if c.chPlus n then 80 else 20)
  | none => 0

def Chip.chLong (c : Chip) (n : Nat) : Bool := c.bit (drmA n 3) 6

/-- The signalling exceeds the MSC job's declaration (R219). -/
def Chip.muxExceeds (c : Chip) (n : Nat) : Bool := match c.chJob n with
  | none => false
  | some j =>
    let f := dF0 (c.jobDesc j)
    decide (100 * bits f 0 11 < c.muxRate n) || (!c.chPlus n && c.chLong n && !f.testBit 11)

/-- The MSC is decodable: no hierarchical mapping, no occupancy beyond the lane, a multiplex known, and the job's declaration kept. -/
def Chip.muxFits (c : Chip) (n : Nat) : Bool :=
  (c.drm n).mux.isSome && !c.bit (drmA n 3) 10 && !c.bit (drmA n 3) 11 && !c.muxExceeds n

/-- Frames that carry the cells of one multiplex frame (R220). -/
def Chip.muxDepth (c : Chip) (n : Nat) : Nat := if !c.chLong n then 1 else if c.chPlus n then 6 else 5

/-- The service and component index of stream `i`: the service whose short identifier claims it, and the index that the stream has there (R14, R221). -/
def Chip.drmUnit (c : Chip) (n i : Nat) : Option (Nat × Nat) :=
  let x := c.drm n
  match Tbl.find x.claims i with
  | none => none
  | some sh => match x.svcs.find? fun e => e.2.short == sh with
    | none => none
    | some e => (e.2.comps.find? fun q => q.2.1 == i).map fun q => (e.1, q.1)

/-- DRM_MSC_STAT and DRM_MODE[12] follow the signalling; event 24 once per change of it (R219). -/
def Chip.refreshMux (c : Chip) (n : Nat) : Chip :=
  let exceeds := c.muxExceeds n
  let sig := (c.muxRate n, c.chLong n)
  let c := if exceeds ∧ (c.drm n).toldMsc ≠ some sig then
      (c.modDrm n fun x => { x with toldMsc := some sig }).raiseFree 24 (c.handleLane (c.chLane n))
    else if exceeds then c else c.modDrm n fun x => { x with toldMsc := none }
  let c := c.putBit (drmA n 3) 12 exceeds
  let (mask, dec) := match c.chJob n with
    | some j => (bits (dF0 (c.jobDesc j)) 12 4, (c.msc j).decoding)
    | none => (0, false)
  let claimed := sumList ((List.range 4).map fun i => if (c.drmUnit n i).isSome then 2 ^ i else 0)
  let out := if dec then mask &&& claimed else 0
  c.put (drmA n 0x0B) (out + (mask &&& (15 - claimed)) * 16 + (if dec then 256 else 0) + min 0xFFFF (c.muxRate n / 100) * 65536)

/-- MSC blocks of channel `n` in flight are discarded. -/
def Chip.mscDrop (c : Chip) (n : Nat) : Chip :=
  (c.trlDrop fun x => match x with | .drm i k _ => i == n && k == 2 | _ => false).modDrm n fun x => { x with blocks := Tbl.del x.blocks 2, mscs := [] }

/-- The multiplex that comes into force next: with the protection, the mapping of the FAC. -/
def Chip.nextMux (c : Chip) (n : Nat) : Option (Nat × List DrmStream) :=
  (c.drm n).next.map fun m => (m.1 % 16 + 16 * c.field (drmA n 3) 7 2, m.2)

/-- A multiplex comes into force (R220): decoding restarts where lengths, protection or mapping changed. -/
def Chip.takeMux (c : Chip) (n : Nat) : Chip :=
  let next := c.nextMux n
  let same := (c.drm n).mux == next
  let c := c.modDrm n fun y => { y with mux := next, announced := false, recDue := false }
  let c := if same && c.muxFits n then c else match c.chJob n with
    | some j => if (c.msc j).decoding then (c.setMsc j { (c.msc j).void with decoding := c.muxFits n }).mscDrop n else c
    | none => c
  c.refreshMux n

/-! Cells and blocks (R207 to R217). -/

/-- A block goes to the Trellis engine with its next level (R216, Table 07-8). -/
def Chip.drmPut (c : Chip) (n kind : Nat) (b : DrmBlock) : Chip :=
  (c.modDrm n fun x => { x with blocks := Tbl.put x.blocks kind b }).trlPut (.drm n kind b.levels.length) b.deadline b.declared 0 (b.next kind (c.drm n).mode)

/-- A level of a block is decoded: the next one follows, and after the last the block is delivered. -/
def Chip.drmDecoded (c : Chip) (n kind : Nat) (soft : List (List Int)) : Chip := match Tbl.find (c.drm n).blocks kind with
  | none => c
  | some b =>
    let l := viterbi soft
    let b := { b with levels := b.levels ++ [l], corrected := b.corrected + trlCorrected soft l }
    if b.levels.length < b.count then c.drmPut n kind b
    else
      let e := [(b.ref, b.frame, b.corrected, b.bits kind (c.drm n).mode)]
      c.modDrm n fun x =>
        let x := { x with blocks := Tbl.del x.blocks kind }
        if kind = 0 then { x with facs := x.facs ++ e } else if kind = 1 then { x with sdcs := x.sdcs ++ e } else { x with mscs := x.mscs ++ e }

/-- A frame of the channel has passed: the deinterleaver fills, MSC decoding starts with the first frame that begins after the first good SDC block (R219), and a
multiplex frame whose cells are complete goes to the Trellis engine (R220). -/
def Chip.muxFrame (c : Chip) (n : Nat) : Chip :=
  let x := c.drm n
  let c := if !x.recDue && (x.announced || c.nextMux n == x.mux) then c else c.takeMux n
  let c := c.modDrm n fun y => { y with frames := (y.frames + 1) % 65536, armed := y.sdcOk }
  match c.chJob n with
  | none => c
  | some j =>
    let m := c.msc j
    let c := if m.decoding then (if c.muxFits n then c.setMsc j { m with fill := m.fill + 1 } else c.setMsc j m.void)
      else if x.armed && c.muxFits n then c.setMsc j { m with decoding := true, fill := 1, first := true }
      else c
    let depth := c.muxDepth n
    let l := (c.drm n).dsp.depth
    match l[depth - 1]? with
    | some (ref, _) =>
      if !(c.msc j).decoding || decide ((c.msc j).fill < depth) then c
      else
        let r := 100 * bits (dF0 (c.jobDesc j)) 0 11
        let prot := match (c.drm n).mux with | some (p, _) => p | none => 0
        c.drmPut n 2
          { ref := ref, frame := ((c.drm n).frames + 65536 - depth) % 65536, count := c.field (drmA n 3) 7 2 + 1, prot := prot, cells := cellFrame depth l
            levels := [], corrected := 0, deadline := c.tick + (if c.chPlus n then 25 else 100)
            declared := if c.chPlus n then ceilDiv r 10 + 12 else ceilDiv (2 * r) 5 + 18 }
    | none => c

/-- The cells of a frame are complete: MER and WMER, the FAC block, the SDC block of a super frame's first frame, the MSC cells (R215, R217, R220). -/
def Chip.chFrame (c : Chip) (n : Nat) : Chip :=
  let x := c.drm n
  let d := x.dsp
  let at_ := match d.slice d.prev 1 with | s :: _ => s.1 | [] => 0
  let ref := c.laneStamp (c.chLane n) 0 at_
  let db := fun (p : Nat × Nat) => match merOf p.1 p.2 with | some v => satSigned 16 v | none => 0x8000
  let plus := c.chPlus n
  let blk := fun (count deadline declared : Nat) (cells : List DrmCell) =>
    ({ ref := ref, frame := x.index.getD 0, count := count, prot := 0, cells := cells, levels := [], corrected := 0, deadline := c.tick + deadline, declared := declared } : DrmBlock)
  let c := c.put (drmA n 0x0A) (db d.mer + 65536 * db d.wmer)
  let c := c.swtLane (c.chLane n) (.drm ref (c.chState n) d.mer d.wmer (c.int (drmA n 4) 32))
  let c := c.drmPut n 0 (blk 1 2 (if plus then 122 else 78) d.fac)
  let c := if d.sdc.isEmpty then c else c.drmPut n 1 (blk (if c.bit (drmA n 3) 9 then 2 else 1) (if plus then 20 else 40) (if plus then 1000 else 2400) d.sdc)
  c.modDrm n fun x => { x with
    index := x.index.map fun i => (i + 1) % drmSuper x.mode
    dsp := { x.dsp with fac := [], sdc := [], msc := [], depth := ((ref, d.msc) :: d.depth).take 6, sigma := d.noise, noise := (0, 0), mer := (0, 0), wmer := (0, 0), due := true } }

/-- Lowest carrier and number of carriers of the channel, at the occupancy that the FAC gave. -/
def Chip.chBand (c : Chip) (n : Nat) : Int × Nat :=
  let occ := c.field (drmA n 3) 3 3
  let b := Config.drmBand (c.drm n).mode (if occ < 6 then occ else 0)
  (b.1, (b.2 - b.1 + 1).toNat)

/-- The symbol `y` periods back is equalised: its next gain reference cells have arrived (R212 to R215). -/
def Chip.chEqualise (c : Chip) (n : Nat) : Chip :=
  let x := c.drm n
  let d := x.dsp
  let m := x.mode
  let back := drmPeriod m
  match d.syms[back]? with
  | none => c
  | some y =>
    let s := (d.sym + drmSymbols m - 1 - back) % drmSymbols m
    let low := (c.chBand n).1
    let h := d.est.map fun e => (e.1, timeInterp e.2 (d.n - 1 - back))
    let tau := pilotTau m low h
    let gain := freqInterp m (c.field (drmA n 7) 4 3) tau y.length low h
    let at_ := fun (i : Nat) => gain.getD i (0, 0)
    let noise := (gainCells m s low y).map fun e => let r := Smp.over e.2.1 e.2.2; Smp.power (r.1 - (at_ e.1).1, r.2 - (at_ e.1).2)
    let sigma := max 1 (d.sigma.1 / max 1 d.sigma.2)
    let occ := c.field (drmA n 3) 3 3
    let levels := fun (k : Nat) => if k = 1 then 1 else if k = 2 then (if c.bit (drmA n 3) 9 then 2 else 1) else c.field (drmA n 3) 7 2 + 1
    let take_ := fun (d : DrmDsp) (e : Nat × Smp) =>
      let k := Config.drmCell m occ (x.index.getD 1) s (low + e.1)
      if k = 0 ∨ 3 < k then d
      else
        let g := at_ e.1
        let z := Smp.over e.2 g
        let cell : DrmCell := { z := z, w := g.power * 65536 / sigma }
        let pe := cellError (levels k) z
        let d := { d with mer := (d.mer.1 + pe.1, d.mer.2 + pe.2), wmer := (d.wmer.1 + pe.1 * g.power, d.wmer.2 + pe.2 * g.power) }
        if k = 1 then { d with fac := d.fac ++ [cell] } else if k = 2 then { d with sdc := d.sdc ++ [cell] } else { d with msc := d.msc ++ [cell] }
    let d := ((List.range y.length).zip y).foldl take_ { d with tau := tau, noise := (d.noise.1 + sumList noise, d.noise.2 + noise.length) }
    let c := c.modDrmDsp n fun _ => d
    if s + 1 = drmSymbols m then c.chFrame n else c

/-- The end of a frame: the window and the resampler follow the first path, whose place is the middle of the guard interval (R207; DESIGN CHOICE, log entry 63). -/
def Chip.chFrameEnd (c : Chip) (n : Nat) : Chip :=
  let x := c.drm n
  let move := if x.dsp.est.isEmpty then 0 else clampInt (-1) 1 ((x.dsp.tau : Int) - (drmGuard x.mode / 2 : Nat))
  let c := c.putInt (drmA n 5) 16 (clampInt (-2000) 2000 (c.int (drmA n 5) 16 + 325 * move))
  c.modDrmDsp n fun d => { d with prev := d.start, start := ((d.start : Int) + drmFrame + move).toNat, sym := 0 }

/-- The next symbol of the frame is demodulated: carriers, offset by at most 10 Hz/s, gain references; at the frame's first symbol the time reference (R207, R209, R211). -/
def Chip.chSymbol (c : Chip) (n : Nat) : Chip :=
  let x := c.drm n
  let d := x.dsp
  let m := x.mode
  let a := d.start + d.sym * drmSymbol m
  let (low, num) := c.chBand n
  let samples := d.tuned m (a + drmGuard m / 2) (drmUseful m)
  let y := (List.range num).map fun (i : Nat) => dftBin (drmUseful m) samples (low + i)
  let lim : Int := 25600 * drmSymbol m / drmRate m
  let cfo := d.cfo + clampInt (-lim) lim (guardHz m (d.guardCorr m a))
  let tref := if d.sym = 0 then d.trefNear m (c.reg (drmA n 9)) else d.trefOk
  let d := (d.setCfo m (a + drmSymbol m) cfo).estimate (c.field (drmA n 7) 0 2) d.n (gainCells m d.sym low y)
  let d := { d with trefOk := tref, woke := false, syms := (y :: d.syms).take 8, n := d.n + 1, sym := d.sym + 1 }
  let c := ((c.putInt (drmA n 4) 32 (rnd 8 cfo)).modDrmDsp n fun _ => d).chEqualise n
  if d.sym = drmSymbols m then c.chFrameEnd n else c

/-- The channel takes the symbols whose samples have arrived. -/
def Chip.chAdvance (c : Chip) (n : Nat) : Chip :=
  c.each (List.range 130) fun c _ =>
    let x := c.drm n
    let a := x.dsp.start + x.dsp.sym * drmSymbol x.mode
    if 3 ≤ c.chState n ∧ x.dsp.has a (drmSymbol x.mode) then c.chSymbol n else c

/-- The lane's outputs of a tick enter its channel. -/
def Chip.chTake (c : Chip) (n : Nat) (l : List (Nat × Smp)) : Chip :=
  let k := c.chLane n
  let half := c.laneOption k == 0x21
  let p := c.lanePeriod k
  let sro := c.int (drmA n 5) 16
  if l.isEmpty then c else (c.modDrmDsp n fun d => (l.foldl (fun d y => d.push half p sro y.1 y.2) d).catchUp).chAdvance n

/-- The frame's FAC is decoded and passed on. -/
def Chip.facDone (c : Chip) (n : Nat) : Bool :=
  (c.drm n).dsp.due && (c.drm n).facs.isEmpty && c.trl.all fun b => match b.client with | .drm i k _ => i != n || k != 0 | _ => true

/-- DRM_FRAME_JUDGED (R209, R210): once, when the frame's cells are complete and its FAC is decoded. -/
def Chip.drmJudge (c : Chip) (n : Nat) : Chip :=
  let st := c.chState n
  if !c.chRuns n || decide (st < 3) || !c.facDone n then c
  else
    let x := c.drm n
    let tref := x.dsp.trefOk
    let c := if !tref ∧ 4 ≤ st then c.count (drmA n 0x14) else c
    let c := c.modLane (c.chLane n) fun l => { l with undecided := l.undecided - 1 }
    let c := (c.modDrm n fun x => { x with good := false, dsp := { x.dsp with due := false } }).applyStaged (drmA n 0) 0x40
    if st = 3 then c
    else
      let stays := x.good && (tref || x.held != 0)
      let c := if stays then c.modDrm n fun y => { y with held := 0 }
        else (c.put (drmA n 1) 5).modDrm n fun y => { y with held := x.held + 1 }
      if !stays && decide (c.reg (drmA n 8) ≤ x.held + 1) then c.chLost n else (c.muxFrame n).refreshMux n

/-! FAC (R208, R217). -/

/-- The FAC and SDC records of a channel's lane job (Table 07-7). -/
def Chip.chRecord (c : Chip) (n ty unit ref : Nat) (head bytes : List Byte) : Chip := match c.chLaneJob n with
  | none => c
  | some j =>
    if !c.jobEmits j then c
    else
      let k := c.chLane n
      c.produce { ty := ty, handle := c.handleUnit k ref 0 0 unit, ts := ref, ref := ref, body := head ++ le 2 bytes.length ++ bytes, job := some j, flags := c.laneFlags k ref }

def Chip.drmVersion (c : Chip) (n key v : Nat) : Chip :=
  c.modDrm n fun x =>
    let (h, d, ch) := versionStep x.versions x.candidates key v
    { x with versions := h, candidates := d, changed := x.changed || ch }

/-- A service of the FAC: index, entry, PTY (Table 08-5). -/
def Chip.drmService (c : Chip) (n : Nat) (s : DrmService) : Chip :=
  let x := c.drm n
  let c := c.modDrm n fun y => { y with sid := some s.sid }
  let c := match x.svcs.find? fun (e : Nat × DrmSvc) => e.2.sid == s.sid with
    | some e => c.modDrm n fun y => { y with svcs := Tbl.put y.svcs e.1 { e.2 with short := s.shortId, seen := c.tick } }
    | none => match freeIndex c.tick c.idxAge 64 (x.svcs.map fun (e : Nat × DrmSvc) => (e.1, e.2.seen)) with
      | some i => c.modDrm n fun y => { y with svcs := Tbl.put y.svcs i { sid := s.sid, short := s.shortId, seen := c.tick, comps := [] } }
      | none => c
  let c := c.drmVersion n (16 + s.shortId) (s.sid * 64 + s.pty * 2 + (if s.isData then 1 else 0))
  match c.carried (c.chLane n) 4 s.sid 2 with
  | (some e, c) => c.galField e 1 8 5 s.pty
  | (none, c) => c

/-- The index of a FAC block's frame in its super frame: by its identity, an intermediate frame by the frame before it. -/
def Chip.facIndex (c : Chip) (n : Nat) (f : Fac) (frame : Nat) : Nat :=
  if f.ident = 0 ∨ f.ident = 3 then 0 else if f.ident = 2 then drmSuper (c.drm n).mode - 1 else if (c.drm n).index.isSome then frame else 1

/-- DRM_MODE from a FAC block (R208); an occupancy beyond the lane raises event 24 once. -/
def Chip.facMode (c : Chip) (n : Nat) (f : Fac) : Chip :=
  let x := c.drm n
  let beyond := decide (4 ≤ f.occupancy) && c.laneOption (c.chLane n) == 0x20
  let old := c.reg (drmA n 3)
  let v := x.mode + (if x.mode = 4 then 0 else f.occupancy % 8) * 8 + (if f.long then 64 else 0) + f.mapping % 4 * 128 + (if f.sdc16 then 512 else 0) +
    (if f.hierarchical then 1024 else 0) + (if beyond then 2048 else 0) + (if old.testBit 12 then 4096 else 0)
  let c := c.put (drmA n 3) v
  let c := c.modDrm n fun y => { y with announced := f.reconf, recDue := y.recDue || (y.announced && !f.reconf), toldOcc := beyond }
  if beyond && !x.toldOcc then c.raiseFree 24 (c.handleLane (c.chLane n)) else c

/-- The oldest FAC block delivered, checked (R217): sync from state 3 with event 36, the mode, the record, the services. -/
def Chip.facTake (c : Chip) (n ref frame : Nat) (l : List Bool) : Chip :=
  let c := c.swtLane (c.chLane n) (.block ref 1 (facOk l))
  if !facOk l then c.count (drmA n 0x11)
  else
    let f := facParse (c.chPlus n) l
    let st := c.chState n
    let i := c.facIndex n f frame
    let c := c.count (drmA n 0x10)
    let c := c.modDrm n fun x => { x with good := true, index := some ((i + 1) % drmSuper x.mode) }
    let c := c.facMode n f
    let c := if st = 3 then
        let (w, c) := c.freeWord
        let c := ((c.put (drmA n 1) 4).put (drmA n 0x0C) w.toNat).modDrm n fun x => { x with held := 0, frames := 0 }
        c.raise 36 (c.handleLane (c.chLane n)) n
      else c.put (drmA n 1) 4
    let c := c.chRecord n 0x1A 5 ref [b8 i, 0] (bitsBytes l)
    c.each f.services fun c s => c.drmService n s

/-- DRM_FAC_BLOCK. -/
def Chip.drmFac (c : Chip) (n : Nat) : Chip :=
  if !c.chRuns n || c.chState n < 3 then c
  else match (c.drm n).facs with
    | [] => c
    | (ref, frame, _, l) :: r => (c.modDrm n fun x => { x with facs := r }).facTake n ref frame l

/-! SDC (R217, Table 08-5). -/

/-- The service identifier of a short identifier. -/
def Chip.sidOf (c : Chip) (n short : Nat) : Option Nat := match (c.drm n).svcs.find? fun e => e.2.short == short with
  | some e => some e.2.sid
  | none => none

def muxCode (prot : Nat) (l : List DrmStream) : Nat :=
  l.foldl (fun v s => v * 2 ^ 24 + s.a * 2 ^ 12 + s.b) prot

/-- A service's short identifier claims a stream: the component keeps its index, or takes the lowest that is free (R14, R221, R247). -/
def Chip.claim (c : Chip) (n short stream : Nat) : Chip :=
  c.modDrm n fun x =>
    let with_ := fun (s : DrmSvc) => match s.comps.find? fun q => q.2.1 == stream with
      | some q => { s with comps := Tbl.put s.comps q.1 (stream, c.tick) }
      | none => match freeIndex c.tick c.idxAge 32 (s.comps.map fun q => (q.1, q.2.2)) with
        | some i => { s with comps := Tbl.put s.comps i (stream, c.tick) }
        | none => s
    { x with claims := Tbl.put x.claims stream short, svcs := x.svcs.map fun e => if e.2.short = short then (e.1, with_ e.2) else e }

def Chip.sdcEntity (c : Chip) (n ref : Nat) (e : SdcEntity) : Chip :=
  let k := c.chLane n
  match e with
  | .multiplex prot l => (c.modDrm n fun x => { x with next := some (prot, l) }).drmVersion n 0 (muxCode prot l)
  | .label short text => match c.sidOf n short with
    | some sid => c.onEntry 4 sid fun c g => c.galLabel g 1 text
    | none => c
  | .frequencies l => c.each (c.holdsOf k) fun c g => if c.galKind g = 4 then c.each l fun c f => c.afAdd g f 2 5 false false else c
  | .announce short support alarm =>
    let sid := ((c.sidOf n short).orElse fun _ => (c.drm n).sid).getD 0
    let c := c.onEntry 4 sid fun c g => c.galField g 1 27 1 (if support then 1 else 0)
    let h := c.handleLane k
    let c := (c.almHeard 5 h sid ref).modLane k fun l => if alarm then { l with undecided := 2 } else l
    if alarm then c.almStart 5 h sid ref 0xFF else c.almEnd 5 h sid ref
  | .time mjd minutes => c.timeMessage k 3 2 false mjd (minutes * 60000) false 0x80 ref
  | .otherService sid short l => match sid.orElse fun _ => c.sidOf n short with
    | some sid => c.onEntry 4 sid fun c g => c.each l fun c f => c.afAdd g f 2 5 false false
    | none => c
  | .claim short stream => c.claim n short stream

/-- DRM_SDC_BLOCK: the oldest SDC block delivered is checked, passed on and emitted. -/
def Chip.drmSdc (c : Chip) (n : Nat) : Chip :=
  if !c.chRuns n || c.chState n < 4 || c.bit (drmA n 3) 11 then c
  else match (c.drm n).sdcs with
    | [] => c
    | (ref, _, _, l) :: r =>
      let c := (c.modDrm n fun x => { x with sdcs := r }).swtLane (c.chLane n) (.block ref 2 (sdcOk l))
      if !sdcOk l then c.count (drmA n 0x13)
      else
        let c := (c.count (drmA n 0x12)).modDrm n fun x => { x with sdcOk := true }
        let c := c.chRecord n 0x1B 6 ref [0, 0] (bitsBytes l)
        let c := c.each (sdcParse l) fun c e => c.sdcEntity n ref e
        if (c.drm n).mux.isNone then c.takeMux n else c

/-! MSC (R220 to R222). -/

/-- The 8 bytes before the data of a stream record (Table 07-7). -/
def streamHead (frame stream : Nat) (first : Bool) (corrected i n len : Nat) : List Byte :=
  le 2 frame ++ [b8 (stream + (if first then 4 else 0)), b8 (i + 16 * (n - 1))] ++ le 2 (min 0xFFFF corrected) ++ le 2 len

/-- The bytes of stream `i` of a multiplex frame: its share of part A, then of part B. -/
def streamBytes (l : List DrmStream) (i : Nat) (bytes : List Byte) : List Byte :=
  let a := sumList (l.map (·.a))
  let s := l.getD i { a := 0, b := 0 }
  (bytes.drop (sumList ((l.take i).map (·.a)))).take s.a ++ (bytes.drop (a + sumList ((l.take i).map (·.b)))).take s.b

/-- DRM_MSC_FRAME: the oldest multiplex frame delivered; the streams that are selected and claimed leave. -/
def Chip.drmMsc (c : Chip) (n : Nat) : Chip :=
  match c.chJob n, (c.drm n).mscs with
  | some j, (ref, frame, corrected, l) :: r =>
    let m := c.msc j
    if !c.chRuns n || c.chState n < 4 || !m.decoding || !c.jobEmits j then c
    else
      let k := c.chLane n
      let c := c.modDrm n fun x => { x with mscs := r }
      let streams := match (c.drm n).mux with | some (_, s) => s | none => []
      let mask := bits (dF0 (c.jobDesc j)) 12 4
      let att := match Tbl.find c.vers j with | some v => some v.stream | none => none
      let c := c.setMsc j { m with first := false }
      c.each ((List.range (min 4 streams.length)).filter fun i => mask.testBit i) fun c i =>
        match c.drmUnit n i with
        | none => c
        | some (svc, comp) =>
          c.emitUnit j 0x1C (c.handleUnit k ref svc comp 7) ref (c.laneFlags k ref) (streamHead frame i m.first corrected) (streamBytes streams i (bitsBytes l)) (att == some i) false
  | _, _ => c

/-- DRM_RECONFIGURATION (R220): the announced frame has come. -/
def Chip.drmReconf (c : Chip) (n : Nat) : Chip := if !c.chRuns n || c.chState n < 4 || !(c.drm n).recDue then c else c.takeMux n

/-! The Trellis engine. -/

/-- TRELLIS_BLOCK_DONE (R193 to R195): the next block is decoded and goes back to its client. -/
def Chip.trellisDone (c : Chip) : Chip := match c.trlTake with
  | none => c
  | some (b, c) => match b.client with
    | .fic e ref block => c.ficDecoded e ref block b.soft
    | .msc j _ ref cif => c.mscDecoded j ref cif b.soft
    | .drm n kind _ => c.drmDecoded n kind b.soft
    | .link => c

end Sys2Proof.Machine
end

