-- ==== Sys2Proof/Machine/Follow.lean ====
section
/-! DEFINITION. Alternative-frequency following and service linking (R266 to R296): members and their evidence, visits, scores, estimates, the extra delay and its slew, and the changes of carrier. -/

namespace Sys2Proof.Machine

/-! Names. -/

/-- Member key of a Gallery entry; FM members have their AF pool entry as key. -/
def galKey (e : Nat) : Nat := 16384 + e

def Chip.fDesc (c : Chip) (i : Nat) : List Byte := match (c.follow i).job with | some j => c.jobDesc j | none => []

/-- A linking instance (R269). -/
def Chip.fLinking (c : Chip) (i : Nat) : Bool := decide (fProg (c.fDesc i) < 8)

/-- The range d, studio counts. -/
def Chip.fD (c : Chip) (i : Nat) : Int := (fRange (c.fDesc i) * 8192000 : Nat)

/-- e (R282), studio counts. -/
def Chip.fE (c : Chip) (i : Nat) : Int := (c.reg (lnkA i 0x0B) : Nat)

/-- The nearest whole number of audio samples at `fs`, in studio counts (R282). -/
def toSample (fs : Nat) (e : Int) : Int :=
  let n := (2 * e * fs + 32768000) / 65536000
  (n * 65536000 + fs) / (2 * fs)

/-- F, and its length in studio counts (R289). -/
def Chip.fadeLen (c : Chip) (i : Nat) : Nat := min (c.reg (lnkA i 3)) (c.audRate / 4)
def Chip.fadeCounts (c : Chip) (i : Nat) : Nat := ceilDiv (c.fadeLen i * 32768000) c.audRate

def Chip.member (c : Chip) (i key : Nat) : Option MemberSt := Tbl.find (c.follow i).members key
def Chip.modMember (c : Chip) (i key : Nat) (f : MemberSt → MemberSt) : Chip := match c.member i key with
  | some m => c.modFollow i fun x => { x with members := Tbl.put x.members key (f m) }
  | none => c

/-- The current member is a DAB or DRM member. -/
def isDigital (key : Nat) : Bool := decide (16384 ≤ key)
def Chip.digitalNow (c : Chip) (i : Nat) : Bool := match (c.follow i).current with | some k => isDigital k | none => false

/-! The member set (R270, Table 09-2). -/

/-- Entries `a` and `b` are linked, as LNK_CFG admits. -/
def Chip.linkOk (c : Chip) (i a b : Nat) : Bool :=
  let x := c.galW a 6
  let y := c.galW b 6
  a != b && x.testBit 28 && y.testBit 28 && bits x 16 12 == bits y 16 12 && ((x.testBit 29 && y.testBit 29) || c.bit (lnkA i 0) 1) &&
    ((!x.testBit 30 && !y.testBit 30) || c.bit (lnkA i 0) 2)

/-- The Gallery entries of the set. -/
def Chip.fSet (c : Chip) (i : Nat) : List Nat :=
  let f := fEntry (c.fDesc i)
  let used := c.galUsed.filter fun e => c.galKind e == 1 || c.galKind e == 3 || c.galKind e == 4
  let near := fun (s : List Nat) => used.filter fun e => !s.contains e && s.any fun x => (x == f || c.galKind x == 1) && c.linkOk i x e
  let s1 := f :: near [f]
  let s2 := s1 ++ near s1
  let same := fun (e : Nat) => c.bit (lnkA i 0) 0 && c.galKind f == 1 && c.galKind e == 3 && !c.galHas e 3 && c.galW e 0 == c.galW f 0
  s2 ++ used.filter fun e => !s2.contains e && same e

def MemberSt.fresh (kind kHz ident : Nat) (regional : Bool) : MemberSt :=
  { kind := kind, kHz := kHz, ident := ident, regional := regional, evidence := none, verified := false, score := none, aligned := false, lag := 0,
    prev := none, move := none, fails := 0, estAt := 0, wanted := false }

/-- AF entries of an FM entry that are members: kind 0, regional ones where LNK_CFG[3] admits them. -/
def Chip.fmAfs (c : Chip) (i e : Nat) : List Nat :=
  let home := bits (c.galW e 7) 16 14
  let l := (c.afChain e ++ if home = 0x3FFF then [] else [home]).eraseDups
  l.filter fun a => bits (c.afW a 0) 18 2 == 0 && bits (c.afW a 0) 0 18 != 0 && (!(c.afW a 0).testBit 24 || c.bit (lnkA i 0) 3)

/-- The members that one entry contributes. -/
def Chip.entryMembers (c : Chip) (i e : Nat) : List (Nat × MemberSt) :=
  if c.galKind e = 1 then (c.fmAfs i e).map fun a => (a, MemberSt.fresh 0 (bits (c.afW a 0) 0 18) (c.galW e 0) ((c.afW a 0).testBit 24))
  else if c.galKind e = 3 then [(galKey e, MemberSt.fresh 1 0 (c.galW e 0) false)]
  else if c.galKind e = 4 then [(galKey e, MemberSt.fresh 2 0 (c.galW e 0) false)]
  else []

/-- Drop the FM member of the lowest AF signal count while more than 32 are listed. -/
def Chip.trimMembers (c : Chip) (keep : List Nat) (t : Tbl MemberSt) : Nat → Tbl MemberSt
  | 0 => t
  | n + 1 =>
    if t.length ≤ 32 then t
    else
      let cand := (t.map (·.1)).filter fun k => !isDigital k && !keep.contains k
      match cand.foldl (fun b k => match b with
        | some x => if bits (c.afW k 1) 16 8 < bits (c.afW x 1) 16 8 then some k else some x
        | none => some k) none with
      | some k => c.trimMembers keep (Tbl.del t k) n
      | none => t.take 32

/-- Set or clear the followed bits as the instances' entries stand. -/
def Chip.followedBits (c : Chip) (es : List Nat) : Chip :=
  c.each es fun c e => c.galBit e 30 (c.follows.any fun x => x.2.job.isSome && x.2.entries.contains e)

/-- Re-derive the members of an instance; a member that stays keeps its state, and the current member and the anchor stay. -/
def Chip.deriveMembers (c : Chip) (i : Nat) : Chip :=
  let f := c.follow i
  let set := c.fSet i
  let new := (set.map (c.entryMembers i)).flatten
  let keep := f.current.toList ++ f.anchor.toList
  let old := fun (k : Nat) (m : MemberSt) => match Tbl.find f.members k with
    | some x => { x with kHz := m.kHz, ident := m.ident, regional := m.regional }
    | none => m
  let t := new.foldl (fun t x => Tbl.put t x.1 (old x.1 x.2)) (f.members.filter fun x => keep.contains x.1)
  let t := c.trimMembers keep t t.length
  let es := fEntry (c.fDesc i) :: set.filter fun e => (c.entryMembers i e).any fun x => (Tbl.find t x.1).isSome
  let c := c.modFollow i fun f => { f with members := t, entries := es.eraseDups, standby := f.standby.filter fun k => (Tbl.find t k).isSome }
  c.followedBits ((f.entries ++ es).eraseDups)

/-! Carriers. -/

/-- The lowest running window with its centre within 13.0 MHz of a frequency (R271); WIN_CENTRE counts 125/1,024 Hz, 8,192 to the kHz. -/
def Chip.memberWin (c : Chip) (kHz : Nat) : Option Nat :=
  (List.range 12).find? fun w => c.winRuns w && decide (((c.reg (winA w 0) : Int) - (kHz * 8192 : Nat)).natAbs ≤ 13000 * 8192)

/-- Lane word of a frequency in window `w`. -/
def Chip.ncoFor (c : Chip) (w kHz : Nat) : Nat := ofSigned 32 ((kHz * 131072 : Nat) - 16 * (c.reg (winA w 0) : Int))

/-- Running FM lanes whose frequency lies within 1 kHz (R273). -/
def Chip.fmAt (c : Chip) (kHz : Nat) : List Nat :=
  (List.range 160).filter fun k => c.laneRuns k && c.laneIsFm k && decide (((c.laneKHz k : Int) - (kHz : Nat)).natAbs ≤ 1)

def Chip.bgOn (c : Chip) (i key : Nat) : Option BgSt := (c.follow i).bgs.find? fun b => b.member == some key

/-- An FM member carried by a running lane that does not visit it for this instance. -/
def Chip.sharedLane (c : Chip) (i : Nat) (m : MemberSt) : Option Nat :=
  (c.fmAt m.kHz).find? fun k => !((c.follow i).bgs.any fun b => b.lane == k)

/-- The on-air lane carries member `key`: it is the current FM member, or the anchor. -/
def Chip.onAirKey (c : Chip) (i key : Nat) : Bool := !isDigital key && ((c.follow i).current == some key || (c.follow i).anchor == some key)

/-- The lane on which an FM member is observed, or would be. -/
def Chip.memberLane (c : Chip) (i key : Nat) : Nat :=
  let f := c.follow i
  if c.onAirKey i key then f.onAir
  else match c.bgOn i key with
    | some b => b.lane
    | none => match (c.member i key).bind (c.sharedLane i) with
      | some k => k
      | none => match f.bgs.head? with | some b => b.lane | none => f.onAir

/-- The ensemble and the MSC job that carry a DAB member (R272). -/
def Chip.dabCarrier (c : Chip) (sid : Nat) : Option (Nat × Nat) :=
  c.mscs.findSome? fun x =>
    let h := dHandle (c.jobDesc x.1)
    match c.ensOf (hLane h) with
    | none => none
    | some e => match Tbl.find (c.ens e).svcs (hSvc h) with
      | some s => if s.sid = sid then some (e, x.1) else none
      | none => none

/-- The channel that carries a DRM member, and the service's index. -/
def Chip.drmCarrier (c : Chip) (sid : Nat) : Option (Nat × Nat) :=
  (List.range 16).findSome? fun n =>
    if c.chLane n = 0xFF ∨ (c.chJob n).isNone then none else ((c.drm n).svcs.find? fun e => e.2.sid == sid).map fun e => (n, e.1)

/-- Handle of a member (Table 09-8); 0 without a carrier. -/
def Chip.memberHandle (c : Chip) (i key : Nat) : Nat := match c.member i key with
  | none => 0
  | some m =>
    if m.kind = 0 then c.handleLane (c.memberLane i key)
    else if m.kind = 1 then match c.dabCarrier m.ident with
      | some (_, j) => 0x20000000 + c.mscHandle j c.time.now 0
      | none => 0
    else match c.drmCarrier m.ident with
      | some (n, s) => 0x20000000 + c.handleUnit (c.chLane n) c.time.now s 0 0
      | none => 0

/-! Scores, windows and the standby. -/

/-- Mean of a list of figures, rounded down. -/
def mean (l : List Int) : Option Int := if l.isEmpty then none else some (l.foldl (· + ·) 0 / l.length)

/-- S of a member at a boundary (R275, Table 09-3). -/
def Chip.scoreOf (c : Chip) (i key : Nat) (m : MemberSt) : Option Int :=
  let f := c.follow i
  let less := fun (floor : Nat) (v : Option Int) => v.map fun (q : Int) => q - ((c.reg floor : Nat) : Int)
  if m.kind = 0 then
    if f.current = some key then less 0xC61 f.q
    else
      let parked := match c.bgOn i key with | some b => if b.park = 0 then none else some b.lane | none => none
      let lane := if c.onAirKey i key then some f.onAir else match parked with | some k => some k | none => c.sharedLane i m
      match lane with
      | some k => match less 0xC61 (mean (c.lane k).mnrs) with | some s => some s | none => m.score
      | none => m.score
  else if m.kind = 1 then match c.dabCarrier m.ident with
    | some (e, _) => less 0xC62 (c.ens e).mer
    | none => none
  else match c.drmCarrier m.ident with
    | some (n, _) => let w := c.field (drmA n 0x0A) 16 16; if w = 0x8000 then none else less 0xC63 (some (toSigned 16 w))
    | none => none

/-- e of another FM member (R282). -/
def Chip.extraOf (c : Chip) (i key : Nat) (m : MemberSt) : Int :=
  c.fE i - m.lag + (c.laneDelay (c.follow i).onAir : Nat) - (c.laneDelay (c.memberLane i key) : Nat)

/-- A member is aligned and in window (R282, R283); a follow-only instance has no ring to bound the window (R269). -/
def Chip.inWindow (c : Chip) (i key : Nat) (m : MemberSt) : Bool :=
  m.aligned && if !c.fLinking i then true else if m.kind = 0 then decide (0 ≤ c.extraOf i key m) && decide (c.extraOf i key m ≤ c.fD i)
    else decide (((c.field (lnkA i 2) 16 13 * 32768 : Nat) : Int) ≤ c.fE i - m.lag) && decide (c.fE i ≤ c.fD i)

/-- A member with this key is aligned and in window. -/
def Chip.fadesTo (c : Chip) (i key : Nat) : Bool := match c.member i key with | some m => c.inWindow i key m | none => false

/-- The better of two standby candidates (R277). -/
def Chip.betterStandby (c : Chip) (i : Nat) (a b : Nat × MemberSt × Int) : Nat × MemberSt × Int :=
  if a.2.2 < b.2.2 then b else if b.2.2 < a.2.2 then a
  else if c.inWindow i b.1 b.2.1 && !c.inWindow i a.1 a.2.1 then b else a

/-- The standby member. -/
def Chip.findStandby (c : Chip) (i : Nat) : Option Nat :=
  let l := (c.follow i).members.filterMap fun x =>
    if some x.1 = (c.follow i).current ∨ !x.2.verified then none else x.2.score.map fun s => (x.1, x.2, s)
  match l with
  | [] => none
  | x :: r => some (r.foldl (c.betterStandby i) x).1

/-! Records. -/

/-- The lag of `to` relative to `from`. -/
def Chip.lagBetween (c : Chip) (i : Nat) (dst src : Option Nat) : Int :=
  let l := fun (k : Option Nat) => match k.bind (c.member i) with | some m => m.lag | none => 0
  l dst - l src

/-- A follow record (R295, Table 09-8). -/
def Chip.followRec (c : Chip) (i code cause : Nat) (src dst : Option Nat) (failed : Bool) (length : Nat) (gap : Int) (ts : Nat) : Chip :=
  let dig := fun (k : Option Nat) => match k with | some x => isDigital x | none => false
  let h := fun (k : Option Nat) => match k with | some x => c.memberHandle i x | none => 0
  let flags := (if dig src then 1 else 0) + (if dig dst then 2 else 0) + (if failed then 4 else 0)
  c.system 0x07 (c.handleLaneAt (c.follow i).onAir ts) ts
    ([b8 i, b8 code, b8 cause, b8 flags] ++ le 4 (h src) ++ le 4 (h dst) ++ le 4 (ofSigned 32 (c.lagBetween i dst src)) ++ le 4 (c.reg (lnkA i 0x0B)) ++
      le 2 length ++ le 2 (satSigned 16 gap))

/-- The boundary at which the unit decides. -/
def Chip.boundary (c : Chip) : Nat := c.tick * 32000

/-- A record of the current member towards `key`. -/
def Chip.toRec (c : Chip) (i code cause : Nat) (key : Option Nat) (length : Nat) (gap : Int) : Chip :=
  c.followRec i code cause (c.follow i).current key false length gap c.boundary

/-- A fade record: its timestamp is c_s or the first faded connector time, its length F (R295). -/
def Chip.fadeRec (c : Chip) (i code cause : Nat) (src dst : Option Nat) (cs : Nat) : Chip :=
  c.followRec i code cause src dst false (if c.fLinking i then c.fadeLen i else 0) 0 (if cs = 0 then c.boundary else cs)

/-! Verification (R276). -/

/-- Identity evidence. -/
def Chip.evidence (c : Chip) (i key : Nat) : Chip := c.modMember i key fun m => { m with evidence := some c.tick }

/-- A member is no longer verified: code 2. -/
def Chip.unverify (c : Chip) (i key : Nat) : Chip := match c.member i key with
  | none => c
  | some m =>
    let c := c.modMember i key fun m => { m with evidence := none, verified := false }
    if m.verified then c.toRec i 2 0 (some key) 0 0 else c

/-- A member counts as verified: code 1. -/
def Chip.verify (c : Chip) (i key : Nat) : Chip := match c.member i key with
  | none => c
  | some m => if m.verified ∨ m.evidence.isNone then c else (c.modMember i key fun m => { m with verified := true }).toRec i 1 0 (some key) 0 0

/-- VERIFICATION_EXPIRE. -/
def Chip.verifyExpire (c : Chip) (i key : Nat) : Chip := match c.member i key with
  | none => c
  | some m => match m.evidence with
    | some t => if t + 4096 ≤ c.tick then c.unverify i key else c
    | none => c

/-- A PI equals a member's, or agrees in [15:12] and [7:0] for a regional member. -/
def piAgrees (m : MemberSt) (pi : Nat) : Bool := m.ident == pi || (m.regional && m.ident &&& 0xF0FF == pi &&& 0xF0FF)

/-- A group on lane `k` confirms its PI: evidence for, or against, the FM members on that frequency. -/
def Chip.piEvidence (c : Chip) (k : Nat) : Chip := match (c.rds k).pi with
  | none => c
  | some pi =>
    let conflict := fun (m : MemberSt) => match c.galFind 1 m.ident with | some e => c.galHas e 29 | none => false
    c.each (List.range 8) fun c i =>
      let ms := (c.follow i).members.filter fun x => x.2.kind == 0 && (c.fmAt x.2.kHz).contains k
      c.each ms fun c x => if piAgrees x.2 pi then (if conflict x.2 then c else c.evidence i x.1) else c.unverify i x.1

/-- A DAB or DRM member meets its conditions. -/
def Chip.digitalOk (c : Chip) (m : MemberSt) : Bool :=
  if m.kind = 1 then match c.dabCarrier m.ident with
    | some (e, j) =>
      let x := c.msc j
      c.ensState e == 4 && x.sub.isSome && x.sync && !x.recent.contains true
    | none => false
  else match c.drmCarrier m.ident with
    | some (n, _) => c.chState n == 4 && c.bit (drmA n 0x0B) 8
    | none => false

/-! Lanes and visits (R268, R271, R273, R274). -/

/-- The unit tunes one of its lanes: a retune at the next boundary, or a stop and a start where another window carries the frequency. -/
def Chip.tuneLane (c : Chip) (k kHz : Nat) : Chip := match c.memberWin kHz with
  | none => c
  | some w =>
    let n := c.ncoFor w kHz
    let l := c.lane k
    if l.started ∧ c.laneWin k = w ∧ ¬ c.laneCombines k then c.stage (laneA k 1) n
    else
      let c := if l.started then (c.stopLane k).modLane k fun x => { x with job := l.job, option := l.option } else c
      (c.putSrc k (w + 15 * 16)).put (laneA k 1) n

def Chip.modBg (c : Chip) (i n : Nat) (f : BgSt → BgSt) : Chip := c.modFollow i fun x => { x with bgs := x.bgs.modify n f }

/-- Members that background lane `n` may visit, in order: the standby first, then by AF pool entry. -/
def Chip.visitList (c : Chip) (i n : Nat) : List Nat :=
  let f := c.follow i
  let l := (f.members.filter fun x => x.2.kind == 0 && !c.onAirKey i x.1 && (c.memberWin x.2.kHz).isSome && (c.sharedLane i x.2).isNone).map (·.1)
  let l := match f.standby with
    | some s => if l.contains s then (if f.bgs.length = 2 then (if n = 1 then [s] else l.filter (· != s)) else s :: l.filter (· != s)) else l
    | none => l
  l.filter fun k => !(f.bgs.zipIdx.any fun b => b.2 != n && b.1.member == some k)

/-- The member after `k`, cyclically. -/
def nextOf (l : List Nat) (k : Option Nat) : Option Nat := match k with
  | none => l.head?
  | some x => match (l.dropWhile (· != x)).drop 1 with
    | y :: _ => some y
    | [] => l.head?

/-- Background lane `n` takes up member `key`. -/
def Chip.visit (c : Chip) (i n key : Nat) : Chip :=
  match (c.follow i).bgs[n]?, c.member i key with
  | some b, some m =>
    if b.member = some key ∧ (c.lane b.lane).filled then c.modBg i n fun b => { b with park := 0, since := some c.tick, mnr := (0, 0) }
    else (c.modBg i n fun b => { b with member := some key, park := 0, since := none, mnr := (0, 0) }).tuneLane b.lane m.kHz
  | _, _ => c

/-- Background lane `n` moves on; the second of two stays parked on the standby. -/
def Chip.moveOn (c : Chip) (i n : Nat) : Chip :=
  let f := c.follow i
  match f.bgs[n]? with
  | none => c
  | some b =>
    if n = 1 ∧ b.member.isSome ∧ b.member = f.standby then c.modBg i n fun b => { b with park := 1, since := some c.tick, mnr := (0, 0) }
    else match nextOf (c.visitList i n) b.member with
      | some k => c.visit i n k
      | none => c.modBg i n fun b => { b with member := none, park := 0, since := none, mnr := (0, 0) }

/-- The index of a background lane. -/
def Chip.bgIdx (c : Chip) (i k : Nat) : Option Nat := (c.follow i).bgs.findIdx? fun b => b.lane == k

/-- The first output sample of a background lane on its member starts the visit. -/
def Chip.followFirstOutput (c : Chip) (k : Nat) : Chip :=
  c.each (List.range 8) fun c i => match c.bgIdx i k with
    | some n => c.modBg i n fun b => if b.since.isNone && b.member.isSome then { b with since := some c.tick, mnr := (0, 0) } else b
    | none => c

/-- S of the standby stands LNK_HYST above that of the current member (R286). -/
def Chip.clearlyBetter (c : Chip) (i key : Nat) : Bool :=
  match (c.member i key).bind (·.score), ((c.follow i).current.bind (c.member i)).bind (·.score) with
  | some s, some q => decide (q + 5 * (c.field (lnkA i 0) 16 8 : Nat) ≤ s)
  | _, _ => false

/-- One decision of the quality trigger's run, for the standby. -/
def Chip.holdRun (c : Chip) (i key : Nat) : Chip :=
  if (c.follow i).standby = some key then c.modFollow i fun f => { f with holdRuns := if c.clearlyBetter i key then f.holdRuns + 1 else 0 } else c

/-- A member needs an excerpt (R274, R280). -/
def MemberSt.needs (m : MemberSt) : Bool := m.verified && (match m.score with | some s => decide (0 ≤ s) | none => false) && (!m.aligned || m.wanted)

/-- The MNR of the tick of a background lane that visits counts in the mean of the visit (Table 09-3). -/
def Chip.visitMnr (c : Chip) (i : Nat) : Chip :=
  c.modFollow i fun f => { f with bgs := f.bgs.map fun b => match b.since, (c.lane b.lane).meas with
    | some _, some m => if b.park = 0 then { b with mnr := (b.mnr.1 + m.mnr, b.mnr.2 + 1) } else b
    | _, _ => b }

/-- MEMBER_VISIT_END: the mean MNR of the visit gives S; the lane parks where an excerpt is needed, else moves on. A visit without a figure leaves S. -/
def Chip.visitEnd (c : Chip) (i k : Nat) : Chip := match c.bgIdx i k with
  | none => c
  | some n => match (c.follow i).bgs[n]? with
    | some { lane := _, member := some key, park := 0, since := some t, mnr := q } =>
      if c.tick < t + c.field (lnkA i 5) 0 16 then c
      else
        let c := c.modMember i key fun m => if q.2 = 0 then m else { m with score := some (q.1 / q.2 - (c.reg 0xC61 : Nat)) }
        let c := c.holdRun i key
        match c.member i key with
        | some m =>
          if m.needs then c.modBg i n fun b => { b with park := if m.aligned then 1 else 2, since := some c.tick, mnr := (0, 0) }
          else c.moveOn i n
        | none => c.moveOn i n
    | _ => c

/-- MEMBER_PARK_END. -/
def Chip.parkEnd (c : Chip) (i k : Nat) : Chip := match c.bgIdx i k with
  | none => c
  | some n => match (c.follow i).bgs[n]? with
    | some b => match b.since with
      | some t => if b.park ≠ 0 ∧ t + 1049 * b.park ≤ c.tick then c.moveOn i n else c
      | none => c
    | none => c

/-! Estimates (R279 to R281). -/

/-- A member is unaligned again: event 39, code 5. -/
def Chip.loseAlignment (c : Chip) (i key : Nat) : Chip :=
  ((c.modMember i key fun m => { m with aligned := false, prev := none, fails := 0, wanted := false }).raise 39 (c.handleLane (c.follow i).onAir) i).toRec i 5 0 (some key) 0 0

/-- Two lags agree within LNK_AGREE. -/
def Chip.lagsAgree (c : Chip) (a b : Int) : Bool := decide ((a - b).natAbs ≤ c.reg 0xC66)

/-- A failed or disagreeing re-estimate. -/
def Chip.estimateBad (c : Chip) (i key : Nat) (prev : Option Int) : Chip := match c.member i key with
  | none => c
  | some m =>
    let c := c.modMember i key fun m => { m with prev := prev, fails := if m.aligned then m.fails + 1 else 0 }
    if m.aligned ∧ c.reg 0xC68 ≤ m.fails + 1 then c.loseAlignment i key else c

/-- A good estimate (R280). -/
def Chip.estimateGood (c : Chip) (i key : Nat) (lag : Int) : Chip := match c.member i key with
  | none => c
  | some m =>
    let again := match m.prev with | some p => c.lagsAgree p lag | none => false
    if !m.aligned then
      c.modMember i key fun m => if again then { m with aligned := true, lag := lag, prev := none, fails := 0, estAt := c.tick } else { m with prev := some lag }
    else if c.lagsAgree m.lag lag then c.modMember i key fun m => { m with prev := none, fails := 0, estAt := c.tick }
    else if again then c.modMember i key fun m => { m with prev := none, fails := 0, move := some lag, estAt := c.tick }
    else c.estimateBad i key (some lag)

/-- Word 3 of link reference block `i`. -/
def refWord (i w : Nat) : Nat := 4100 * i + w
def Chip.refStatus (c : Chip) (i : Nat) : Nat := (Tbl.get 0 c.linkRef (refWord i 3)).toNat
def Chip.setRef (c : Chip) (i w v : Nat) : Chip := { c with linkRef := Tbl.set 0 c.linkRef (refWord i w) (w32 v) }

/-- The member that a block names by its handle. -/
def Chip.refMember (c : Chip) (i : Nat) : Option Nat :=
  let h := (Tbl.get 0 c.linkRef (refWord i 2)).toNat
  ((c.follow i).members.find? fun x => isDigital x.1 && c.memberHandle i x.1 != 0 && setBits (c.memberHandle i x.1) 25 4 0 == setBits h 25 4 0).map (·.1)

def Chip.refTx (c : Chip) (i : Nat) : Nat := (Tbl.get 0 c.linkRef (refWord i 0)).toNat + (Tbl.get 0 c.linkRef (refWord i 1)).toNat * 2 ^ 32

/-- Samples of 12.000 s of anchor history (R278). -/
def historyLen : Nat := 96000

/-- Connector time from which the anchor's history reaches; now without one. -/
def Chip.histStart (c : Chip) (i : Nat) : Nat := match (c.follow i).hist.getLast? with | some s => s.1 | none => c.time.now

/-- LINK_REF_COMMIT (R281): rejected where the member is none of the instance, or the history cannot reach tx - d. -/
def Chip.commitRef (c : Chip) (i : Nat) : Chip :=
  if c.refStatus i = 1 then c
  else match c.refMember i, (c.follow i).anchor with
    | some _, some _ => c.setRef i 3 (if (c.histStart i : Int) ≤ (c.refTx i : Nat) - c.fD i then 1 else 3)
    | _, _ => c.setRef i 3 3

/-- A write to block `i` of the link reference table; a write to word 3 with its bit 0 set commits. -/
def Chip.writeRef (c : Chip) (a v : Nat) : Chip :=
  if a % 4100 = 3 then (if v % 4 = 1 then c.commitRef (a / 4100) else c)
  else { c with linkRef := Tbl.set 0 c.linkRef a (w32 v) }

/-- An estimate of a member is due or under way. -/
def Chip.estimating (c : Chip) (i key : Nat) : Bool := match c.member i key with
  | none => false
  | some m => (c.follow i).anchor.isSome && (c.follow i).anchor != some key &&
      if isDigital key then c.refStatus i == 1 && c.refMember i == some key else !m.aligned || m.wanted

/-- The samples of block `i`, the earlier one of a word in its lower half. -/
def Chip.refSamples (c : Chip) (i : Nat) : List Int :=
  (List.range 4096).flatMap fun w => let v := (Tbl.get 0 c.linkRef (refWord i (4 + w))).toNat; [toSigned 16 (v % 65536), toSigned 16 (v / 65536)]

/-- The excerpt from which member `key` is estimated next: the connector time of its first sample, and its samples (R279, R281). -/
def Chip.excerpt (c : Chip) (i key : Nat) : Option (Nat × List Int) :=
  if isDigital key then (if c.refStatus i = 1 ∧ c.refMember i = some key then some (c.refTx i, c.refSamples i) else none)
  else ((c.follow i).exs.find? fun e => e.key == key && e.xs.length == excerptLen).map fun e => (e.tx, e.xs.reverse)

/-- The range d of an instance in samples of the correlation signal. -/
def Chip.lagRange (c : Chip) (i : Nat) : Nat := 2000 * fRange (c.fDesc i)

/-- The anchor's history reaches tx + 1.024 s + d, so that the search starts. -/
def Chip.searchable (c : Chip) (i tx : Nat) : Bool := match (c.follow i).hist with
  | s :: _ => decide (tx + (excerptLen + c.lagRange i) * corrCounts ≤ s.1)
  | [] => false

/-- The search of an excerpt of instance `i`. -/
def Chip.search (c : Chip) (i tx : Nat) (xs : List Int) : LagResult := searchLag xs tx (c.lagRange i) (c.follow i).hist.reverse

/-- The estimate fails: on its peak, or because the history no longer reaches back to tx - d. -/
def Chip.searchFails (c : Chip) (i tx : Nat) (xs : List Int) : Bool :=
  decide (tx < c.histStart i + c.lagRange i * corrCounts) || (c.search i tx xs).fails (c.reg 0xC64) (c.reg 0xC65)

/-- The excerpt is used up: a block reads 2, an FM member's is dropped. -/
def Chip.useExcerpt (c : Chip) (i key : Nat) : Chip :=
  if isDigital key then c.setRef i 3 2
  else c.modFollow i fun f => { f with exs := f.exs.eraseP fun e => e.key == key && e.xs.length == excerptLen }

/-- ESTIMATE_COMPLETE (R279, R280): once the history reaches far enough, the search of the next excerpt is adopted or fails. -/
def Chip.estimate (c : Chip) (i key : Nat) : Chip := match c.excerpt i key with
  | none => c
  | some (tx, xs) =>
    if !c.estimating i key || !c.searchable i tx then c
    else
      let r := c.search i tx xs
      let failed := c.searchFails i tx xs
      let (w, c) := c.freeWord
      let lag := r.lag (c.lagRange i) (toSigned 32 w.toNat)
      let c := ((c.count 0xC6C).when failed fun c => c.count 0xC6D).useExcerpt i key
      let c := c.modMember i key fun m => { m with wanted := false }
      let c := if failed then c.estimateBad i key none else c.estimateGood i key lag
      c.followRec i 3 0 (c.follow i).current (some key) failed (max 0 (min 1000 (rnd 30 (r.rho * 1000)))).toNat 0 tx

/-- REESTIMATE_DUE: every LNK_REEST ticks while aligned. -/
def Chip.reestimate (c : Chip) (i key : Nat) : Chip := match c.member i key with
  | some m => if m.aligned ∧ m.estAt + c.reg 0xC67 ≤ c.tick ∧ ¬ c.onAirKey i key then c.modMember i key fun m => { m with wanted := true, estAt := c.tick } else c
  | none => c

/-! The correlation signal (R278, R279). -/

/-- The correlation samples of lane `k` since the last boundary, oldest first, in connector time: the middle of the low-pass lies 63 multiplex samples behind
the newest, which lies 128 counts behind the lane output (R30, R156). De-emphasised as LNK_CFG[6:5] selects. -/
def Chip.corrOf (c : Chip) (i k : Nat) : List (Nat × Int) :=
  let de := c.field (lnkA i 0) 5 2
  (c.lane k).dsp.corr.out.reverse.map fun x => (c.laneStamp k (128 + 63 * 128) x.1, if de = 1 then x.2.2.1 else if de = 2 then x.2.2.2 else x.2.1)

/-- A sample joins an excerpt that is not full; after a gap the excerpt begins anew. -/
def Excerpt.take (e : Excerpt) (s : Nat × Int) : Excerpt :=
  if e.xs.length = excerptLen then e
  else if e.xs.isEmpty || decide (corrCounts / 2 < ((s.1 : Int) - (e.tx + corrCounts * e.xs.length : Nat)).natAbs) then { e with tx := s.1, xs := [s.2] }
  else { e with xs := s.2 :: e.xs }

/-- The lane on which an FM member gives excerpts: the background lane parked on it, or a lane that carries it anyway. -/
def Chip.excerptLane (c : Chip) (i key : Nat) (m : MemberSt) : Option Nat := match c.bgOn i key with
  | some b => if b.park = 0 then none else some b.lane
  | none => c.sharedLane i m

/-- The excerpts of a member at a boundary: two at a time while it is unaligned, one for a re-estimate (R274). -/
def Chip.excerptTick (c : Chip) (i : Nat) (x : Nat × MemberSt) : Chip :=
  let mine := (c.follow i).exs.filter fun e => e.key == x.1
  let rest := (c.follow i).exs.filter fun e => e.key != x.1
  let done := mine.filter fun e => e.xs.length == excerptLen
  let next := match c.excerptLane i x.1 x.2 with
    | none => []
    | some k =>
      let full := fun (e : Excerpt) => (c.corrOf i k).foldl Excerpt.take e
      match mine.find? fun e => e.xs.length != excerptLen && e.lane == k with
      | some e => [full e]
      | none => if x.2.needs && decide (done.length < if x.2.aligned then 1 else 2) then [full { key := x.1, lane := k, tx := 0, xs := [] }] else []
  c.modFollow i fun f => { f with exs := rest ++ done ++ next }

/-- The correlation signals at a boundary: 12.000 s of the anchor's, and the excerpts of the members that are estimated. -/
def Chip.corrTick (c : Chip) (i : Nat) : Chip :=
  let f := c.follow i
  let new := if f.anchor.isSome then (c.corrOf i f.onAir).reverse else []
  let c := c.modFollow i fun f => { f with hist := (new ++ f.hist).take historyLen, exs := f.exs.filter fun e => c.estimating i e.key }
  c.each ((c.follow i).members.filter fun x => x.2.kind == 0 && c.estimating i x.1) fun c x => c.excerptTick i x

/-! What the instance shows. -/

/-- LNK_OUT_LAT: connector to window output (2 and 16.34 counts, R30, R78), lane, slot (Table 05-3), port (R455) and e. -/
def Chip.outLat (c : Chip) (i : Nat) : Nat := (18 + c.laneDelay (c.follow i).onAir + 8192 + 3072) + c.reg (lnkA i 0x0B)

def score16 (s : Option Int) : Nat := match s with | some v => satSigned 16 v | none => 0x8000

/-- The computed parameters of an instance (Table 09-10). -/
def Chip.refreshFollow (c : Chip) (i : Nat) : Chip :=
  let f := c.follow i
  let sc := fun (k : Option Nat) => (k.bind (c.member i)).bind (·.score)
  let h := fun (k : Option Nat) => match k with | some x => c.memberHandle i x | none => 0
  let st := f.standby.bind fun k => (c.member i k).map fun m => (k, m)
  let win := match st with | some (k, m) => c.inWindow i k m | none => false
  let lag := match st with | some (k, m) => if m.aligned then ofSigned 32 (c.lagBetween i (some k) f.current) else 0x80000000 | none => 0x80000000
  let c := c.put (lnkA i 8) (h f.current)
  let c := c.put (lnkA i 9) (h f.standby)
  let c := c.put (lnkA i 0x0A) lag
  let c := c.put (lnkA i 0x0C) (if f.anchor.isSome && c.fLinking i then c.outLat i else 0)
  let c := c.put (lnkA i 0x0D) (score16 (sc f.current) + 65536 * score16 (sc f.standby))
  let n := fun (p : MemberSt → Bool) => (f.members.filter fun x => p x.2).length
  let c := c.put (lnkA i 0x0E) (f.members.length + 256 * n (·.verified) + 65536 * n (·.aligned))
  let c := ((c.putBit (lnkA i 7) 0 f.slew.isSome).putBit (lnkA i 7) 1 win).putBit (lnkA i 7) 2 (c.digitalNow i)
  c.putBit (lnkA i 7) 3 (c.fLinking i && c.alarmProg (fProg (c.fDesc i)))

def Chip.fState (c : Chip) (i : Nat) : Nat := c.reg (lnkA i 6)
def Chip.setFState (c : Chip) (i s : Nat) : Chip := c.put (lnkA i 6) s

/-- State 2 or 3, as the standby stands. -/
def Chip.restState (c : Chip) (i : Nat) : Chip :=
  c.setFState i (match (c.follow i).standby with | some k => if c.fadesTo i k then 3 else 2 | none => 2)

/-! Changes (R286 to R293). -/

/-- The programme of an instance changes. -/
def Chip.modAud (c : Chip) (i : Nat) (g : LinkAud → LinkAud) : Chip := c.modFollow i fun f => { f with aud := g f.aud }

/-- The slot that carries the FM side of a change on `lane`. -/
def Chip.inSlot (c : Chip) (i lane : Nat) : Nat := if lane = (c.follow i).onAir then (c.follow i).slotCur else (c.follow i).slotFree

/-- The change has been made: what came in is what is heard. Towards a DAB or DRM member the ring stays with the anchor. -/
def LinkAud.switched (a : LinkAud) : LinkAud :=
  if a.digInc then { a with dig := true, phase := 0, inc := [], e := if a.phase = 3 then some a.eInc else a.e }
  else { a with dig := false, phase := 0, slot := a.incSlot, ring := a.inc, inc := [], e := some a.eInc }

/-- A slew stops where it stands: code 11. -/
def Chip.slewStop (c : Chip) (i : Nat) : Chip :=
  if (c.follow i).slew.isNone then c
  else ((c.modFollow i fun f => { f with slew := none }).putBit (lnkA i 7) 0 false).toRec i 11 0 (c.follow i).current 0 0

/-- The lanes of a change: the on-air lane and the incoming one. -/
def Chip.fadeLanes (c : Chip) (i : Nat) (x : ChangeSt) : List Nat :=
  if isDigital x.dst then [(c.follow i).onAir] else [(c.follow i).onAir, x.lane].eraseDups

/-- Free the fade of the lanes; a pending bank request starts (R127, R128). -/
def Chip.releaseFade (c : Chip) (ks : List Nat) : Chip :=
  c.each ks fun c k => if (c.lane k).linkFade then (c.modLane k fun l => { l with linkFade := false }).startPendingBank k else c

/-- Clear a pending linking cross-fade of instance `i`. -/
def Chip.clearPendLink (c : Chip) (i : Nat) : Chip :=
  let clear : Nat × LaneSt → Nat × LaneSt := fun e => if e.2.pendLink = some i then (e.1, { e.2 with pendLink := none, linkFirst := false }) else e
  { c with lanes := c.lanes.map clear }.putBit (lnkA i 7) 4 false

/-- The same where the change is given up: a bank request that waited behind it starts. -/
def Chip.dropPendLink (c : Chip) (i : Nat) : Chip :=
  let ks := (c.lanes.filter fun e => e.2.pendLink == some i).map (·.1)
  (c.clearPendLink i).each ks fun c k => if c.fadeBusy k then c else c.startPendingBank k

/-- A change of role on FM: the incoming lane becomes the on-air lane, lags are re-referred to the new anchor, the slots of the pair change places.
A new anchor whose own lag is unknown leaves no lag to refer the others by: they are unaligned. -/
def Chip.swapFm (c : Chip) (i : Nat) (x : ChangeSt) : Chip :=
  let f := c.follow i
  if f.anchor = some x.dst then c
  else
    let base := match c.member i x.dst with | some m => if m.aligned then some m.lag else none | none => none
    let old := f.anchor
    let sub := fun (e : Nat × MemberSt) => match base with
      | some b => (e.1, { e.2 with lag := e.2.lag - b, prev := e.2.prev.map (· - b), move := e.2.move.map (· - b) })
      | none => (e.1, { e.2 with aligned := false, prev := none, move := none, fails := 0, wanted := false })
    let c := if c.fLinking i && f.slotCur < 16 then (c.applySlotLane true f.slotCur 0xFF) else c
    let c := c.modFollow i fun f =>
      { f with members := f.members.map sub, anchor := some x.dst, onAir := x.lane, slotCur := f.slotFree, slotFree := f.slotCur, q := none,
               bgs := f.bgs.map fun b => if b.lane = x.lane then { lane := f.onAir, member := old, park := 0, since := none } else b
               hist := [], exs := [] }
    c.modMember i x.dst fun m => { m with aligned := true, lag := 0 }

/-- e of the member that comes in, with the lag in force at arming (R282, R293). -/
def Chip.incomingExtra (c : Chip) (i : Nat) (x : ChangeSt) : Int := match c.member i x.dst with
  | some m => if isDigital x.dst ∨ x.hard ∨ (c.follow i).anchor = some x.dst then c.fE i else toSample c.audRate (c.extraOf i x.dst { m with lag := x.lag })
  | none => c.fE i

/-- A change completes (R292): event 38, LNK_SW_CNT, LNK_SW_TOTAL_CNT. -/
def Chip.completeChange (c : Chip) (i : Nat) : Chip := match (c.follow i).change with
  | none => c
  | some x =>
    let f := c.follow i
    let src := f.current
    let e' := c.incomingExtra i x
    let c := c.releaseFade (c.fadeLanes i x)
    let c := c.clearPendLink i
    let c := if c.fLinking i then c.put (lnkA i 0x0B) e'.toNat else c
    let c := if isDigital x.dst then c else c.swapFm i x
    let c := c.modFollow i fun f => { f with current := some x.dst, change := none, changedAt := c.tick, failTicks := 0, holdRuns := 0, carrierLost := false, standby := none }
    let c := if x.hard then c else c.fadeRec i 8 x.cause src (some x.dst) x.cs
    let c := c.modFollow i fun f => { f with standby := c.findStandby i }
    ((((c.count (lnkA i 0x10)).count 0xC69).raise 38 (c.handleLane (c.follow i).onAir) i).restState i).refreshFollow i

/-- A hard switch at this boundary (R291): e becomes 0, LNK_HARD_CNT, code 9 with its gap; a gap that nothing aligns is a free value. -/
def Chip.hardSwitch (c : Chip) (i dst cause lane : Nat) (gap : Option Int) : Chip :=
  let f := c.follow i
  let (w, c) := c.freeWord
  let counts : Option Int := match gap with
    | some g => some g
    | none => match c.member i dst with
      | some m => if m.aligned && !isDigital dst then some (c.fE i + (c.laneDelay f.onAir : Nat) - (c.laneDelay lane : Nat) - m.lag) else none
      | none => none
  let ms := match counts with | some g => (g * 2 + 32768) / 65536 | none => toSigned 16 w.toNat
  let c := (c.put (lnkA i 0x0B) 0).count 0xC6A
  let c := c.modFollow i fun f => { f with change := some { dst := dst, cause := cause, lane := lane, decided := c.tick, lag := 0, cs := 0, fading := false, hard := true } }
  let c := c.setFState i 6
  let c := c.modAud i fun a => { a with phase := 3, rampOut := 32, incSlot := c.inSlot i lane, inc := [], eInc := 0, digInc := isDigital dst }
  let c := if isDigital dst || lane == f.onAir then c else c.applySlotLane true f.slotFree lane
  c.toRec i 9 cause (some dst) 0 ms

/-- The lane on which an FM target comes in: its background lane, else the first one, tuned to it, else the on-air lane. -/
def Chip.incoming (c : Chip) (i key : Nat) : Nat × Chip :=
  let f := c.follow i
  if isDigital key || c.onAirKey i key then (f.onAir, c)
  else match c.bgOn i key with
    | some b => (b.lane, c)
    | none => match f.bgs.head? with
      | some b => (b.lane, c.visit i 0 key)
      | none => match c.member i key with
        | some m => (f.onAir, c.tuneLane f.onAir m.kHz)
        | none => (f.onAir, c)

/-- c_s: the first tick boundary at or after t_d - e + LNK_EXT_LEAD (R290). -/
def Chip.fadeStartAt (c : Chip) (i : Nat) : Nat :=
  let t := c.boundary + c.field (lnkA i 5) 16 16 * 32000 - c.reg (lnkA i 0x0B)
  ceilDiv t 32000 * 32000

/-- A cross-fade is armed (R288, R290). -/
def Chip.armFade (c : Chip) (i dst cause lane : Nat) : Chip :=
  let f := c.follow i
  let ext := isDigital dst || c.digitalNow i
  let cs := c.fadeStartAt i
  let lag := match c.member i dst with | some m => m.lag | none => 0
  let c := c.modFollow i fun f => { f with change := some { dst := dst, cause := cause, lane := lane, decided := c.tick, lag := lag, cs := if ext then cs else 0, fading := false, hard := false } }
  let c := c.setFState i 4
  let s := c.inSlot i lane
  let c := c.modAud i fun a =>
    { a with phase := 1, incSlot := s, digInc := isDigital dst, inc := if s = a.slot then a.ring else if a.phase = 1 ∧ a.incSlot = s then a.inc else [] }
  let c := if isDigital dst || lane == f.onAir then c else c.applySlotLane true f.slotFree lane
  let c := c.toRec i 6 cause (some dst) 0 0
  if ext then c.fadeRec i 7 cause f.current (some dst) cs else c

/-- A trigger's change (R287): cross-fade, hard switch, or the immediate change of a follow-only instance. -/
def Chip.changeTo (c : Chip) (i dst cause : Nat) : Chip :=
  let c := c.slewStop i
  let (lane, c) := c.incoming i dst
  if !c.fLinking i then
    (c.modFollow i fun f => { f with change := some { dst := dst, cause := cause, lane := lane, decided := c.tick, lag := 0, cs := 0, fading := false, hard := false } }).completeChange i
  else if c.fadesTo i dst && (isDigital dst || lane != (c.follow i).onAir || c.digitalNow i) then c.armFade i dst cause lane
  else c.hardSwitch i dst cause lane none

/-- The slot that a change had attached to the incoming lane is detached. -/
def Chip.detachIncoming (c : Chip) (i : Nat) (x : ChangeSt) : Chip :=
  let f := c.follow i
  if isDigital x.dst || x.lane == f.onAir || 16 ≤ f.slotFree then c else c.applySlotLane true f.slotFree 0xFF

/-- A change that has not begun is cancelled: code 12, the free slot is detached. -/
def Chip.cancelChange (c : Chip) (i : Nat) : Chip := match (c.follow i).change with
  | none => c
  | some x =>
    let f := c.follow i
    let c := c.dropPendLink i
    let c := c.detachIncoming i x
    (((c.modAud i fun a => { a with phase := 0, inc := [] }).modFollow i fun f => { f with change := none }).fadeRec i 12 x.cause f.current (some x.dst) x.cs).restState i

/-- The change is armed again with the lag now in force (Table 09-6). -/
def Chip.rearm (c : Chip) (i : Nat) : Chip := match (c.follow i).change with
  | none => c
  | some x => (c.dropPendLink i).armFade i x.dst 4 x.lane

/-- The incoming member of the change fails, or its lane has restarted with a generation step (Table 09-6). -/
def Chip.incomingFails (c : Chip) (i : Nat) (x : ChangeSt) : Bool :=
  (match c.member i x.dst with | some m => !m.verified | none => true) || (!isDigital x.dst && x.lane != (c.follow i).onAir && (c.lane x.lane).voided)

/-- Coinciding happenings of a change, at a boundary (Table 09-6). -/
def Chip.coincide (c : Chip) (i : Nat) : Chip := match (c.follow i).change with
  | none => c
  | some x =>
    let f := c.follow i
    if x.hard then c
    else if x.fading then
      if c.incomingFails i x then
        let gap := c.fE i
        let c := (c.releaseFade (c.fadeLanes i x)).fadeRec i 12 x.cause f.current (some x.dst) x.cs
        let c := c.detachIncoming i x
        match f.current with
        | some k => (c.hardSwitch i k x.cause f.onAir (some gap))
        | none => c
      else if (c.lane f.onAir).voided && !isDigital x.dst then (c.completeChange i).modAud i LinkAud.switched
      else c
    else if c.incomingFails i x then c.cancelChange i
    else if f.rearmed then c.rearm i
    else c

/-- Lags that move at this boundary (R280, R293): not during a fade; a move of the target re-arms the change. -/
def Chip.moveLags (c : Chip) (i : Nat) : Chip :=
  let f := c.follow i
  let fading := match f.change with | some x => x.fading | none => false
  if fading then c
  else c.each (f.members.filter fun x => x.2.move.isSome) fun c x =>
    let c := (c.modMember i x.1 fun m => { m with lag := m.move.getD m.lag, move := none }).toRec i 4 0 (some x.1) 0 0
    match (c.follow i).change with
    | some ch => if ch.dst = x.1 ∧ !ch.hard then (c.count 0xC6B).rearm i else c
    | none => c

/-! The slew (R285). -/

/-- 125 ms, studio counts. -/
def slewMargin : Int := 4096000

/-- The target of e; `none` where no slew is due: with LNK_CFG[4] a standby that is aligned and in window holds e where it is. -/
def Chip.slewTarget (c : Chip) (i : Nat) : Option Int :=
  let f := c.follow i
  let pre : Int := (c.field (lnkA i 2) 0 13 * 32768 : Nat)
  let keep := fun (t : Int) => if 0 ≤ t ∧ t ≤ c.fD i then some t else some pre
  match f.standby.bind fun k => (c.member i k).map fun m => (k, m) with
  | some (k, m) =>
    if c.bit (lnkA i 0) 4 && m.aligned then
      if c.inWindow i k m then none
      else if m.kind = 0 then
        let x := c.extraOf i k m
        keep (if x < 0 then c.fE i - x + slewMargin else c.fE i - x + c.fD i - slewMargin)
      else keep (m.lag + (c.field (lnkA i 2) 16 13 * 32768 : Nat) + slewMargin)
    else some pre
  | none => some pre

/-- Counts that the slew covers between two studio times. -/
def slewSpan (rate t0 t1 : Nat) : Int := (rate * t1 / 1000000 : Nat) - (rate * t0 / 1000000 : Nat)

/-- e moves towards its target up to now. -/
def Chip.slewMove (c : Chip) (i : Nat) : Chip := match (c.follow i).slew with
  | none => c
  | some t =>
    let n := slewSpan (c.reg (lnkA i 4)) (c.follow i).slewAt c.time.now
    let e := c.fE i
    let e' := if e < t then min t (e + n) else max t (e - n)
    (c.put (lnkA i 0x0B) e'.toNat).modFollow i fun f => { f with slewAt := c.time.now }

/-- The slew at a boundary: start (code 10), or a new target. -/
def Chip.slewTick (c : Chip) (i : Nat) : Chip :=
  let c := c.slewMove i
  let f := c.follow i
  if f.slew.isSome && (c.reg (lnkA i 4) == 0 || c.digitalNow i) then c.slewStop i
  else if c.reg (lnkA i 4) = 0 ∨ f.change.isSome ∨ c.digitalNow i ∨ !c.fLinking i ∨ c.fState i < 2 then c
  else match c.slewTarget i with
    | none => c
    | some t =>
      if f.slew.isSome then c.modFollow i fun f => { f with slew := some t }
      else if c.fE i = t then c
      else ((c.modFollow i fun f => { f with slew := some t, slewAt := c.time.now }).putBit (lnkA i 7) 0 true).toRec i 10 0 f.current 0 0

/-- LINK_SLEW_END: the slew has reached its target: code 11. -/
def Chip.slewEnd (c : Chip) (i : Nat) : Chip :=
  let c := c.slewMove i
  if (c.follow i).slew = some (c.fE i) then c.slewStop i else c

/-! Triggers (R286, R287). -/

/-- The current member has failed. -/
def Chip.failed (c : Chip) (i : Nat) : Bool :=
  let f := c.follow i
  decide (c.field (lnkA i 1) 0 16 ≤ f.failTicks) || f.carrierLost || match f.current.bind (c.member i) with
    | some m => !m.verified || (m.kind != 0 && match (if m.kind = 1 then (c.dabCarrier m.ident).map fun x => c.ensState x.1 else (c.drmCarrier m.ident).map fun x => c.chState x.1) with
      | some st => st < 4
      | none => true)
    | none => true

/-- The standby, where its S is at or above 0. -/
def Chip.rescue (c : Chip) (i : Nat) : Option Nat := match (c.follow i).standby with
  | some k => match (c.member i k).bind (·.score) with
    | some s => if 0 ≤ s then some k else none
    | none => none
  | none => none

/-- The standby that the quality trigger takes. -/
def Chip.qualityDue (c : Chip) (i : Nat) : Option Nat :=
  let f := c.follow i
  match f.standby with
  | some k => if c.fadesTo i k && decide (c.field (lnkA i 0) 8 4 ≤ f.holdRuns) && decide (f.changedAt + c.field (lnkA i 1) 16 16 ≤ c.tick) then some k else none
  | none => none

/-- The triggers at a boundary, in their order of precedence. -/
def Chip.triggers (c : Chip) (i : Nat) : Chip :=
  let f := c.follow i
  let forced := f.force.filter fun k => match c.member i k with | some m => m.verified && f.current != some k | none => false
  let c := c.modFollow i fun f => { f with force := none }
  if f.change.isSome ∨ ¬ (c.fState i = 2 ∨ c.fState i = 3 ∨ c.fState i = 7) then c
  else if c.failed i then match c.rescue i, forced with
    | some k, _ => c.changeTo i k 2
    | none, some k => c.changeTo i k 3
    | none, none => (c.slewStop i).setFState i 7
  else match forced, c.qualityDue i with
    | some k, _ => c.changeTo i k 3
    | none, some k => c.changeTo i k 1
    | none, none => c.restState i

/-- LNK_FORCE as a member key: an AF pool entry, or a Gallery entry with bit 15. -/
def forceKey (v : Nat) : Nat := if v.testBit 15 then galKey (bits v 0 14) else bits v 0 14

/-- LNK_FORCE_WRITE (R286, R293): refused unless it names a verified member, and while a change is armed or running. -/
def Chip.wrForce (c : Chip) (i v : Nat) : WRes :=
  let ok := match c.member i (forceKey v) with | some m => m.verified | none => false
  if !ok || (c.follow i).change.isSome then c.no rBad else (c.modFollow i fun f => { f with force := some (forceKey v) }).yes

/-! Fades. -/

/-- The slot of an FM change is ready: 64 ticks in state 3 (R288). -/
def Chip.slotReady (c : Chip) (i : Nat) (x : ChangeSt) : Bool :=
  isDigital x.dst || x.lane == (c.follow i).onAir || decide (64 ≤ (c.slot true (c.follow i).slotFree).ready)

/-- The ring and the fade buffer hold the incoming audio for the whole fade: it has been written long enough, and its position stands ahead by the fade. -/
def Chip.ringHolds (c : Chip) (i : Nat) (x : ChangeSt) : Bool :=
  isDigital x.dst || x.lane == (c.follow i).onAir || match c.member i x.dst with
    | some m =>
      let e := c.extraOf i x.dst { m with lag := x.lag }
      decide (e ≤ ((c.slot true (c.follow i).slotFree).ready * 32000 : Nat)) && decide ((c.fadeCounts i : Int) ≤ e)
    | none => false

/-- The armed change may start but for a bank fade: with a DAB or DRM member when the FM sample of c_s leaves, else at once. -/
def Chip.fadeDue (c : Chip) (i : Nat) (x : ChangeSt) : Bool :=
  !x.fading && !x.hard && c.slotReady i x && c.ringHolds i x && (x.cs == 0 || decide (x.cs + c.outLat i ≤ c.time.now))

/-- An armed change that waits for a bank fade (R128): pending on the lanes. -/
def Chip.waitBank (c : Chip) (i : Nat) : Chip := match (c.follow i).change with
  | none => c
  | some x =>
    let busy := (c.fadeLanes i x).filter fun k => c.fadeBusy k
    if !c.fadeDue i x || busy.isEmpty then c
    else
      let c := c.each busy fun c k =>
        let c := if (c.lane k).pendLink.isSome && (c.lane k).pendLink != some i then c.count (laneA k 9) else c
        c.modLane k fun l => { l with pendLink := some i, linkFirst := l.pend.isNone || l.linkFirst || l.pendAt / c.lanePeriod k == c.time.now / c.lanePeriod k }
      c.putBit (lnkA i 7) 4 true

/-- LINK_FADE_START (R288, R290): the fade of both lanes is occupied; code 7 for a change between FM members. -/
def Chip.fadeStart (c : Chip) (i : Nat) : Chip := match (c.follow i).change with
  | none => c
  | some x =>
    if !c.fadeDue i x || (c.fadeLanes i x).any (fun k => c.fadeBusy k) then c
    else
      let cs := if x.cs = 0 then c.time.now - c.outLat i else x.cs
      let c := c.clearPendLink i
      let c := c.each (c.fadeLanes i x) fun c k => c.modLane k fun l => { l with linkFade := true }
      let at_ := if x.cs = 0 then c.time.now else x.cs + c.outLat i
      let c := c.modAud i fun a => { a with phase := 2, at_ := at_, len := c.fadeLen i, eInc := 3000000 * c.incomingExtra i x }
      let c := (c.modFollow i fun f => { f with change := some { x with fading := true, cs := cs } }).setFState i 5
      if x.cs = 0 then c.fadeRec i 7 x.cause (c.follow i).current (some x.dst) cs else c

/-- The last of the fade's F samples has left (R289, R292). -/
def Chip.fadeOver (c : Chip) (i : Nat) (x : ChangeSt) : Bool := x.fading && decide ((c.follow i).aud.at_ + c.fadeCounts i ≤ c.time.now)

/-- LINK_FADE_END. -/
def Chip.fadeEnd (c : Chip) (i : Nat) : Chip := match (c.follow i).change with
  | some x => if c.fadeOver i x then c.completeChange i else c
  | none => c

/-- The incoming sample of a hard switch is due (R291): its lane gives output again, which has passed slot and port; the audio of a DAB or DRM target is the
host's. -/
def Chip.hardDue (c : Chip) (i : Nat) (x : ChangeSt) : Bool :=
  x.hard && (isDigital x.dst ||
    ((c.slot true (c.inSlot i x.lane)).lane == some x.lane && c.slotLaneRuns true x.lane && (c.lane x.lane).filled && (Tbl.find c.staged (laneA x.lane 1)).isNone &&
      decide (x.decided * 32000 + 3072 ≤ c.time.now) && decide ((c.lane x.lane).dsp.since + c.laneFill x.lane + 8192 + 3072 ≤ c.time.now)))

/-- HARD_SWITCH_RAMP_IN. -/
def Chip.hardRampIn (c : Chip) (i : Nat) : Chip := match (c.follow i).change with
  | some x => if c.hardDue i x then c.completeChange i else c
  | none => c

/-! Start, boundary, end. -/

/-- The instance starts (R284): members, the current member, its lanes and slots, e at LNK_PRELAG. -/
def Chip.followSetup (c : Chip) (i : Nat) : Chip :=
  let d := c.fDesc i
  let c := c.deriveMembers i
  let reach := ((c.follow i).members.filter fun x => x.2.kind == 0 && (c.memberWin x.2.kHz).isSome).map (·.1)
  let e := fEntry d
  let home := bits (c.galW e 7) 16 14
  let fm := if c.galKind e = 1 ∧ reach.contains home then some home else reach.head?
  let cur := match fm with | some k => some k | none => if c.galKind e = 1 then none else some (galKey e)
  let bgs := ((fLanes d).drop 1).map fun k => ({ lane := k, member := none, park := 0, since := none } : BgSt)
  let c := c.modFollow i fun f => { f with current := cur, anchor := fm, onAir := fOnAir d, bgs := bgs, slotCur := fSlotA d, slotFree := fSlotB d, changedAt := c.tick }
  let c := match fm.bind (c.member i) with
    | some m => (c.modMember i (fm.getD 0) fun m => { m with aligned := true, lag := 0 }).tuneLane (fOnAir d) m.kHz
    | none => c
  let c := c.modAud i fun _ => { LinkAud.reset with slot := fSlotA d, dig := fm.isNone }
  let c := if c.fLinking i then (c.put (lnkA i 0x0B) (c.field (lnkA i 2) 0 13 * 32768)).applySlotLane true (fSlotA d) (fOnAir d) else c
  let c := c.each (List.range bgs.length) fun c n => c.moveOn i n
  (c.setFState i 1).refreshFollow i

/-- A follow lane that is tuned and not running starts at the boundary (R273). -/
def Chip.startFollowLanes (c : Chip) (i : Nat) : Chip := match (c.follow i).job with
  | none => c
  | some j =>
    let tuned := (if (c.follow i).anchor.isSome then [(c.follow i).onAir] else []) ++ ((c.follow i).bgs.filter fun b => b.member.isSome).map (·.lane)
    c.each tuned fun c k =>
      if !(c.lane k).started && (c.lane k).job == some j && c.winRuns (c.laneWin k) && c.bankOk (c.laneBank k) then c.startLane k j 0x01 else c

/-- The programme has ramped in: the slot has run for e and 32 samples (R284). -/
def Chip.rampIn (c : Chip) (i : Nat) : Bool :=
  !c.fLinking i || c.digitalNow i ||
    decide (c.reg (lnkA i 0x0B) + ceilDiv (32 * 32768000) c.audRate ≤ (c.slot true (c.follow i).slotCur).ready * 32000)

/-- Scores, evidence and the standby at a boundary. -/
def Chip.watchMembers (c : Chip) (i : Nat) : Chip :=
  let f := c.follow i
  let q := match (c.lane f.onAir).meas with
    | some m => if c.digitalNow i then none else some (match f.q with | some q => smooth q m.mnr 3 | none => m.mnr)
    | none => f.q
  let c := c.modFollow i fun f => { f with q := q }
  let c := c.each (c.follow i).members fun c x =>
    let s := c.scoreOf i x.1 x.2
    let c := c.modMember i x.1 fun m => { m with score := s }
    let c := if x.2.kind ≠ 0 ∧ c.digitalOk x.2 then c.evidence i x.1 else c
    c.verify i x.1
  let below := match (f.current.bind (c.member i)).bind (·.score) with | some s => decide (s < 0) | none => false
  let sb := c.findStandby i
  let c := c.modFollow i fun f => { f with failTicks := if below then f.failTicks + 1 else 0, standby := sb, holdRuns := if sb = f.standby then f.holdRuns else 0 }
  match sb with
  | some k => match c.bgOn i k with
    | some b => if b.park = 0 then c else c.holdRun i k
    | none => c.holdRun i k
  | none => c

/-- A held instance at a tick boundary; `redo` where event 43 is raised. -/
def Chip.followTick (redo : Bool) (c : Chip) (i : Nat) : Chip := match (c.follow i).job.bind c.job? with
  | none => c
  | some x =>
    if x.state ≠ 2 then c
    else if (c.follow i).current.isNone then (c.followSetup i).startFollowLanes i
    else
      let c := if redo then c.deriveMembers i else c
      let c := (((c.visitMnr i).corrTick i).startFollowLanes i).watchMembers i
      let c := (c.coincide i).moveLags i
      let c := c.modFollow i fun f => { f with rearmed := false }
      let up := c.rampIn i && match (c.follow i).current.bind (c.member i) with | some m => m.verified | none => false
      let c := if c.fState i = 1 ∧ up then (c.modFollow i fun f => { f with rampedIn := true }).restState i else c
      let c := (c.triggers i).waitBank i
      let c := c.modFollow i fun f => { f with carrierLost := f.carrierLost && !(c.lane f.onAir).found }
      let c := c.each (List.range (c.follow i).bgs.length) fun c n => match (c.follow i).bgs[n]? with
        | some b => if b.member.isNone || (n == 1 && (c.follow i).standby.isSome && b.park == 0 && b.member != (c.follow i).standby) then c.moveOn i n else c
        | none => c
      (c.slewTick i).refreshFollow i

/-- Every instance at a boundary. -/
def Chip.followTicks (c : Chip) (redo : Bool) : Chip :=
  let c := c.each (List.range 8) (Chip.followTick redo)
  let clear : Nat × LaneSt → Nat × LaneSt := fun e => (e.1, { e.2 with voided := false, dsp := { e.2.dsp with corr := { e.2.dsp.corr with out := [] } } })
  { c with lanes := c.lanes.map clear }

/-- Event 33 on a lane (R286, Table 09-6): the current member's carrier, or that of the anchor while a DAB or DRM member is current. -/
def Chip.followCarrierLost (c : Chip) (k : Nat) : Chip :=
  c.each (List.range 8) fun c i =>
    let f := c.follow i
    if f.job.isNone || f.onAir != k then c
    else if c.digitalNow i then
      let loose : Nat × MemberSt → Nat × MemberSt := fun x => if x.2.kind = 0 then (x.1, { x.2 with aligned := false, prev := none, move := none }) else x
      c.modFollow i fun f => { f with anchor := none, members := f.members.map loose, hist := [], exs := [] }
    else c.modFollow i fun f => { f with carrierLost := true }

/-- The instance ends (R268): its slots are free again, its parameters read as without it, the followed bits clear. -/
def Chip.endFollow (c : Chip) (i : Nat) : Chip :=
  let f := c.follow i
  let ss := fSlots (c.fDesc i)
  let c := (c.dropPendLink i).releaseFade (f.onAir :: f.bgs.map fun b => b.lane)
  let es := fEntry (c.fDesc i) :: f.entries
  let c := c.modFollow i fun _ => FollowSt.reset
  let c := c.each ss fun c s => c.applySlotLane true s 0xFF
  let c := c.each [6, 7, 8, 9, 10, 11, 12, 13, 14] fun c o => c.unput (lnkA i o)
  c.followedBits es.eraseDups

end Sys2Proof.Machine
end

