-- ==== Sys2Proof/Machine/SwatchBody.lean ====
section
/-! DEFINITION. What the measurements of an interval give: field strength, SNR, and the Swatch bodies (R308 to R317, Tables 10-4 to 10-8). -/

namespace Sys2Proof.Machine

/-! Sums and means. -/

/-- 10^(2^b / 10,000) in 2^-48, by `b`. -/
def pow10Table : List Nat :=
  [281539796181529, 281604630579356, 281734344169620, 281993950624886, 282513881405431, 283556620625667, 285653659306634, 289894377215455,
   298565616465170, 316693968241663, 356319665402265, 451065687742805, 722836029818871, 1856264212578323, 12241645304197212, 532402139277272297,
   1007023932356134029084, 3602796995274145802670983166, 46114742919046184159927712778518139541264]

/-- The power ratio of `x` thousandths of a decibel, in 2^-48. -/
def pow10 (x : Nat) : Nat :=
  ((List.range 19).zip pow10Table).foldl (fun a e => if x.testBit e.1 then (a * e.2 + 2 ^ 47) / 2 ^ 48 else a) (2 ^ 48)

def sumInt (l : List Int) : Int := l.foldl (· + ·) 0

/-- A quotient to the nearest integer. -/
def divNear (a : Int) (n : Nat) : Int := (2 * a + n) / (2 * n : Nat)

/-- The mean of a list, to nearest; none of none. -/
def meanOf (l : List Int) : Option Int := if l.isEmpty then none else some (divNear (sumInt l) l.length)

def maxOf : List Int → Option Int
  | [] => none
  | x :: l => some (l.foldl max x)

def minOf : List Int → Option Int
  | [] => none
  | x :: l => some (l.foldl min x)

/-- The linear mean of levels in 10^-`s` dB (`s` 1 or 2), from -327 dB up: the mean power as a level in the same unit (R308). -/
def meanLevel (s : Nat) (l : List Int) : Option Int :=
  if l.isEmpty then none
  else
    let step : Int := (10 ^ (3 - s) : Nat)
    let low : Int := -(327 * (10 ^ s : Nat)) - 99
    some (logRatio (10 ^ (s + 1)) (sumList (l.map fun x => pow10 ((x - low) * step).toNat)) (l.length * 2 ^ 48) + low)

/-- The ticks that a list of measurements covers. -/
def SwtPoint.tick (p : SwtPoint) : Nat := p.time / 32000
def ticksOf (l : List SwtPoint) : List Nat := (l.map SwtPoint.tick).eraseDups

/-- The measurements by tick. -/
def byTick (l : List SwtPoint) : List (List SwtPoint) := (ticksOf l).map fun t => l.filter fun p => p.tick == t

/-! The measurements of each kind. -/

def lanesIn (l : List SwtPoint) : List (Smp × Nat × Nat) := l.filterMap fun p => match p with | .lane _ y a b => some (y, a, b) | _ => none
def frontsIn (l : List SwtPoint) : List (Nat × Nat × Nat) := l.filterMap fun p => match p with | .front _ a b c => some (a, b, c) | _ => none
def mpxIn (l : List SwtPoint) : List Int := l.filterMap fun p => match p with | .mpx _ m => some m | _ => none
def fmIn (l : List SwtPoint) : List (Bool × LaneAcc × Int) := l.filterMap fun p => match p with | .fm _ k a f => some (k, a, f) | _ => none
def rdsIn (l : List SwtPoint) : List Nat := l.filterMap fun p => match p with | .rds _ s => some s | _ => none
def amIn (l : List SwtPoint) : List (Int × Int × Int) := l.filterMap fun p => match p with | .am _ v c i => some (v, c, i) | _ => none
def loopsIn (l : List SwtPoint) : List (Bool × Int) := l.filterMap fun p => match p with | .amTick _ k f => some (k, f) | _ => none
def detsIn (l : List SwtPoint) : List (Nat × Nat × Nat) := l.filterMap fun p => match p with | .det _ a b c => some (a, b, c) | _ => none
/-- State, Σ|z|², Σ|e|² of the DAB frames. -/
def ensIn (l : List SwtPoint) : List (Nat × Nat × Nat) := l.filterMap fun p => match p with | .ens _ st s e _ _ _ _ => some (st, s, e) | _ => none
/-- State, MER and WMER sums, offset of the DRM frames. -/
def drmIn (l : List SwtPoint) : List (Nat × (Nat × Nat) × (Nat × Nat) × Int) := l.filterMap fun p => match p with | .drm _ st m w f => some (st, m, w, f) | _ => none
def blocksIn (kind : Nat) (l : List SwtPoint) : List Bool := l.filterMap fun p => match p with | .block _ k ok => if k = kind then some ok else none | _ => none
def feIn (l : List SwtPoint) : List (Int × Int × Nat × Nat) := l.filterMap fun p => match p with | .fe _ r k n s => some (r, k, n, s) | _ => none
def linksIn (l : List SwtPoint) : List (Bool × Int) := l.filterMap fun p => match p with | .link _ i r => some (i, r) | _ => none

/-! Fields (R308). -/

/-- A signed 16-bit field, 0x8000 for no data. -/
def field16 (v : Option Int) : List Byte := le 2 (match v with | some x => satSigned 16 x | none => 0x8000)

/-- A count of 16 bits. -/
def count16 (n : Nat) : List Byte := le 2 (min 0xFFFF n)

/-- A signed 32-bit field; `w` where there is no data, for which the manual gives no code. -/
def field32 (w : Word) (v : Option Int) : List Byte := le 4 (match v with | some x => satSigned 32 x | none => w.toNat)

/-! Field strength and SNR. -/

/-- FS in 0.1 dBµV EMF of branch `branch` (0 the primary) of a carrier (R309, R310): channel power with the calibrated attenuation of each sample, 123.01 dB,
less the calibrated gain, with the correction, and on a combining lane the branch's share of the front's power. -/
def Chip.fsOf (c : Chip) (d : List Byte) (branch : Nat) (l : List SwtPoint) : Option Int := match (c.feedingFes d)[branch]? with
  | none => none
  | some f =>
    let k : Int := 123010 - (c.reg (0xA16 + 0x10 * f) : Int) + 10 * c.int (0xB10 + f) 16
    let ys := lanesIn l
    let e := sumList (ys.map fun y => Smp.power y.1 * pow10 (if branch = 0 then y.2.1 else y.2.2))
    let fr := frontsIn l
    let share : Nat × Nat := if c.laneCombines (hLane (dHandle d)) then (sumList (fr.map fun x => if branch = 0 then x.1 else x.2.1), sumList (fr.map (·.2.2))) else (1, 1)
    let num := e * share.1 * pow10 k.toNat
    let den := ys.length * 32767 * 32767 * share.2 * 2 ^ 48 * pow10 (-k).toNat
    if num = 0 ∨ den = 0 then none else some (logRatio 100 num den)

/-- Square root of any size, rounded down. -/
def rootBig (x : Nat) : Nat := isqrtN (x.log2 / 2 + 1) x 0

/-- S and N of a tick by the moments of the channel FIR output, in 2^-16; none where N is not above 0 (Table 10-4). -/
def momentSn (l : List SwtPoint) : Option (Nat × Nat) :=
  let ps := (lanesIn l).map fun y => Smp.power y.1
  let n := ps.length
  let m2 := sumList ps
  let s := rootBig (2 * m2 * m2 - n * sumList (ps.map fun p => p * p))
  if m2 ≤ s then none else some (s * 65536 / n, (m2 - s) * 65536 / n)

/-- S = c² and N = 2 var(Im z) of a tick of an AM lane, in 2^-16; none where the loop is unlocked (Table 10-4). -/
def loopSn (l : List SwtPoint) : Option (Nat × Nat) :=
  let a := amIn l
  let n := a.length
  let c := sumList (a.map fun x => x.2.1.natAbs * x.2.1.natAbs)
  let q := sumInt (a.map (·.2.2))
  let qq := sumList (a.map fun x => x.2.2.natAbs * x.2.2.natAbs)
  if n = 0 ∨ !(loopsIn l).any (·.1) then none else some (c / (n * 65536), 2 * (n * qq - q.natAbs * q.natAbs) * 65536 / (n * n))

/-- Pooled signal-to-noise ratio, 0.1 dB. -/
def pooled (l : List (Nat × Nat)) : Option Int := merOf (sumList (l.map (·.1))) (sumList (l.map (·.2)))

/-- SNR (R311), 0.1 dB, by the method of the lane's demodulator. -/
def Chip.snrOf (c : Chip) (d : List Byte) (l : List SwtPoint) : Option Int :=
  let o := c.laneOption (hLane (dHandle d))
  if o = 0x01 ∨ o = 0x30 then pooled ((byTick l).filterMap momentSn)
  else if o = 0x10 then pooled (((ensIn l).filter fun e => e.1 == 4).map (·.2))
  else if 0x20 ≤ o ∧ o ≤ 0x22 then pooled (((drmIn l).filter fun e => e.1 == 4).map (·.2.1))
  else pooled ((byTick l).filterMap loopSn)

/-- B_n of the active bank in Hz (R311); `w` where the coefficients sum to zero, for which the manual states none. -/
def Chip.noiseBand (c : Chip) (k : Nat) (w : Word) : Nat :=
  let b := c.laneBank k
  let h := (List.range (c.bankT b)).map fun i => toSigned 18 (c.pal (b * 128 + i)).toNat
  let s := (sumInt h).natAbs
  let p := c.lanePeriod k
  if s = 0 then w.toNat else (2 * 32768000 * sumList (h.map fun x => x.natAbs * x.natAbs) + p * s * s) / (2 * p * s * s)

/-! Bodies. -/

/-- Bytes 8 on of a Level Swatch (Table 10-5). -/
def Chip.levelBody (c : Chip) (d : List Byte) (w : Word) (l : List SwtPoint) : List Byte :=
  let k := hLane (dHandle d)
  let each := (byTick l).filterMap (c.fsOf d 0)
  field16 (c.fsOf d 0 l) ++ field16 (minOf each) ++ field16 (maxOf each) ++ field16 (if c.laneCombines k then c.fsOf d 1 l else none) ++ field16 (c.snrOf d l) ++
    [0, 0] ++ le 4 (c.noiseBand k w)

/-- Peak deviation of a multiplex sample m, m times 3.90625 Hz, in 0.1 kHz (R313). -/
def deviation (m : Nat) : Nat := (m * 390625 + 5000000) / 10000000

/-- The 99.9 % deviation in 0.1 kHz: the smallest multiple of 0.5 kHz, 128 steps of the multiplex, that no more than 0.1 % of the samples exceed (R313). -/
def deviationMost (l : List Int) : Nat :=
  5 * ((List.range 258).find? fun b => decide (1000 * (l.filter fun m => decide (128 * b < m.natAbs)).length ≤ l.length)).getD 257

/-- MPX power in 0.1 dBr (R313). -/
def mpxPower (l : List Int) : Option Int :=
  merOf (2 * 15625 * sumList (l.map fun m => m.natAbs * m.natAbs)) (l.length * 361000000 * 1024)

/-- RDS blocks expected in `t` covered ticks: one in 21.894737 ms, 26 bits at 1,187.5 b/s (R313). -/
def rdsExpected (t : Nat) : Nat := t * 23750 / 532480

/-- An adjacent-channel indicator: the linear mean of the ticks' ratios, signed, 0.5 dB (R141). -/
def adjacentMean (low : Int) (l : List (Nat × Nat)) : Byte :=
  b8 (satSigned 8 (max low (bandRatio (sumList (l.map fun x => x.1 * 2 ^ 32 / x.2)) (l.length * 2 ^ 32))))

/-- MNR from the linear mean of N, 0.1 dB, 0 to 100 dB (R139). -/
def mnrMean (l : List LaneAcc) : Option Int :=
  let n := sumList (l.map fun a => a.noise * 65536 / a.n)
  if l.isEmpty then none else if n = 0 then some 1000 else some (clampInt 0 1000 (logRatio 100 (19200 * 19200 * 65536 * l.length) (2 * n)))

/-- Bytes 8 on of an FM Swatch (Table 10-6). -/
def Chip.fmBody (c : Chip) (d : List Byte) (covered : Nat) (l : List SwtPoint) : List Byte :=
  let ms := mpxIn l
  let ts := fmIn l
  let accs := (ts.map (·.2.1)).filter fun a => a.n != 0
  let locked := ts.filter (·.1)
  let low : Int := if c.laneMin (hLane (dHandle d)) then -84 else -128
  let blocks := rdsIn l
  let good := (blocks.filter fun s => s != 2).length
  let fixed := (blocks.filter fun s => s == 1).length
  count16 (deviation (ms.foldl (fun (a : Nat) m => max a m.natAbs) 0)) ++ count16 (deviationMost ms) ++ field16 (mpxPower ms) ++
    count16 ((meanOf (locked.map fun t => (pilotLevel t.2.1.n t.2.1.pilotI t.2.1.pilotQ : Int))).getD 0).toNat ++
    field16 (meanOf (locked.map fun t => (t.2.2 - word19k) * 25600000 / (2 ^ 32 : Nat))) ++ field16 (mnrMean accs) ++
    count16 ((meanOf (accs.map fun a => (multipath a : Int))).getD 0).toNat ++
    [adjacentMean low (accs.map fun a => (a.bands.1, a.bands.2.1)), adjacentMean low (accs.map fun a => (a.bands.2.2, a.bands.2.1))] ++
    count16 (rdsExpected covered) ++ count16 (rdsExpected covered - good) ++ count16 fixed ++ count16 locked.length

/-- Bytes 8 on of an AM Swatch (Table 10-7). -/
def amBody (l : List SwtPoint) : List Byte :=
  let vs := (amIn l).map (·.1)
  let mille := fun (v : Int) => divNear (v * 1000) 32767
  let locked := (loopsIn l).filter (·.1)
  count16 (mille ((maxOf vs).getD 0)).toNat ++ count16 (mille (-((minOf vs).getD 0))).toNat ++
    count16 (rootNear (sumList (vs.map fun v => v.natAbs * v.natAbs) * 1000000 / (vs.length * 32767 * 32767))) ++
    field16 (meanOf (locked.map fun t => t.2 * 640000 / (2 ^ 32 : Nat))) ++ count16 locked.length ++ [0, 0]

/-- Bytes 8 on of a DAB Swatch (Table 10-8). -/
def dabBody (w : Word) (l : List SwtPoint) : List Byte :=
  let fs := ensIn l
  let fibs := blocksIn 0 l
  let misses := (l.filter fun p => match p with | .ens _ st _ _ ok _ _ _ => !ok && decide (4 ≤ st) | _ => false).length
  let paths := (l.findSome? fun p => match p with | .ens _ _ _ _ _ q _ _ => some q | _ => none).getD 0
  let sro := meanOf (l.filterMap fun p => match p with | .ens _ _ _ _ _ _ s _ => some s | _ => none)
  let cfo := meanOf (l.filterMap fun p => match p with | .ens _ _ _ _ _ _ _ f => some f | _ => none)
  field16 (pooled (fs.map (·.2))) ++ field16 (minOf (fs.filterMap fun f => merOf f.2.1 f.2.2)) ++ count16 fs.length ++ count16 (fs.filter fun f => f.1 == 4).length ++
    count16 (fibs.filter id).length ++ count16 (fibs.filter not).length ++ count16 misses ++ count16 (bits paths 0 16) ++ count16 (bits paths 16 16) ++
    field16 sro ++ field32 w cfo

/-- The RMS delay spread in 0.01 µs over the taps within `thr` of the strongest (R317), 48.828125 to a tap. -/
def delaySpread (thr first : Nat) (taps : List Nat) : Nat :=
  let m := maxNat taps
  let on := ((List.range taps.length).zip taps).filter fun e => levelWithin thr e.2 m
  let late := fun (i : Nat) => (i + 2048 + 16 - first) % 2048
  let a := sumList (on.map (·.2))
  let b := sumList (on.map fun e => e.2 * late e.1)
  let q := sumList (on.map fun e => e.2 * late e.1 * late e.1)
  (2 * 3125 * rootBig (q * a - b * b) + 64 * a) / (2 * 64 * a)

/-- A tap's power below the strongest in 0.5 dB; 255 for 127.5 dB or more (R317). -/
def tapByte (m p : Nat) : Byte := b8 (if p = 0 then 255 else min 255 (logRatio 20 m p).toNat)

/-- Bytes 8 on of a DAB CIR Swatch (R317), from the last average of the interval; zeros without one. -/
def Chip.cirBody (c : Chip) (d : List Byte) (l : List SwtPoint) : List Byte :=
  let thr := match c.ensOf (hLane (dHandle d)) with | some e => c.reg (dabA e 7) | none => 0
  match l.findSome? fun p => match p with | .cir _ n taps => some (n, taps) | _ => none with
  | none => List.replicate 520 0
  | some (n, taps) =>
    let first := firstPath thr taps
    let m := maxNat taps
    le 2 first ++ le 2 (argMax taps).1 ++ count16 (delaySpread thr first taps) ++ [b8 n, 0] ++
      (List.range 512).map fun i => tapByte m (taps.getD ((first + 2048 - 16 + i) % 2048) 0)

/-- Bytes 8 on of a DAB TII Swatch (Table 10-7). -/
def tiiBody (l : List SwtPoint) : List Byte :=
  let ms := l.filterMap fun p => match p with | .tii _ e => some e | _ => none
  (((ms.head?.getD []) ++ List.replicate 8 0).take 8 |>.map (le 4)).flatten ++ count16 ms.length ++ [0, 0]

/-- Bytes 8 on of a DRM Swatch (Table 10-7). -/
def drmBody (w : Word) (l : List SwtPoint) : List Byte :=
  let fs := drmIn l
  let good := fun (k : Nat) => count16 ((blocksIn k l).filter id).length ++ count16 ((blocksIn k l).filter not).length
  field16 (pooled (fs.map (·.2.1))) ++ field16 (pooled (fs.map (·.2.2.1))) ++ field16 (minOf (fs.filterMap fun f => merOf f.2.2.1.1 f.2.2.1.2)) ++
    count16 fs.length ++ count16 (fs.filter fun f => f.1 == 4).length ++ good 1 ++ good 2 ++ [0, 0] ++ field32 w (meanOf (fs.map (·.2.2.2)))

/-- Bytes 8 on of a Detector Swatch (Table 10-7): RMS mean, peak max, envelope min and max of each set, over the ticks with a reading. -/
def detBody (l : List SwtPoint) : List Byte :=
  let ds := detsIn l
  let part := fun (f : Nat × Nat × Nat → Nat) => ((ds.map f).filter fun v => v != 0x8000).map (toSigned 16)
  let set_ := fun (f e : Nat × Nat × Nat → Nat) =>
    field16 (meanLevel 2 (part fun x => bits (f x) 0 16)) ++ field16 (maxOf (part fun x => bits (f x) 16 16)) ++ field16 (minOf (part e)) ++ field16 (maxOf (part e))
  set_ (fun x => x.1) (fun x => bits x.2.2 0 16) ++ set_ (fun x => x.2.1) (fun x => bits x.2.2 16 16)

/-- Bytes 8 on of a Front-end Swatch (Table 10-7). -/
def feBody (l : List SwtPoint) : List Byte :=
  let fs := feIn l
  let ovls := (l.filter fun p => match p with | .feOvl _ => true | _ => false).length
  let steps := (l.filter fun p => match p with | .feStep _ => true | _ => false).length
  field16 (meanLevel 2 (fs.map (·.1))) ++ field16 (maxOf (fs.map (·.2.1))) ++ count16 ovls ++ count16 steps ++ le 4 (min 0xFFFFFFFF (sumList (fs.map (·.2.2.1)))) ++
    [b8 (fs.foldl (fun (a : Nat) f => max a f.2.2.2) 0), 0, 0, 0]

/-- The 10th percentile by rank: the lowest value that at least a tenth of the values reach down to. -/
def percentile10 (l : List Int) : Option Int :=
  minOf (l.filter fun v => decide (l.length ≤ 10 * (l.filter fun u => decide (u ≤ v)).length))

/-- Bytes 8 on of a Studio-link noise floor Swatch (R315, Table 10-7). -/
def Chip.linkBody (c : Chip) (l : List SwtPoint) : List Byte :=
  let ts := linksIn l
  let idle := (ts.filter (·.1)).map (·.2)
  le 4 ((c.reg 0xD02 + 500) / 1000) ++ field16 (meanLevel 1 idle) ++ field16 (percentile10 idle) ++ field16 (maxOf idle) ++
    count16 idle.length ++ count16 (ts.length - idle.length) ++ [if c.field 0xD01 5 2 = 1 then 1 else 0, 0]

/-- The body after the prefix. -/
def Chip.swtContent (c : Chip) (d : List Byte) (w : Word) (covered : Nat) (l : List SwtPoint) : List Byte :=
  let ty := mType d
  if ty = 0x40 then c.levelBody d w l else if ty = 0x41 then c.fmBody d covered l else if ty = 0x42 then amBody l else if ty = 0x43 then dabBody w l
  else if ty = 0x44 then c.cirBody d l else if ty = 0x45 then tiiBody l else if ty = 0x46 then drmBody w l else if ty = 0x47 then detBody l
  else if ty = 0x48 then feBody l else c.linkBody l

/-- The quality figure of a coverage log entry (Table 10-10). -/
def Chip.swtQuality (c : Chip) (d : List Byte) (l : List SwtPoint) : Option Int :=
  let ty := mType d
  if ty = 0x40 then c.snrOf d l else if ty = 0x41 then mnrMean (((fmIn l).map (·.2.1)).filter fun a => a.n != 0)
  else if ty = 0x43 then pooled ((ensIn l).map (·.2)) else pooled ((drmIn l).map (·.2.2.1))

/-- The measurement counts as delivered to a Swatch of type `ty` (Table 10-3): its own samples, frames or idle ticks. -/
def SwtPoint.covers (ty : Nat) : SwtPoint → Bool
  | .lane .. => ty == 0x40
  | .mpx .. | .am .. | .det .. | .cir .. | .tii .. | .drm .. | .fe .. => ty != 0x40
  | .ens .. => ty == 0x43
  | .link _ idle _ => idle
  | _ => false

/-- The demodulator was out of sync in a covered tick: an ensemble or channel not in state 4, an AM loop unlocked (Table 10-3). -/
def SwtPoint.unsynced : SwtPoint → Bool
  | .ens _ st .. => st != 4
  | .drm _ st .. => st != 4
  | .amTick _ locked _ => !locked
  | _ => false

end Sys2Proof.Machine
end

