-- ==== Sys2Proof/Machine/Swatch.lean ====
section
/-! DEFINITION. Measurement intervals, Swatch records and the coverage log (R297 to R322). -/

namespace Sys2Proof.Machine

/-! The object of a measurement job. -/

/-- The object runs (R17, R307). -/
def Chip.objRuns (c : Chip) (x : Job) : Bool :=
  x.state == 2 && !c.descStopped x.desc && (hLevel (dHandle x.desc) != 3 || c.laneRuns (hLane (dHandle x.desc)))

/-- Sum of the generations of the measured lane, its windows and its front ends (R306). -/
def Chip.objGens (c : Chip) (d : List Byte) : Nat :=
  let h := dHandle d
  let k := hLane h
  let fe := sumList ((c.feedingFes d).map fun f => Tbl.get 0 c.gens f)
  if hLevel h = 3 then
    let win := fun (w : Nat) => if w ≤ 11 then c.reg (winA w 3) else 0
    c.reg (laneA k 6) + win (c.laneWin k) + (if c.laneCombines k then win (c.laneWin2 k) else 0) + fe
  else if h = handleBlock 0x0D then c.reg 0xD3D
  else fe

/-- FE_ATTN of the feeding front ends. -/
def Chip.attnOf (c : Chip) (d : List Byte) : List Nat := (c.feedingFes d).map fun f => c.reg (feA f 3)

def Chip.swt (c : Chip) (j : Nat) : SwtSt := Tbl.get SwtSt.reset c.swts j
def Chip.setSwt (c : Chip) (j : Nat) (x : SwtSt) : Chip := { c with swts := Tbl.set SwtSt.reset c.swts j x }

/-! Intervals (R301 to R307). -/

/-- The measurement jobs held. -/
def Chip.swtJobs (c : Chip) : List (Nat × Job) := c.jobs.filter fun e => dKind e.2.desc == 5

/-- An interval starts now. -/
def Chip.swtStart (c : Chip) (j : Nat) (d : List Byte) : Chip :=
  let l := c.attnOf d
  c.setSwt j { c.swt j with running := true, start := c.time.now, unit := c.reg 0xB04, genv := (c.swt j).genv || (c.swt j).unit != c.reg 0xB04, gens := c.objGens d, steps := c.time.steps, stopped := false, clipped := false, data := [],
                            attnMin := l.foldl min 0xFF, attnMax := if l.isEmpty then 0xFF else l.foldl max 0 }

/-- The causes of an interval that ends now (R306). -/
def Chip.swtCauses (c : Chip) (d : List Byte) (x : SwtSt) : Nat :=
  let link := dHandle d == handleBlock 0x0D
  let fes := c.feedingFes d
  (if c.coastFlag (if link then [1, 2] else [0, 1]) x.start = 0 then 0 else 1) + (if c.calFlag fes x.start = 0 ∧ (hLevel (dHandle d) ≠ 3 ∨ c.injFlag (hLane (dHandle d)) x.start = 0) then 0 else 2) + (if x.clipped then 4 else 0) +
    (if c.objGens d = x.gens then 0 else 8) + (if x.stopped then 16 else 0) + (if fes.any fun f => !c.ladderOk f then 32 else 0)

/-- The running interval ends now; its Swatch is due. -/
def Chip.swtClose (c : Chip) (j : Nat) (d : List Byte) : Chip :=
  let x := c.swt j
  let causes := c.swtCauses d x
  let e : SwtEnd := { start := x.start, stop := c.time.now, data := x.data, ticks := min 0xFFFF ((c.time.now - x.start + 16000) / 32000), causes := causes, attnMin := x.attnMin, attnMax := x.attnMax,
                      genv := x.genv || causes.testBit 3, disc := decide (x.steps ≠ c.time.steps) }
  c.setSwt j { x with running := false, genv := false, data := [], ended := x.ended ++ [e] }

/-- At a boundary of the interval series: the interval ends, and the next starts where the object runs (R307). -/
def Chip.swtBoundary (c : Chip) (j : Nat) (y : Job) : Chip :=
  let c := if (c.swt j).running then c.swtClose j y.desc else c
  if c.objRuns y then c.swtStart j y.desc else c

/-- Clipped samples at connector times `ts` mark the intervals that contain them (R55). -/
def SwtSt.clip (x : SwtSt) (ts : List Nat) : SwtSt :=
  { x with clipped := x.clipped || (x.running && ts.any fun t => decide (x.start ≤ t))
           ended := x.ended.map fun e => if ts.any fun t => decide (e.start ≤ t) && decide (t < e.stop) then { e with causes := e.causes ||| 4 } else e }

/-- The tick that ends counts in the intervals: clipping, attenuation, a stopped object, a generation step of the unit. -/
def Chip.swtNote (c : Chip) (ms : List FeMeas) (j : Nat) (y : Job) : Chip :=
  let fes := c.feedingFes y.desc
  let clips := ((ms.filter fun m => fes.contains m.fe).map fun m => m.clips.map fun t => t - 2).flatten
  let c := if clips.isEmpty then c else c.setSwt j ((c.swt j).clip clips)
  let x := c.swt j
  if !x.running then c
  else if x.unit ≠ c.reg 0xB04 then c.setSwt j { x with running := false, genv := true, data := [] }
  else
    let l := c.attnOf y.desc
    c.setSwt j { x with attnMin := l.foldl min x.attnMin, attnMax := if l.isEmpty then x.attnMax else if x.attnMax = 0xFF then l.foldl max 0 else l.foldl max x.attnMax,
                        stopped := x.stopped || !c.objRuns y }

/-- Measurement jobs at a tick boundary (R301 to R303): an unaligned series has its boundaries at multiples of I; a step of studio
time ends an interval here. -/
def Chip.swtTick (c : Chip) (ms : List FeMeas) : Chip :=
  c.each c.swtJobs fun c e =>
    let c := c.swtNote ms e.1 e.2
    let x := c.swt e.1
    let onGrid := !(mAlign e.2.desc && x.aligned) && c.tick % mInterval e.2.desc == 0
    if onGrid || (x.running && x.steps != c.time.steps) then c.swtBoundary e.1 e.2 else c

/-- Aligned measurement jobs at a TICK pulse (R302) whose UTC seconds count is `sec`. -/
def Chip.swtSecond (c : Chip) (sec : Nat) : Chip :=
  if c.reg 0x233 < 2 then c
  else c.each (c.swtJobs.filter fun e => mAlign e.2.desc) fun c e =>
    let first := !(c.swt e.1).aligned
    let c := c.setSwt e.1 { c.swt e.1 with aligned := true }
    if first || sec % (mInterval e.2.desc / 1024) == 0 then c.swtBoundary e.1 e.2 else c

/-! The coverage log (R319 to R321). -/

/-- WR - RD, modulo 2^32. -/
def Chip.logFill (c : Chip) : Nat := (c.reg 0xB08 + 2 ^ 32 - c.reg 0xB09) % 2 ^ 32

/-- The fill has changed: SWT_LOG_FILL, SWT_LOG_PEAK, event 47 with its hysteresis. -/
def Chip.logChanged (c : Chip) : Chip :=
  let n := c.logFill
  let hw := c.reg 0xB0B
  let c := c.put 0xB0A n
  let c := if c.reg 0xB0E < n then c.put 0xB0E n else c
  if c.swtHigh then (if 10 ≤ hw ∧ 100 * n < (hw - 10) * 32768 then { c with swtHigh := false } else c)
  else if hw * 32768 ≤ 100 * n then { c with swtHigh := true }.raise 47 (handleBlock 0x0B) n
  else c

/-- Put an entry's four words at index n mod 32,768. -/
def Chip.logPut (c : Chip) (n : Nat) (bytes : List Byte) : Chip :=
  c.each (List.range 4) fun c w => { c with swtLog := Tbl.set 0 c.swtLog (4 * (n % 32768) + w) (w32 (leAt bytes (4 * w) 4)) }

/-- Write one coverage log entry; a full ring overwrites its oldest entry, or discards the new one. -/
def Chip.logWrite (c : Chip) (bytes : List Byte) : Chip :=
  let full := decide (32768 ≤ c.logFill)
  if full ∧ c.reg 0xB0C = 1 then c.count 0xB0D
  else
    let c := if full then (c.put 0xB09 ((c.reg 0xB09 + 1) % 2 ^ 32)).count 0xB0D else c
    ((c.logPut (c.reg 0xB08) bytes).put 0xB08 ((c.reg 0xB08 + 1) % 2 ^ 32)).logChanged

/-- `v` lies from RD to WR in the direction of counting (R320). -/
def Chip.logRdOk (c : Chip) (v : Nat) : Bool := decide ((v + 2 ^ 32 - c.reg 0xB09) % 2 ^ 32 ≤ c.logFill)

/-- SWT_LOG_RD_WRITE. -/
def Chip.wrLogRd (c : Chip) (v : Nat) : WRes := if c.logRdOk v then (c.stage 0xB09 v).yes else c.no rBad

/-- SWT_LOG_RD comes into force; entries overwritten meanwhile are released already. -/
def Chip.applyLogRd (c : Chip) (v : Nat) : Chip := if c.logRdOk v then (c.put 0xB09 v).logChanged else c

/-! The Swatch of an interval. -/

/-- The signal path and the demodulators have passed the end of an interval (R301): what it measures is complete. -/
def Chip.swtComplete (c : Chip) (d : List Byte) (stop : Nat) : Bool :=
  let k := hLane (dHandle d)
  let b := c.time.now - c.time.now % 32000
  if hLevel (dHandle d) != 3 || !c.laneRuns k then decide (stop ≤ b)
  else decide (stop ≤ c.laneStamp k 128 b) && (match c.ensOf k with | some e => decide (c.ensState e < 3) || decide (stop ≤ c.frameRef e) | none => true)

/-- SWATCH_INTERVAL_END (R304 to R319): the Swatch of the interval that ended first, as a record, as a log entry, or both, once it is complete. -/
def Chip.swatchEnd (c : Chip) (j : Nat) : Chip := match c.job? j, (c.swt j).ended with
  | some y, e :: rest =>
    let d := y.desc
    if !c.swtComplete d e.stop then c
    else
      let ty := mType d
      let covered := (ticksOf (e.data.filter (SwtPoint.covers ty))).length
      let c := c.setSwt j { c.swt j with ended := rest }
      let valid := decide (covered ≠ 0) && (if ty = 0x48 then e.causes &&& 0x3B == 0 else e.causes == 0)
      let c := c.count 0xB01
      let c := if valid then c else c.count 0xB02
      let h := if hLevel (dHandle d) = 3 then c.handleLaneAt (hLane (dHandle d)) e.start else dHandle d
      let branch := hLevel (dHandle d) == 3 && c.laneCombines (hLane (dHandle d))
      let status := (if valid then 1 else 0) + (if e.data.any SwtPoint.unsynced then 2 else 0) + (if branch && ty == 0x40 then 4 else 0)
      let (w, c) := c.freeWord
      let body := count16 e.ticks ++ count16 covered ++ [b8 e.causes, b8 status, b8 e.attnMin, b8 e.attnMax] ++ c.swtContent d w covered e.data
      let flags := (if e.causes.testBit 0 then 0x01 else 0) + (if e.causes.testBit 1 then 0x80 else 0) + (if e.genv then 0x40 else 0) + (if e.disc then 0x10 else 0)
      let c := if mRecords d then c.produce { ty := ty, handle := h, ts := e.start, ref := e.start, body := body, job := some j, flags := flags } else c
      if mLog d then
        c.logWrite (le 6 (e.start % 2 ^ 48) ++ [b8 ty, b8 (e.causes + (if valid then 128 else 0))] ++ le 4 h ++ field16 (c.fsOf d 0 e.data) ++ field16 (c.swtQuality d e.data))
      else c
  | _, _ => c

end Sys2Proof.Machine
end

