-- ==== Sys2Proof/Machine/Calibration.lean ====
section
/-! DEFINITION. Self-calibration: spare passes and handovers, the gain ladder, the reference rate, the output sense fits (R388 to R403). -/

namespace Sys2Proof.Machine

/-! Records and rejections. -/

/-- A calibration record (R401). -/
def Chip.calRecord (c : Chip) (block outcome : Nat) (body : List Byte) : Chip :=
  c.system 0x04 (handleBlock 0x0C) c.time.now ([b8 block, b8 outcome] ++ le 2 (c.reg 0xA05) ++ (body ++ List.replicate 10 0).take 10 ++ [0, 0])

/-- Event 20, CAL_REJECT_CNT and the record of a rejection (R389, R394). -/
def Chip.calReject (c : Chip) (block : Nat) (body : List Byte) : Chip := ((c.raise 20 (handleBlock 0x0C) block).count 0xA0A).calRecord block 1 body

/-- No calibration step runs while the SPLL or the CPLL is not locked (R402). -/
def Chip.calLoops (c : Chip) : Bool := c.reg 0x200 == 2 && c.reg 0x210 == 2

/-- A Sketch calibration glimpse is in progress (R392). -/
def Chip.calGlimpse (c : Chip) : Bool := c.glimpses.any fun e => e.2.active && e.2.kind == 6

/-! The spare sub-converter (R389 to R392). -/

def calAdcA (a off : Nat) : Nat := 0xA30 + 0x10 * a + off

/-- A coefficient word: offset in 1/16 LSB, gain in 2^-16, skew in 10 fs (Table 13-3), from 0.001 LSB, ppm and fs. -/
def coefWord (off gain skew : Int) : Nat :=
  satSigned 10 ((2 * 16 * off + 1000) / 2000) + 2 ^ 10 * satSigned 12 ((2 * 65536 * gain + 1000000) / 2000000) + 2 ^ 22 * satSigned 10 ((2 * skew + 10) / 20)

/-- CAL_ADCx_STATE. -/
def Chip.adcCalState (c : Chip) (a : Nat) : Chip := c.put (calAdcA a 0) (c.reg (feA a 0x40) % 8 + (if (c.adc a).okSubs = 31 then 8 else 0))

/-- SPARE_PASS_DONE: a pass of four turns, offset in 0.001 LSB, gain in ppm, skew in fs. Two consecutive passes within 0.25 LSB,
0.01 % and 20 fs are accepted with their mean; in a calibration glimpse the offset alone. -/
def Chip.spareDone (c : Chip) (a : Nat) (off gain skew : Int) : Chip :=
  let sp := c.reg (feA a 0x40)
  if 1 < a || sp == 7 || (c.adc a).accepted || !c.adcRuns a then c
  else if !c.calLoops then c.modAdc a fun x => { x with prevPass := none }
  else match (c.adc a).prevPass with
    | none => c.modAdc a fun x => { x with prevPass := some (off, gain, skew) }
    | some (o, g, s) =>
      let only := c.calGlimpse
      let ok := decide ((off - o).natAbs ≤ 250) && (only || (decide ((gain - g).natAbs ≤ 100) && decide ((skew - s).natAbs ≤ 20)))
      let old := c.reg (calAdcA a (1 + sp))
      if ok then
        let w := coefWord ((off + o) / 2) ((gain + g) / 2) ((skew + s) / 2)
        let w := if only then setBits old 0 10 w else w
        let c := c.put (calAdcA a (1 + sp)) w
        let c := c.modAdc a fun x => { x with prevPass := none, accepted := true, okSubs := x.okSubs ||| 2 ^ sp }
        let c := ((c.count (calAdcA a 6)).put (calAdcA a 7) (c.tick % 2 ^ 32)).adcCalState a
        c.calRecord (3 + a) 0 ([b8 sp, 0, 0, 0] ++ le 4 w)
      else (c.modAdc a fun x => { x with prevPass := none }).calReject (3 + a) ([b8 sp, 0, 0, 0] ++ le 4 old)

/-- A Sketch calibration glimpse has had its one handover (R392); its entry counts it. -/
def Chip.calGlimpseUsed (c : Chip) : Bool := c.glimpses.any fun e => e.2.active && e.2.kind == 6 && e.2.blocks != 0

def Chip.useCalGlimpse (c : Chip) : Chip :=
  let use : Nat × Glimpse → Nat × Glimpse := fun e => if e.2.active && e.2.kind == 6 then (e.1, { e.2 with blocks := 1 }) else e
  { c with glimpses := c.glimpses.map use }

/-- HANDOVER_DUE: the spare shadows the slot that has been active longest. -/
def Chip.handDue (c : Chip) (a : Nat) : Chip :=
  let x := c.adc a
  if 1 < a || !x.accepted || x.shadow.isSome || c.reg (feA a 0x40) == 7 || !c.calLoops || !c.adcRuns a || c.calGlimpseUsed || decide (c.tick < x.lastHand + c.reg 0xA01) then c
  else c.modAdc a fun x => { x with shadow := x.ages.head? }

/-- A comparison has failed; a second failed sub-converter stops the converter and steps its generation (R64, R65). -/
def Chip.handFailed (c : Chip) (a : Nat) : Chip :=
  let c := c.handoverFault a
  let failed := ((List.range 5).filter fun i => c.bit (feA a 0x42) i).length
  if 2 ≤ failed then (((c.modAdc a fun x => { x with stopped := true }).stepGen (2 + a)).refreshWins a false false false).adcCalState a
  else c.adcCalState a

/-- HANDOVER_COMPARE_DONE: 1.5 LSB decides (Table 02-6). Without a spare there is no slot to take, and only a failure counts. -/
def Chip.handCompared (c : Chip) (a rms : Nat) : Chip :=
  if c.reg (feA a 0x40) = 7 then (if rms ≤ 1500 ∨ 1 < a ∨ !c.adcRuns a then c else c.handFailed a)
  else match (c.adc a).shadow with
    | none => c
    | some slot => if rms ≤ 1500 then ((c.handover a slot).adcCalState a).useCalGlimpse else c.handFailed a

/-! The gain ladder (R393 to R398). -/


/-- The setting b that isolates section `i` (1, 2, 4, 8, 16 dB for 0 to 4) from setting `a`, with the section to add to the result. -/
def isolate (a i : Nat) : Option (Nat × Option Nat) :=
  if !a.testBit i then some (a + 2 ^ i, none)
  else ((List.range 5).find? fun w => decide (i < w) && !a.testBit w).map fun w => (a + 2 ^ w - 2 ^ i, some w)

/-- Sections that setting `a` does not isolate, one bit each (CAL_x_STATUS[9:5]). -/
def notIsolable (a : Nat) : Nat := sumList ((List.range 5).map fun i => if (isolate a i).isNone then 2 ^ i else 0)

/-- The value of section `i`, 0.001 dB: an accepted value that waits for the boundary, else the one in force. -/
def Chip.section_ (c : Chip) (fe i : Nat) : Nat := (Tbl.find (c.fe fe).ladStaged i).getD (c.reg (calFeA fe (1 + i)))

/-- The ladder is accepted (R398): every section accepted since reset, or loaded from the journal at a die temperature near the present one. -/
def Chip.ladderAccepted (c : Chip) (fe : Nat) : Bool :=
  c.field (calFeA fe 0) 0 5 == 31 || match (c.fe fe).ladJournal with
    | some t => c.reg 0xA05 != 0x8000 && decide ((t - c.int 0xA05 16).natAbs < c.reg 0xA04)
    | none => false

/-- CAL_x_STATUS follows the ladder and the setting in force. -/
def Chip.ladderStatus (c : Chip) (fe : Nat) : Chip := (c.putField (calFeA fe 0) 5 5 (notIsolable (c.reg (feA fe 3)))).putBit (calFeA fe 0) 11 (c.ladderAccepted fe)

/-- A ladder run starts, or restarts (R396, R402): accepted sections keep their values. -/
def Chip.runStart (c : Chip) (fe : Nat) : Chip :=
  let t := if c.reg 0xA05 = 0x8000 then none else some (c.int 0xA05 16)
  let c := c.modFe fe fun f => { f with runDue := false, ladSection := none, ladFirst := none, ladAborted := false, ladDone := 0, runTemp := t }
  (c.putBit (calFeA fe 0) 10 true).ladderStatus fe

/-- A run in progress restarts (Table 13-2). -/
def Chip.runAgain (c : Chip) (fe : Nat) : Chip := if c.bit (calFeA fe 0) 10 then c.runStart fe else c

/-- LADDER_RUN_START: a run that is due starts. -/
def Chip.runDue (c : Chip) (fe : Nat) : Chip := if fe < 2 ∧ (c.fe fe).runDue then c.runStart fe else c

/-- TEMPERATURE_STEP (R396): the die temperature has moved by CAL_TEMP_STEP since the start of the last run. -/
def Chip.tempStep (c : Chip) (temp : Int) : Chip :=
  let c := c.putInt 0xA05 16 temp
  let moved := [0, 1].any fun f => match (c.fe f).runTemp with | some t => decide (c.reg 0xA04 ≤ (temp - t).natAbs) | none => false
  if moved then ((c.raise 5 (handleBlock 0x0C) (ofSigned 32 temp)).runStart 0).runStart 1 else c

/-- A DAB ensemble in state 4 on a lane that front end `fe` feeds. -/
def Chip.ensFed (c : Chip) (fe : Nat) : Bool :=
  (List.range 8).any fun e => c.reg (dabA e 1) == 4 && (c.feedLane (c.reg (dabA e 0))).contains fe

/-- The frame at hand is a TII frame of an ensemble that front end `fe` feeds (R177, R197): its null symbol is no gap. -/
def Chip.tiiFed (c : Chip) (fe : Nat) : Bool :=
  (List.range 8).any fun e => c.tiiFrame e && (c.feedLane (c.reg (dabA e 0))).contains fe

/-- A gap for a comparison (R177, R395): a null where an ensemble in state 4 is fed, in a frame that is no TII frame, else CAL_LADDER_GAP ticks; in Sketch
mode the nulls of a kind-1 glimpse alone. -/
def Chip.ladderGap (c : Chip) (fe : Nat) : Bool :=
  if c.reg 0x300 = 1 then c.ensFed fe && !c.tiiFed fe && c.glimpses.any fun e => e.2.active && e.2.kind == 1
  else if c.ensFed fe then !c.tiiFed fe
  else decide ((c.fe fe).ladAt + c.reg 0xA03 ≤ c.tick)

/-- LADDER_COMPARISON_START (R395, R402). -/
def Chip.ladderStart (c : Chip) (fe i : Nat) : Chip :=
  let f := c.fe fe
  let quiet := match f.lastOvl with | some t => decide (t + c.reg (feA fe 0x0C) ≤ c.tick) | none => true
  if decide (1 < fe) || decide (4 < i) || !c.bit (calFeA fe 0) 10 || f.ladSection.isSome || f.ladDone.testBit i || c.injecting fe || !c.calLoops || !quiet ||
      (isolate (c.reg (feA fe 3)) i).isNone || !c.ladderGap fe then c
  else c.modFe fe fun f => { f with ladSection := some i, ladAborted := false, ladAt := c.tick, calAt := some c.time.now }

/-- The section bytes of a front end's calibration record. -/
def Chip.sectionBytes (c : Chip) (fe : Nat) : List Byte := ((List.range 5).map fun i => le 2 (c.section_ fe i)).flatten

/-- A run ends when every section that can be isolated has been accepted: event 19, CAL_x_RUN_CNT, a record. -/
def Chip.runEnd (c : Chip) (fe : Nat) : Chip :=
  let a := c.reg (feA fe 3)
  if (List.range 5).all fun i => (c.fe fe).ladDone.testBit i || (isolate a i).isNone then
    (((c.putBit (calFeA fe 0) 10 false).count (calFeA fe 7)).raise 19 (handleBlock 0x0C) (1 + fe)).calRecord (1 + fe) 0 (c.sectionBytes fe)
  else c

/-- A section value is accepted; it takes effect at the next tick boundary. -/
def Chip.acceptSection (c : Chip) (fe i : Nat) (v : Int) : Chip :=
  let t := if c.reg 0xA05 = 0x8000 then none else some (c.int 0xA05 16)
  let c := c.modFe fe fun f => { f with ladFirst := none, ladDone := f.ladDone ||| 2 ^ i, ladStaged := Tbl.put f.ladStaged i (satSigned 17 v % 65536), ladTemp := t }
  let c := (c.put (calFeA fe 0) (c.reg (calFeA fe 0) ||| 2 ^ i)).put (calFeA fe 8) (c.tick % 2 ^ 32)
  (c.ladderStatus fe).runEnd fe

/-- A step that waited for the comparison (R48) is taken at the moment the comparison ends, without waiting for the next tick boundary (DESIGN CHOICE,
log entry 62: R44 and R48 leave it open). -/
def Chip.owedStep (c : Chip) (fe : Nat) : Chip :=
  if !(c.fe fe).owedStep then c else if c.reg (feA fe 2) ≠ 0 ∧ (c.fe fe).base.isSome then c.ovlReturn fe else c.agcRelease fe

/-- LADDER_COMPARISON_DONE (R394): A(b) - A(a) in 0.001 dB. -/
def Chip.ladderDone (c : Chip) (fe : Nat) (diff : Int) : Chip := match (c.fe fe).ladSection with
  | none => c
  | some i =>
    let a := c.reg (feA fe 3)
    let key := a * 8 + i
    let c := c.modFe fe fun f => { f with ladSection := none, calAt := some c.time.now }
    let c := match isolate a i, (c.fe fe).ladFirst with
      | some (_, w), some (k, d) =>
        if k ≠ key then c.modFe fe fun f => { f with ladFirst := some (key, diff) }
        else if (diff - d).natAbs ≤ 10 * c.reg 0xA02 then
          let m := (diff + d) / 2
          c.acceptSection fe i (match w with | some w => (c.section_ fe w : Int) - m | none => m)
        else (c.modFe fe fun f => { f with ladFirst := none }).calReject (1 + fe) (c.sectionBytes fe)
      | some _, none => c.modFe fe fun f => { f with ladFirst := some (key, diff) }
      | none, _ => c
    c.owedStep fe

/-- Accepted section values come into force at a boundary (R397); the ramp of the compensation marks CAL. -/
def Chip.ladderTick (c : Chip) (fe : Nat) : Chip :=
  let f := c.fe fe
  let a := c.reg (feA fe 3)
  let old := c.attnValue fe a
  let c := c.each f.ladStaged fun c e => c.put (calFeA fe (1 + e.1)) e.2
  let moved := c.attnValue fe a != old
  let c := if f.ladStaged.isEmpty then c else c.modFe fe fun f => { f with ladStaged := [], calAt := if moved then some c.time.now else f.calAt }
  (c.noteGain fe).ladderStatus fe

/-- G_x interpolated on the die temperature, 0.1 degC (R398). -/
def gainAt (fe : Nat) (t : Int) : Int :=
  let g := fun (i : Nat) => ((Config.factoryGain fe i).toNat : Int)
  if t < 250 then g 0 + (g 1 - g 0) * (t + 400) / 650 else g 1 + (g 2 - g 1) * (t - 250) / 850

/-! The reference rate (R399). -/

/-- Insert into a rising list. -/
def insertInt (x : Int) : List Int → List Int
  | [] => [x]
  | y :: r => if x ≤ y then x :: y :: r else y :: insertInt x r

/-- The median: the middle one, or the mean of the middle two. -/
def median (l : List Int) : Option Int :=
  let s := l.foldl (fun t x => insertInt x t) []
  let n := s.length
  if n = 0 then none
  else if n % 2 = 1 then s[n / 2]?
  else some ((s[n / 2 - 1]?.getD 0 + s[n / 2]?.getD 0) / 2)

/-- The rate estimates available, 0.001 ppm: FM lanes whose pilot has been locked for 1,024 ticks, by its frequency error in 0.01 Hz over 19 kHz; ensembles in
state 4, by DAB_SRO in 0.01 ppm. -/
def Chip.rateSources (c : Chip) : List Int :=
  ((List.range 160).filterMap fun k =>
    if c.laneRuns k && c.laneIsFm k && (c.lane k).pilot && decide (1024 ≤ (c.lane k).pilotTicks) then (c.lane k).meas.map fun m => (2 * m.pilotErr * 10000 + 19) / 38 else none) ++
  ((List.range 8).filterMap fun e => if c.reg (dabA e 0) != 0xFF && c.reg (dabA e 1) == 4 then some (10 * toSigned 16 (c.reg (dabA e 4))) else none)

/-- REFERENCE_ESTIMATE: an accepted median of the available estimates moves CLK_TB_RATE at the next tick boundary. -/
def Chip.referenceEstimate (c : Chip) : Chip :=
  match median c.rateSources with
  | none => c
  | some m =>
    let near := (c.rateSources.filter fun x => decide ((x - m).natAbs ≤ 10 * c.reg 0xA07)).length
    if near < c.reg 0xA06 then c
    else
      let n := c.rateSources.length
      let c := ((c.stage 0x235 (ofSigned 32 m)).put 0xA09 (c.tick % 2 ^ 32)).put 0xA08 1
      c.calRecord 5 0 (le 4 (ofSigned 32 m) ++ [b8 n])

/-- CLK_TB_RATE comes into force: the mapping goes on from here (R399). -/
def Chip.applyRate (c : Chip) (v : Nat) : Chip := (c.syncTime.rebase).put 0x235 v

/-- CAL_REF_STATE: stale 3,600 s after the last accepted estimate. -/
def Chip.refTick (c : Chip) : Chip :=
  if c.reg 0xA08 = 1 ∧ 3600 * 1024 ≤ (c.tick % 2 ^ 32 + 2 ^ 32 - c.reg 0xA09) % 2 ^ 32 then c.put 0xA08 2 else c

/-! The output sense monitors (R400). -/

/-- Least squares over pairs of code and reading (1/16 LSB): offset in 1/16 LSB and gain in ppm. -/
def fitLine (l : List (Nat × Int)) : Int × Int :=
  let n : Int := l.length
  let x := l.foldl (fun s p => s + (p.1 : Int)) 0
  let y := l.foldl (fun s p => s + p.2) 0
  let xx := l.foldl (fun s p => s + (p.1 : Int) * p.1) 0
  let xy := l.foldl (fun s p => s + (p.1 : Int) * p.2) 0
  let den := n * xx - x * x
  let num := n * xy - x * y
  if den = 0 then (0, 0) else ((y * xx - x * xy) / den, num * 1000000 / (16 * den) - 1000000)

/-- Offset alone: the mean of reading less code. -/
def fitOffset (l : List (Nat × Int)) : Int := if l.isEmpty then 0 else l.foldl (fun s p => s + (p.2 - 16 * (p.1 : Int))) 0 / l.length

/-- The codes span at least a quarter of full scale. -/
def spansQuarter (l : List (Nat × Int)) : Bool := decide (l.foldl (fun m p => min m p.1) 65535 + 16384 ≤ l.foldl (fun m p => max m p.1) 0)

/-- DAC_SENSE_MEASURE: CAL_DAC_c and CAL_DAC_STATE; `reading` in 1/16 LSB. -/
def Chip.dacSense (c : Chip) (ch code : Nat) (reading : Int) : Chip :=
  if 3 < ch || !c.dacValid || !c.updateClock then c
  else
    let l := ((code % 65536, reading) :: (c.dac ch).pairs).take 64
    let c := c.modDac ch fun d => { d with pairs := l }
    if l.length < 64 then c
    else if spansQuarter l then
      let (o, g) := fitLine l
      (c.put (0xA50 + ch) (satSigned 16 o + 65536 * satSigned 16 g)).putField 0xA54 (2 * ch) 2 2
    else (c.put (0xA50 + ch) (satSigned 16 (fitOffset l))).putField 0xA54 (2 * ch) 2 1

/-- The fits start again (CAL_CTRL[2]). -/
def Chip.dacRestart (c : Chip) : Chip := c.each [0, 1, 2, 3] fun c ch => (c.modDac ch fun d => { d with pairs := [] }).put (0xA50 + ch) 0 |>.putField 0xA54 (2 * ch) 2 0

/-! CAL_CTRL and the boundary. -/

/-- A write to CAL_CTRL takes effect at the next tick boundary; bits written meanwhile add up. -/
def Chip.wrCalCtrl (c : Chip) (v : Nat) : WRes := (c.stage 0xA00 (v ||| (match Tbl.find c.staged 0xA00 with | some x => x.toNat | none => 0))).yes

def Chip.applyCalCtrl (c : Chip) (v : Nat) : Chip :=
  let c := if v.testBit 0 then c.runStart 0 else c
  let c := if v.testBit 1 then c.runStart 1 else c
  if v.testBit 2 then c.dacRestart else c

/-- Calibration at a tick boundary; the die temperature when it was measured. -/
def Chip.calTick (c : Chip) (temp : Option Int) : Chip :=
  let c := match temp with
    | some t =>
      let c := c.putInt 0xA05 16 t
      c.each [0, 1] fun c f => c.put (calFeA f 6) (gainAt f t).toNat
    | none => c
  (c.each [0, 1] Chip.ladderTick).refTick

end Sys2Proof.Machine
end

