-- ==== Sys2Proof/Machine/Jobs.lean ====
section
/-! DEFINITION. The life of a job: start, withdrawal, end, renewal, loss of admission with a Canvas partition, its status (R327, R328, R344, R349 to R352, R84 to R88, R97 to R99). -/

namespace Sys2Proof.Machine

/-! End. -/

/-- The lanes that a job holds; a job scheduled behind another holds none of them yet. -/
def Chip.ownLanes (c : Chip) (j : Nat) : List Nat := (jobLanes (c.jobDesc j)).filter fun k => (c.lane k).job == some j

/-- A profile switch has changed the parameters of instance `i`: the instance ends, and starts again on its lanes at the next boundary (Table 09-6). -/
def Chip.followRestart (c : Chip) (i : Nat) : Chip := match (c.follow i).job with
  | none => c
  | some j =>
    let ks := c.ownLanes j
    let c := c.endFollow i
    let c := c.each ks fun c k =>
      let l := c.lane k
      (c.stopLane k).modLane k fun x => { x with job := l.job, option := l.option }
    c.takeFollow i j (c.jobDesc j)

/-- Jobs that depend on a job: the MSC, stream and measurement jobs on its lanes' carriers (R328). -/
def Chip.dependants (c : Chip) (j : Nat) : List Nat :=
  let ks := c.ownLanes j
  (c.jobs.filter fun e => let k := dKind e.2.desc; decide (2 ≤ k ∧ k ≤ 5) && decide (hLevel (dHandle e.2.desc) ≤ 3) && ks.contains (hLane (dHandle e.2.desc))).map (·.1)

/-- What the job's kind held is given back. -/
def Chip.dropKind (c : Chip) (j : Nat) (d : List Byte) : Chip :=
  let k := dKind d
  if k = 1 then c.each (c.ownLanes j) Chip.stopLane
  else if k = 2 ∨ k = 3 then
    let c := c.detach j
    let c := { c with mscs := Tbl.del c.mscs j }
    if k = 3 then match c.drmOf (hLane (dHandle d)) with | some n => c.refreshMux n | none => c else c
  else if k = 4 then c.detach j
  else if k = 5 then { c with swts := Tbl.del c.swts j }
  else if k = 6 then
    let ks := c.ownLanes j
    let c := match c.followOf j with | some i => c.endFollow i | none => c
    c.each ks Chip.stopLane
  else if k = 7 then (c.put (winA (hWin (dHandle d)) 8) 0).modWin (hWin (dHandle d)) fun w => { w with expJob := none }
  else if k = 8 then
    let w := hWin (dHandle d)
    let c := if c.reg (winA w 0x13) = 5 then c.put (winA w 0x13) 4 else c
    c.modWin w fun w => { w with capJob := none }
  else c

/-- What a job that has ended leaves to the jobs admitted on its end (R330): its lanes to the one that starts next, its follow instance, its pages. -/
def Chip.settle (c : Chip) (ks : List Nat) : Chip :=
  let waiting := c.jobs.filter fun e => (jobLanes e.2.desc).any ks.contains
  let next := waiting.foldl (fun (c : Chip) (e : Nat × Job) => c.holdLanes e.1 e.2.start e.2.desc) c
  let next := waiting.foldl (fun (c : Chip) (e : Nat × Job) => c.holdFollow e.1 e.2.desc) next
  next.each (c.jobs.map (·.1)) Chip.allot

/-- One job ends: what it held is free, its pages with it, at the boundary that begins the next tick (R89, R327, R328, R350). -/
def Chip.endOne (c : Chip) (j : Nat) : Chip := match c.job? j with
  | none => c
  | some x =>
    let c := (c.dropKind j x.desc).givePages x.pages
    let c := { c with jobs := Tbl.del c.jobs j, sched := { c.sched with released := true },
                      bus := { c.bus with v1Job := if c.bus.v1Job = some j then none else c.bus.v1Job } }
    (c.settle (jobLanes x.desc)).refreshSched

/-- A job ends with its dependants. -/
def Chip.endJob (c : Chip) (j : Nat) : Chip := (c.each (c.dependants j) Chip.endOne).endOne j

/-- Withdraw a job and its dependants at the next tick boundary (R328). -/
def Chip.withdraw (c : Chip) (j : Nat) : Chip :=
  c.each (j :: c.dependants j) fun c i => c.modJob i fun x => { x with ending := some (x.ending.getD (c.tick + 1)) }

/-- JOB_WITHDRAW_EFFECT. -/
def Chip.withdrawEffect (c : Chip) (j : Nat) : Chip := match c.job? j with
  | some x => match x.ending with
    | some t => if t ≤ c.tick then c.endJob j else c
    | none => c
  | none => c

/-- JOB_DURATION_END (R327). -/
def Chip.durationEnd (c : Chip) (j : Nat) : Chip := match c.job? j with
  | some x => match x.stop with
    | some t => if t ≤ c.tick then c.endJob j else c
    | none => c
  | none => c

/-! Start. -/

/-- The bytes of window samples: I in bytes 0 and 1, Q in bytes 2 and 3 (R85). -/
def sampleBytes (l : List Smp) : List Byte := l.flatMap fun x => le 2 (ofSigned 16 x.1) ++ le 2 (ofSigned 16 x.2)

/-- A capture export starts with its header record (R99). -/
def Chip.capHeaderRecord (c : Chip) (j w : Nat) : Chip :=
  let x := c.win w
  let ts := c.pathStamp (x.capTrig - x.capPre) 0
  c.produce { ty := 0x61, handle := handleWin w, ts := ts, ref := ts, body := c.capHeader w, job := some j, flags := 0 }

/-- A scheduled job begins (R327). -/
def Chip.beginJob (c : Chip) (j : Nat) : Chip := match c.job? j with
  | none => c
  | some x =>
    if x.state ≠ 1 ∨ c.tick < x.start then c
    else
      let c := c.setJob j { x with state := 2 }
      if dKind x.desc = 8 then c.capHeaderRecord j (hWin (dHandle x.desc)) else c

/-- The jobs without a timed start that begin at this boundary. -/
def Chip.beginJobs (c : Chip) : Chip := c.each ((c.jobs.filter fun e => e.2.state == 1 && !dTimed e.2.desc).map (·.1)) Chip.beginJob

/-- JOB_TIMED_START. -/
def Chip.timedStart (c : Chip) (j : Nat) : Chip := if dTimed (c.jobDesc j) then c.beginJob j else c

/-- LANE_START (R108): a lane whose job has begun starts where its window runs; a follow instance first tunes its lanes. The active bank is checked again
(R121): a start that it spoils is refused (R109), which ends the job with event 24 (DESIGN CHOICE, log entry 62). -/
def Chip.laneStart (c : Chip) (k : Nat) : Chip := match (c.lane k).job with
  | none => c
  | some j => match c.job? j with
    | none => c
    | some x =>
      if x.state ≠ 2 ∨ (c.lane k).started ∨ (c.lane k).suspended ∨ !c.winRuns (c.laneWin k) then c
      else match c.followOf j with
        | some i => (if (c.follow i).current.isNone then c.followSetup i else c).startFollowLanes i
        | none =>
          if c.bankOk (c.laneBank k) then (c.startLane k j (c.lane k).option).refreshDiv
          else ((c.put 0x70A (rBad + 65536 * dKind x.desc)).raise 24 (handleBlock 0x08) rBad).endJob j

/-! Exports. -/

/-- WIN_EXPORT (R84). A write of 1 while the job is held, its withdrawal waiting or not, is accepted and changes nothing (DESIGN CHOICE, log entry 62). -/
def Chip.wrExport (c : Chip) (w v : Nat) : WRes :=
  if v % 2 = 1 then
    if (c.win w).expJob.isSome then c.yes
    else
      let (body, c) := c.submit (mkDesc 7 0 0 (handleWin w) (c.reg 0x703)) 2
      ((body.headD 0).toNat, c)
  else match (c.win w).expJob with
    | some j => (c.withdraw j).yes
    | none => c.yes

/-- WIN_CAP_CTRL: release; in state 5 the export job is withdrawn. In every other state it is accepted and changes nothing (DESIGN CHOICE, log entry 62:
Table 03-6 gives it an effect in states 4 and 5 only). -/
def Chip.capRelease (c : Chip) (w : Nat) : WRes :=
  let st := c.reg (winA w 0x13)
  if st = 4 then (c.put (winA w 0x13) 0).yes
  else if st = 5 then
    let c := c.put (winA w 0x13) 0
    match (c.win w).capJob with
    | some j => (c.withdraw j).yes
    | none => c.yes
  else c.yes

/-- A sample block of the live export leaves (R84, R85): `ts` is the count at which its first sample left the window. -/
def Chip.liveBlock (c : Chip) (w ts : Nat) (l : List Smp) : Chip := match (c.win w).expJob with
  | none => c
  | some j =>
    let fes := if c.winSrc w < 2 then [c.winSrc w] else []
    c.produce { ty := 0x60, handle := w * 2 ^ 25 + 0x0B, ts := c.pathStamp ts 0, ref := c.pathStamp ts 0, body := sampleBytes l, job := some j,
                flags := c.coastFlag [0, 1] ts ||| c.calFlag fes ts }

/-- The next sample block of a capture export, from oldest to newest (R99). -/
def Chip.capBlock (c : Chip) (w : Nat) : Chip :=
  let x := c.win w
  let n := x.dsp.ring.length
  match x.capJob with
  | none => c
  | some j =>
    let runs := match c.job? j with | some y => y.state == 2 | none => false
    if n ≤ x.capSent || !runs then c
    else
      let l := (x.dsp.ring.reverse.drop x.capSent).take 128
      let ts := c.pathStamp (x.dsp.ringAt + 1 - n + x.capSent) 0
      (c.modWin w fun y => { y with capSent := y.capSent + l.length }).produce
        { ty := 0x62, handle := w * 2 ^ 25 + 0x0B, ts := ts, ref := ts, body := sampleBytes l, job := some j, flags := 0 }

/-- Blocks that a capture export produces in a tick: its admitted share, SCH_CAP_RATE in kB/s, over 528-byte records (log entry 61). -/
def Chip.capBlocks (c : Chip) : Nat := max 1 (c.reg 0x702 * 1000 / 1024 / 528)

/-- The capture exports at a tick boundary. -/
def Chip.capTick (c : Chip) (w : Nat) : Chip := if c.reg (winA w 0x13) = 5 then c.each (List.range c.capBlocks) fun c _ => c.capBlock w else c

/-- CAPTURE_EXPORT_DONE: the last record has been sent; the export job ends, the capture is frozen again (Table 03-6). -/
def Chip.capExportDone (c : Chip) (w : Nat) : Chip :=
  if c.reg (winA w 0x13) ≠ 5 then c
  else match (c.win w).capJob with
    | none => c
    | some j => if (c.win w).capSent < (c.win w).dsp.ring.length ∨ c.out.queue.any fun q => q.job == some j then c else c.endJob j

/-! Shedding (R344). -/

/-- The bursts W of R340. -/
def Chip.burstSum (c : Chip) : Nat := sumList (c.jobs.map fun e => e.2.wBurst) + c.standBurst

/-- The oldest of a list of queued records. -/
def oldestQ (l : List QRec) : Option QRec := l.foldl (fun b x => match b with | some y => if x.order < y.order then some x else some y | none => some x) none

/-- Shed a queued record, with every queued fragment of its unit (R191, R344). -/
def Chip.shedQueued (c : Chip) (q : QRec) : Chip := match q.job with
  | none => c
  | some j =>
    let k := streamKey q.rec_.ty q.rec_.handle
    let mine := fun (x : QRec) => x.job == some j && streamKey x.rec_.ty x.rec_.handle == k && x.rec_.ts == q.rec_.ts
    let gone := c.out.queue.filter mine
    let c := c.syncOwed
    let c := { c with out := { c.out with queue := c.out.queue.filter fun x => !mine x } }
    (c.each gone fun c x => c.shedRec k j x.order).queueChanged

/-- PROBE_RECORD_SHED: a queued PROBE record past its deadline, else the oldest while the free bytes stand below W. -/
def Chip.probeShed (c : Chip) : Chip :=
  let ps := c.out.queue.filter fun q => q.cls == 2
  let passed := ps.filter fun q => match q.deadline with | some d => decide (d < c.time.now) | none => false
  match oldestQ passed with
  | some q => c.shedQueued q
  | none => if c.strBytes < c.queued + c.burstSum then (match oldestQ ps with | some q => c.shedQueued q | none => c) else c

/-! Renewal (R349, R350). -/

/-- The cost at present: a DRM job's interleaving as its channel signals it (R219). -/
def Chip.costNow (c : Chip) (d : List Byte) : Cost :=
  let long := dKind d == 3 && match c.drmOf (hLane (dHandle d)) with | some n => c.chLong n | none => false
  if long then c.cost (d.take 20 ++ le 4 (dF0 d ||| 2048) ++ d.drop 24) else c.cost d

/-- The tests of R338 to R340 for a held job, without its own reservation. -/
def Chip.renewTest (c : Chip) (j : Nat) (d : List Byte) : Verdict :=
  let k := c.costNow d
  let smallest := k.lmin + (if dClass d = 0 then c.reg 0x701 else 0)
  if emitsNow d && c.strPart.isNone then Verdict.plain rNotInProfile
  else if dBound d ≠ 0 ∧ (dBound d < k.lmin ∨ (dClass d = 0 ∧ (c.allowance d k).isNone)) then { reason := rLatency, res := 10, short := smallest }
  else c.fitSpan d k (c.rateOf d k) (c.tick + 1) false (some j)

/-- A renewal that succeeds takes the new figures; a job in state 4 runs again. -/
def Chip.renewOk (c : Chip) (j : Nat) (x : Job) : Chip :=
  let k := c.costNow x.desc
  (c.setJob j { x with rate := c.rateOf x.desc k, mean := k.mean, burst := k.burst, lmin := k.lmin,
                       allowance := if emits x.desc ∧ dClass x.desc = 0 then (c.allowance x.desc k).getD 0 else 0,
                       state := if x.state = 4 then 2 else x.state }).refreshSched

/-- JOB_RENEWAL: a failed renewal is counted with event 24; a GUARANTEED job is then held without output. -/
def Chip.renew (c : Chip) (j : Nat) : Chip := match c.job? j with
  | none => c
  | some x =>
    let v := c.renewTest j x.desc
    if v.reason = 0 then c.renewOk j x
    else
      let c := (c.count 0x70F).raise 24 (handleBlock 0x08) (v.reason + 256 * v.res)
      if dClass x.desc = 0 then c.setJob j { x with state := if x.state = 2 then 4 else x.state, reason := v.reason } else c

/-- Renewal at a profile switch (R350): a job whose demand no longer fits ends at once. -/
def Chip.renewAtSwitch (c : Chip) (j : Nat) : Chip := match c.job? j with
  | none => c
  | some x =>
    let v := c.renewTest j x.desc
    if v.reason = 0 then c.renewOk j x
    else
      let c := (c.count 0x70F).raise 24 (handleBlock 0x08) (v.reason + 256 * v.res)
      (c.put 0x70A (v.reason + 256 * v.res + 65536 * dKind x.desc)).endJob j

/-! The Canvas map (R88). -/

/-- A job loses its admission with a stepped partition: GENERATION_VOID in SCH_LAST_REFUSAL, event 24. -/
def Chip.loseAdmission (c : Chip) (j : Nat) : Chip := match c.job? j with
  | none => c
  | some x => ((c.put 0x70A (rVoid + 65536 * dKind x.desc)).raise 24 (handleBlock 0x08) rVoid).endJob j

/-- The jobs that hold space in partition `p` of the active map. -/
def Chip.holdersOf (c : Chip) (p : Nat) : List Nat :=
  let d := c.desc p
  (c.jobs.filter fun e =>
    (Tbl.find e.2.pages p).isSome || (e.2.pages.isEmpty && dSize d != 0 && (dUse d == 2 || dUse d == 3) && c.jobNeed e.2 (dUse d) != 0) || (dSize d != 0 && dUse d == 0 && dKind e.2.desc == 8 && hWin (dHandle e.2.desc) == dWin d) ||
      (dSize d != 0 && dUse d == 1 && emitsNow e.2.desc)).map (·.1)

/-- Partition `p` steps: its jobs lose admission, queued records in an STR partition are lost, its contents are lost; requests outstanding to it are void (event 4). -/
def Chip.stepPartition (c : Chip) (p : Nat) : Chip :=
  let js := c.holdersOf p
  let str := c.strPart == some p
  let c := c.stepGen (16 + p)
  let c := c.each js Chip.loseAdmission
  let c := if str then c.loseQueue else c
  let c := if js.isEmpty then c else c.raise 4 (handleBlock 0x05) (Tbl.get 0 c.gens (16 + p))
  c.put (cnvA p 1) 0

/-- A window's capture state follows its CAP partition: 6 without one (Table 03-6). -/
def Chip.capState (c : Chip) (w : Nat) (stepped : Bool) : Chip :=
  let has := c.capSamples w != 0
  let st := c.reg (winA w 0x13)
  if !has then c.put (winA w 0x13) 6 else if st = 6 ∨ stepped then c.put (winA w 0x13) 0 else c

/-- A descriptor's base, size, use and window; only they step a partition. -/
def dBounds (d : Nat) : Nat := if dSize d = 0 then 0 else setBits d 20 1 0

/-- CNV_FREE: blocks outside every partition. -/
def Chip.cnvFree (c : Chip) : Nat := 256 - sumList ((List.range 16).map fun p => dSize (c.desc p))

/-- CANVAS_MAP_APPLY. -/
def Chip.applyMap (c : Chip) (m : Tbl Word) : Chip :=
  let new := fun (p : Nat) => (Tbl.get 0 m p).toNat
  let changed := (List.range 16).filter fun p => dBounds (c.desc p) != dBounds (new p)
  let wins := (changed.map fun p => [c.desc p, new p]).flatten.filterMap fun d => if dSize d ≠ 0 ∧ dUse d = 0 then some (dWin d) else none
  let c := c.each changed Chip.stepPartition
  let c := { c with canvas := { c.canvas with active := m, pending := none } }
  let c := (c.put 0x7B1 0).put 0x7B2 c.cnvFree
  let c := c.each (List.range 12) fun c w => c.capState w (wins.contains w)
  c.refreshSched

/-- A committed map takes effect at the boundary. -/
def Chip.canvasTick (c : Chip) : Chip := match c.canvas.pending with
  | some m => c.applyMap m
  | none => c

/-- Partitions without the retain bit lose their contents when the DSP domain sleeps (R94). -/
def Chip.sleepPartitions (c : Chip) : Chip :=
  c.each ((List.range 16).filter fun p => dSize (c.desc p) != 0 && !dRetain (c.desc p)) fun c p =>
    let cap := dUse (c.desc p) == 0
    let w := dWin (c.desc p)
    let c := c.stepPartition p
    if cap then c.capState w true else c

/-! Status (R352). -/

/-- The job status body (Table 11-11). -/
def Chip.jobStatus (c : Chip) (j : Nat) : List Byte := match c.job? j with
  | none => le 2 j ++ List.replicate 34 0
  | some x =>
    let d := x.desc
    le 2 j ++ [b8 (dKind d), b8 (dClass d), b8 (if x.ending.isSome then 5 else x.state), b8 x.reason,
      b8 ((if x.lateRun then 1 else 0) + (if x.shedRun then 2 else 0) + x.sat), 0] ++ le 4 (dHandle d) ++ le 2 (dBound d) ++ le 2 x.allowance ++ le 4 x.rate ++
      le 4 x.records ++ le 4 x.late ++ le 4 x.shed ++ le 2 x.maxLate ++ [0, 0]

/-- Event 31 (R351): suspended jobs have resumed, or resources were released after a NO_CAPACITY refusal. -/
def Chip.schedTick (c : Chip) : Chip :=
  let n := c.sched.resumed
  let restored := n ≠ 0 ∨ (c.sched.wanting = true ∧ c.sched.released = true)
  let wanting := c.sched.wanting && !c.sched.released
  let c := { c with sched := { wanting := wanting, released := false, resumed := 0 } }
  if restored then c.raise 31 (handleBlock 0x08) n else c

end Sys2Proof.Machine
end

