-- ==== Sys2Proof/Machine/Path.lean ====
section
/-! DEFINITION. The signal path over a tick: from converter samples through windows and lanes to demodulated output and slot audio (R43, R45, R72 to R85, R96 to R99, R102 to R119, R125, R131, R136 to R159). The samples of a tick are taken together at the boundary that ends it, in order, each at its own studio time (log entry 61). -/

namespace Sys2Proof.Machine

/-! Converters. -/

/-- A power ratio in 0.01 dB; -327.67 dB for none. -/
def dbOr (p q : Nat) : Int := if p = 0 ∨ q = 0 then -32767 else max (-32767) (dbPower p q)

/-- Samples with their index. -/
def indexed {α : Type} (l : List α) : List (Nat × α) := (List.range l.length).zip l

/-- Composite RMS, peak and clipped samples of a tick (R43, R50, Table 02-7): 0 dBFS is the RMS of a sine of peak 8,192. -/
def feMeasure (fe t0 : Nat) (xs : List Int) : FeMeas :=
  let e := xs.foldl (fun (a : Nat) x => a + x.natAbs * x.natAbs) 0
  let p := xs.foldl (fun (a : Nat) x => max a x.natAbs) 0
  let clips := (indexed xs).filterMap fun x => if x.2 = -8192 ∨ x.2 = 8191 then some (t0 + x.1 / 16) else none
  { fe := fe, rms := dbOr (2 * e) (xs.length * 8192 * 8192), peak := dbOr (2 * p * p) (8192 * 8192), clipped := clips.length, clips := clips }

/-- The front ends that were measured over the tick that ends at `now`. -/
def feMeasures (now : Nat) (a b : List Int) : List FeMeas :=
  (if a.isEmpty then [] else [feMeasure 0 (now - a.length / 16) a]) ++ (if b.isEmpty then [] else [feMeasure 1 (now - b.length / 16) b])

/-- The compensation factor in force at studio time `t`, interpolated over the 4 counts (122 ns) of settling after a change (R45). -/
def gainFactor (l : List (Nat × Nat)) (dflt t : Nat) : Int := match l.dropWhile fun e => decide (t < e.1) with
  | [] => Config.compensation dflt
  | [(_, v)] => Config.compensation v
  | (s, v) :: (_, u) :: _ =>
    let i : Int := min 4 (t - s)
    let f : Int := Config.compensation u
    f + ((Config.compensation v : Int) - f) * i / 4

/-- The calibrated attenuation in force at studio time `t`, 0.001 dB (R309). -/
def Chip.attnAt (c : Chip) (fe t : Nat) : Nat := match (c.fe fe).gains.dropWhile fun e => decide (t < e.1) with
  | e :: _ => e.2
  | [] => c.attnValue fe (c.reg (feA fe 3))

/-- The samples of front end `fe` as the windows take them (R45). -/
def Chip.compensate (c : Chip) (fe t0 : Nat) (xs : List Int) : List Int :=
  let d := c.attnValue fe (c.reg (feA fe 3))
  (indexed xs).map fun x => (satW 14 (rnd 15 (x.2 * gainFactor (c.fe fe).gains d (t0 + x.1 / 16)))).1

/-! Windows. -/

/-- A window on its way through a tick: its state, its outputs newest first, and the components saturated. -/
structure WinRun where
  d : WinDsp
  out : List (Nat × Smp)
  sat : Nat
deriving DecidableEq, Repr

/-- A converter sample, with its index from `t0`, enters the window (R73 to R76, R80). -/
def WinRun.step (word t0 : Nat) (r : WinRun) (x : Nat × Int) : WinRun :=
  let t := t0 + x.1 / 16
  let m := winMix r.d.phase x.2
  let d := { r.d with phase := (r.d.phase + word) % 2 ^ 32 }
  if t < d.since then { r with d := d }
  else match d.cic.step 34 16 m with
    | (q, none) => { r with d := { d with cic := q } }
    | (q, some z) =>
      let line := pushN 21 (rnd 16 z.1, rnd 16 z.2) d.droop
      let (y, n) := droopOut line
      let d := { d with cic := q, droop := line }
      if d.drop = 0 then { d := d, out := (t, y) :: r.out, sat := r.sat + n } else { r with d := { d with drop := d.drop - 1 }, sat := r.sat + n }

/-- A window output joins the capture (R96 to R98): as the trigger sample, as a further cause at it, as an ignored trigger, and in the ring. A level that
stays up is one trigger (DESIGN CHOICE, log entry 62). -/
def Chip.capSample (c : Chip) (w t : Nat) (y : Smp) : Chip :=
  let x := c.win w
  let st := c.reg (winA w 0x13)
  let src := c.reg (winA w 0x11)
  let loud := decide (c.reg (winA w 0x17) ≤ max y.1.natAbs y.2.natAbs)
  let causes := c.capCauses w (if loud then 4 else 0) t
  let fresh := c.capCauses w (if loud && !x.dsp.loud then 4 else 0) t
  let armed := st == 1 || st == 2
  let early := st == 3 && decide (t < x.capTrig)
  let c :=
    if (armed || early) && causes &&& src != 0 then (if early then c.count (winA w 0x1A) else c).capMark w t causes
    else if st == 3 && t == x.capTrig then c.put (winA w 0x16) (c.reg (winA w 0x16) ||| causes)
    else if !armed && !early && st != 6 && fresh &&& src != 0 then c.count (winA w 0x1A)
    else c
  let st := c.reg (winA w 0x13)
  let n := c.capSamples w
  c.modWin w fun x =>
    let keep := decide (x.capSince ≤ t) && (st == 1 || st == 2 || ((st == 3 || st == 4 || st == 5) && decide (x.dsp.ringAt < t) && decide (t < x.capTrig + x.capPost)))
    { x with dsp := { x.dsp with loud := loud, ring := if keep then pushN n y x.dsp.ring else x.dsp.ring, ringAt := if keep then t else x.dsp.ringAt } }

/-- A window output joins the live export's block of 128, which leaves when it is full (R84, R85). -/
def Chip.exportSample (c : Chip) (w t : Nat) (y : Smp) : Chip :=
  let x := c.win w
  let on := match x.expJob with | none => false | some j => match c.job? j with | some z => z.state == 2 | none => false
  let block := if on then x.dsp.block ++ [y] else []
  let at_ := if x.dsp.block.isEmpty then t else x.dsp.blockAt
  let c := c.modWin w fun x => { x with dsp := { x.dsp with block := if block.length = 128 then [] else block, blockAt := at_ } }
  if block.length = 128 then c.liveBlock w at_ block else c

/-- A window takes its converter's samples of the tick: its outputs, WIN_RMS, WIN_SAT_CNT, the capture and the live export (Table 03-9). -/
def Chip.winPath (c : Chip) (w t0 : Nat) (xs : List Int) : Chip × List (Nat × Smp) :=
  let r := (indexed xs).foldl (WinRun.step (c.reg (winA w 0)) t0) { d := (c.win w).dsp, out := [], sat := 0 }
  let outs := r.out.reverse
  let e := outs.foldl (fun (a : Nat) o => a + o.2.power) 0
  let c := (c.modWin w fun x => { x with dsp := r.d }).countBy (winA w 5) r.sat
  let c := if outs.isEmpty then c else c.putInt (winA w 4) 16 (dbOr e (outs.length * 32767 * 32767))
  (c.each outs fun c o => (c.capSample w o.1 o.2).exportSample w o.1 o.2, outs)

/-! Lanes. -/

/-- A lane on its way through a tick: its state, its demodulated samples newest first (with the 38 kHz reference of an FM lane; a DAB or DRM lane's outputs),
the components saturated, and measurements for the jobs on the lane, newest first. -/
structure LaneRun where
  d : LaneDsp
  out : List (Nat × Int × Int)
  sat : Nat
  pts : List SwtPoint
deriving DecidableEq, Repr

/-- The front of a lane: mixer, CIC, scaler (R103 to R106). -/
def laneFront (phase : Nat) (q : CicSt) (x : Smp) : CicSt × Option Smp × Nat :=
  let m := satSmp (laneMix phase x)
  match q.step 28 8 m.1 with
  | (q, none) => (q, none, m.2)
  | (q, some z) => let y := satSmp (rnd 12 z.1, rnd 12 z.2); (q, some y.1, m.2 + y.2)

/-- The channel FIR at studio time `t`: the bank in use, or the fade that runs (R119, R125, R127). -/
def Chip.channelOut (c : Chip) (k t : Nat) (d : LaneDsp) : LaneDsp × Smp × Nat :=
  let old := c.bankOut d.bank d.fir
  match d.fades with
  | [] => (d, old)
  | f :: r =>
    if t < f.from_ then (d, old)
    else
      let e := c.laneFade k
      let new := c.bankOut f.new d.fir
      let y := fadeOut e f.n old.1 new.1
      (if f.n + 1 < 2 ^ e then { d with fades := { f with n := f.n + 1 } :: r } else { d with bank := f.new, fades := r }, y, old.2 + new.2)

/-- An FM lane takes the output sample of time `t`: multiplex, pilot tracker, RDS reference and bits, noise (R136 to R139, R230). -/
def LaneDsp.fmStep (d : LaneDsp) (cfg t : Nat) (locked : Bool) (y : Smp) : LaneDsp × Option (Int × Int) := match d.last with
  | none => ({ d.held t with last := some y }, none)
  | some y' =>
    let m := discriminate y y'
    let p := nco d.pilot.phase.toNat
    let pilot := d.pilot.step (Config.loopGain 0) word19k word20 (rnd 15 (m * p.1))
    let s := nco d.rds.phase.toNat
    let own := d.rds.step (Config.loopGain 1) word57k (3 * word20) (rnd 15 (m * s.1) * (if 0 ≤ m * s.2 then 1 else -1))
    let rds : PllSt := if locked then { phase := 3 * pilot.phase % (2 ^ 32 : Nat), freq := 3 * pilot.freq } else own
    let line := pushN 127 m d.mpx
    let z := rnd 16 (firReal (fun i => (Config.noiseBand i).toInt) 127 line)
    let a := d.acc
    let bits := d.rdsBits.step t m d.rds.phase.toNat ((rds.phase - d.rds.phase) % (2 ^ 32 : Nat)).toNat
    ({ d with last := some y, pilot := pilot, rds := rds, rdsBits := bits, mpx := line, demDet := d.demDet.step (cfg / 65536) m.natAbs
              corr := d.corr.step t line
              acc := { a with n := a.n + 1, noise := a.noise + z.natAbs * z.natAbs, pilotI := a.pilotI + m * p.1, pilotQ := a.pilotQ + m * p.2 } },
      some (m, (nco (2 * d.pilot.phase.toNat)).2))

/-- An AM lane takes an output sample: carrier mean, envelope, carrier loop, output and quadrature (R153, R154). `env`: envelope detection is in use. -/
def LaneDsp.amStep (d : LaneDsp) (cfg bw : Nat) (env : Bool) (y : Smp) : LaneDsp × Int × Int :=
  let c := carrierStep d.carrier y.mag
  let z := laneMix d.am.phase.toNat y
  let e := argTurn z
  let am := d.am.step (Config.loopGain (2 + bw)) 0 word200 (rnd 16 e)
  let oe := amOut ((y.mag : Int) * 65536 - c) c
  let os := amOut (z.1 * 65536 - c) c
  let (new, old) := if env then (oe, os) else (os, oe)
  let v := if d.amFade = 0 then new else rnd 6 (old * d.amFade + new * (64 - (d.amFade : Int)))
  let err := (rnd 32 e).natAbs
  let a := d.acc
  ({ d with carrier := c, am := am, amFade := d.amFade - 1, demDet := d.demDet.step (cfg / 65536) v.natAbs
            acc := { a with peak := max a.peak v.natAbs, phErr := a.phErr + err * err, phN := a.phN + 1 } }, v, z.2)

/-- A lane output sample: IF detectors, envelope figures and demodulator (R131, R136 to R140, R153). -/
def Chip.laneOut (c : Chip) (k t : Nat) (r : LaneRun) (y : Smp) : LaneRun :=
  let cfg := c.reg (laneA k 0x0A)
  let m := y.mag
  let line := pushN 127 (m : Int) r.d.env
  let h := rnd 16 (firReal (fun i => (Config.envelopeHigh i).toInt) 127 line)
  let a := r.d.acc
  let d := { r.d with first := some (r.d.first.getD t), ifDet := r.d.ifDet.step cfg m, env := line,
                      acc := { a with envN := a.envN + 1, envSum := a.envSum + m, envHigh := a.envHigh + h.natAbs * h.natAbs } }
  let watched := !c.swts.isEmpty
  let at_ := fun (demod : Nat) => c.laneStamp k demod t
  let fes := c.feedLane k
  let attn := fun (i : Nat) => match fes[i]? with | some f => c.attnAt f t | none => 0
  let r := if watched then { r with pts := .lane (at_ 0) y (attn 0) (attn 1) :: r.pts } else r
  if c.laneIsFm k then match d.fmStep cfg t (c.lane k).pilot y with
    | (d, none) => { r with d := d }
    | (d, some v) => { r with d := d, out := (t, v) :: r.out, pts := if watched then .mpx (at_ 128) v.1 :: r.pts else r.pts }
  else if c.laneIsAm k then
    let (d, v, im) := d.amStep cfg (c.reg 0x5185) (c.amEnvelope k) y
    { r with d := d, out := (t, v, 0) :: r.out, pts := if watched then .am (at_ 0) v d.carrier im :: r.pts else r.pts }
  else { r with d := d, out := (t, y) :: r.out }

/-- A half-band stage-3 output counts in the three bands of R141. -/
def LaneDsp.bandStep (d : LaneDsp) (y : Smp) : LaneDsp :=
  let line := pushN 127 y d.st3
  let p := fun (b : Nat) =>
    let z := firComplex (fun i => ((Config.adjacentRe b i).toInt, (Config.adjacentIm b i).toInt)) 127 line
    Smp.power (rnd 16 z.1, rnd 16 z.2)
  let a := d.acc
  { d with st3 := line, acc := { a with bands := (a.bands.1 + p 0, a.bands.2.1 + p 1, a.bands.2.2 + p 2) } }

/-- A lane-front output goes through the half-band cascade and the channel FIR (R116, R119); no output leaves before the whole filter span lies after the
restart (R111): pipeline and engine round, 482 counts, come after the front. -/
def Chip.laneBand (c : Chip) (k t : Nat) (r : LaneRun) (x : Smp) : LaneRun :=
  let n := c.laneStages k
  let hb := if r.d.hb.length = n then r.d.hb else List.replicate n { line := [], half := false }
  let (hb, y, third, s) := hbRun (c.laneMin k) 1 hb x
  let d := { r.d with hb := hb }
  let d := match third with | some z => if c.laneIsFm k then d.bandStep z else d | none => d
  let r := { r with d := d, sat := r.sat + s }
  match y with
  | none => r
  | some v =>
    let (d, y, s) := c.channelOut k t { r.d with fir := pushN 127 v r.d.fir }
    let r := { r with d := d, sat := r.sat + s }
    if d.since + c.laneFill k ≤ t + 482 then c.laneOut k t r y else r

/-- The window samples of studio time `t` enter lane `k`: the primary window's and, for a combining lane, the second's (R58, R103 to R106). -/
def Chip.laneStep (c : Chip) (k : Nat) (r : LaneRun) (t : Nat) (x1 x2 : Smp) : LaneRun :=
  let d := { r.d with phase := (r.d.phase + c.reg (laneA k 1)) % 2 ^ 32 }
  if t < d.since then { r with d := d }
  else
    let (q1, y1, s1) := laneFront r.d.phase d.cicA x1
    let (q2, y2, s2) := if c.laneCombines k then laneFront r.d.phase d.cicB x2 else (d.cicB, none, 0)
    let r := { r with d := { d with cicA := q1, cicB := q2 }, sat := r.sat + s1 + s2 }
    match y1, y2 with
    | some y, none => c.laneBand k t r y
    | some y, some z =>
      let w := (weightsAt d.weights t).getD (c.divTarget k)
      let (v, s) := if c.winSrc (c.laneWin k) = 0 then combineOut w y z else combineOut w z y
      c.laneBand k t { r with sat := r.sat + s, pts := if c.swts.isEmpty then r.pts else .front (c.laneStamp k 0 t) y.power z.power v.power :: r.pts } v
    | none, _ => r

/-- The sample of studio time `t` among a window's outputs; zero without one. -/
def sampleAt (l : List (Nat × Smp)) (t : Nat) : Smp := ((l.find? fun o => o.1 == t).map (·.2)).getD (0, 0)

/-- A lane takes the outputs of its windows of the tick, `wins` by window. -/
def Chip.lanePath (c : Chip) (k : Nat) (wins : Tbl (List (Nat × Smp))) : Chip × List (Nat × Int × Int) :=
  let w1 := Tbl.get [] wins (c.laneWin k)
  let w2 := if c.laneCombines k then Tbl.get [] wins (c.laneWin2 k) else []
  let times := (if w1.isEmpty then w2 else w1).map (·.1)
  let r := times.foldl (fun (r : LaneRun) t => c.laneStep k r t (sampleAt w1 t) (sampleAt w2 t)) { d := { (c.lane k).dsp with corr := { (c.lane k).dsp.corr with out := [] } }, out := [], sat := 0, pts := [] }
  let now := c.time.now
  let old := r.d.weights.dropWhile fun e => decide (now < e.1)
  let keep := (r.d.weights.takeWhile fun e => decide (now < e.1)) ++ old.take 2
  let c := (c.modLane k fun l => { l with dsp := { r.d with weights := keep } }).countBy (laneA k 0x0E) r.sat
  (c.each r.pts.reverse fun c p => c.swtLane k p, r.out.reverse)

/-! Audio-grade slots (R144 to R155). -/

/-- A first-order section on both channels. -/
def stereo1 (k : Int × Int × Int) (l r : Int × Int) (x : Int × Int) : (Int × Int) × (Int × Int) × (Int × Int) :=
  let a := section1 k l x.1
  let b := section1 k r x.2
  (a.1, b.1, (a.2, b.2))

/-- A multiplex sample enters an FM slot (R144, R147 to R149): on every eighth, sum and difference, blend, high cut and de-emphasis give a sample at 32 kS/s,
24 bits, where 75 kHz is full scale. -/
def Chip.fmSlotIn (c : Chip) (s : Nat) (d : SlotDsp) (o : Nat × Int × Int) : SlotDsp :=
  let (t, m, ref) := o
  let d := { d with mid := pushN 127 m d.mid, side := pushN 127 (rnd 14 (m * ref)) d.side, count := d.count + 1 }
  if d.count < 8 then d
  else
    let tap := fun i => (Config.slotTap i).toInt
    let full := fun (x : Int) => (x * 8388607 * 2 + 19200 * 65536) / (2 * 19200 * 65536)
    let mid := full (firReal tap 127 d.mid)
    let side := full (firReal tap 127 d.side)
    let b := rnd 8 (side * c.field (fmsA s 0x0A) 0 9)
    let fc := c.field (fmsA s 0x0A) 24 8
    let (hl, hr, x) := if fc = 150 ∨ fc = 0 then (d.hcL, d.hcR, (mid + b, mid - b)) else stereo1 (Config.highCutSection fc) d.hcL d.hcR (mid + b, mid - b)
    let de := c.field (fmsA s 2) 0 2
    let (dl, dr, x) := if de = 0 then (d.deL, d.deR, x) else stereo1 (Config.deemphasis de) d.deL d.deR x
    { d with count := 0, hcL := hl, hcR := hr, deL := dl, deR := dr, fifo := d.fifo ++ [(t, x)] }

/-- A detector sample enters an AM slot (R155): the high-pass, and on every second the low-pass to 32 kS/s, 24 bits. -/
def Chip.amSlotIn (c : Chip) (s : Nat) (d : SlotDsp) (o : Nat × Int × Int) : SlotDsp :=
  let (t, v, _) := o
  let (hp, v) := if c.bit (amsA s 2) 1 then section1 Config.highPass80 d.hp v else (d.hp, v)
  let d := { d with hp := hp, mid := pushN 65 v d.mid, count := d.count + 1 }
  if d.count < 2 then d
  else
    let x := rnd 8 (firReal (fun i => (Config.amTap i).toInt) 65 d.mid)
    { d with count := 0, fifo := d.fifo ++ [(t, x, x)] }

/-- A value on its linear way from `a` to `b` at step `n` of 32. -/
def ramp32 (a b : Int) (n : Nat) : Int := a + (b - a) * (min n 32 : Nat) / 32

/-- The slot's output at instant `t` without a decoded sample: what is left of a ramp-out, then zero (R152). -/
def SlotDsp.quiet (d : SlotDsp) (t : Nat) : SlotDsp :=
  let n := d.rampOut - 1
  { d with rampOut := n, out := d.out ++ [(t, ramp32 0 d.last.1 n, ramp32 0 d.last.2 n)] }

/-- The audio instant `t`: gain, soft mute on its way, saturation to 24 bits, ramp-in (R144, R150, R152). -/
def SlotDsp.instant (path gain mute : Nat) (d : SlotDsp × Nat) (t : Nat) : SlotDsp × Nat := match d.1.fifo with
  | [] => (d.1.quiet t, d.2)
  | (s, l, r) :: rest =>
    if t < s then (d.1.quiet t, d.2)
    else
      let start := d.1.start.getD (s + path)
      let x := { d.1 with fifo := rest, start := some start }
      if t < start then (x.quiet t, d.2)
      else
        let f := ramp32 (Config.gainHalfDb (-(x.muteOld : Int))) (Config.gainHalfDb (-(mute : Int))) (x.muteN + 1)
        let one := fun (v : Int) => satW 24 (rnd 16 (rnd 16 (v * gain) * f))
        let a := one l
        let b := one r
        let y := (ramp32 0 a.1 (x.rampIn + 1), ramp32 0 b.1 (x.rampIn + 1))
        ({ x with rampIn := min 32 (x.rampIn + 1), muteN := min 32 (x.muteN + 1), rampOut := 0, last := y, out := x.out ++ [(t, y)] }, d.2 + a.2 + b.2)

/-- A slot takes its lane's demodulated samples of the tick, and gives its audio samples: one in 1,024 counts. A displaced slot ramps in anew (R159). -/
def Chip.slotPath (c : Chip) (t0 : Nat) (outs : Tbl (List (Nat × Int × Int))) (fm : Bool) (s : Nat) : Chip :=
  let x := c.slot fm s
  let samples := match x.lane with | some k => Tbl.get [] outs k | none => []
  let d := samples.foldl (if fm then c.fmSlotIn s else c.amSlotIn s) { x.dsp with out := [] }
  let instants := ((List.range (c.time.now - t0)).map (t0 + ·)).filter fun t => t % 1024 == 0
  let gain := Config.gainHalfDb (toSigned 8 (c.reg (if fm then fmsA s 7 else amsA s 4)))
  let (d, clips) := instants.foldl (SlotDsp.instant (slotDelay fm) gain x.mute) (d, 0)
  let d := if c.displaced fm s then { d with rampIn := 0 } else d
  if samples.isEmpty && instants.isEmpty then c else (c.modSlot fm s fun y => { y with dsp := d }).countBy (if fm then fmsA s 0x0D else amsA s 7) clips

/-- The signal path over the tick that ends now (log entry 61). -/
def Chip.pathTick (c : Chip) (a b : List Int) : Chip :=
  let now := c.time.now
  let ta := now - a.length / 16
  let tb := now - b.length / 16
  let xa := c.compensate 0 ta a
  let xb := c.compensate 1 tb b
  let one := fun (s : Chip × Tbl (List (Nat × Smp))) (w : Nat) =>
    if s.1.winRuns w && !(if s.1.winSrc w = 0 then xa else xb).isEmpty then
      let (c, o) := if s.1.winSrc w = 0 then s.1.winPath w ta xa else s.1.winPath w tb xb
      (c, Tbl.put s.2 w o)
    else s
  let (c, wins) := (List.range 12).foldl one (c, [])
  let lane := fun (s : Chip × Tbl (List (Nat × Int × Int))) (k : Nat) => let (c, o) := s.1.lanePath k wins; (c, Tbl.put s.2 k o)
  let (c, outs) := if wins.isEmpty then (c, []) else ((List.range 160).filter c.laneRuns).foldl lane (c, [])
  let c := if outs.isEmpty then c else
    let c := c.each (List.range 8) fun c e => c.ensTake e (Tbl.get [] outs (c.ensLane e))
    c.each (List.range 16) fun c n => c.chTake n (Tbl.get [] outs (c.chLane n))
  let t0 := min ta tb
  let c := c.each (List.range 16) fun c s => c.slotPath t0 outs true s
  let c := c.each (List.range 8) fun c s => c.slotPath t0 outs false s
  let prune : FeSt → FeSt := fun f => { f with gains := f.gains.take 1 }
  c.each [0, 1] fun c fe => if (c.fe fe).gains.length ≤ 1 then c else c.modFe fe prune

end Sys2Proof.Machine
end

