-- ==== Sys2Proof/Machine/AudioPort.lean ====
section
/-! DEFINITION. The audio port over a tick: its frames, the Farrow resampler, the programmes with their sources, and the ring, fades and ramps of the linking instances (R157, R159, R282 to R291, R451, R454 to R457). A frame's instant is counted in thirds of a studio count, so that both nominal rates are exact; a read position in 1/3,000,000 counts, so that every slew is (log entry 64). -/

namespace Sys2Proof.Machine

/-! Frames. -/

/-- Thirds of a count per frame of a format: 1,024 counts at 32 kHz, 682 2/3 at 48 kHz. -/
def framePeriod (cfg : Nat) : Nat := if cfg.testBit 2 then 3072 else 2048

/-- The frames of the nominal rate between two instants, oldest first: at its multiples of studio time. -/
def nominalFrames (cfg lo hi : Nat) : List Nat :=
  let p := framePeriod cfg
  ((List.range ((hi - lo) / p + 1)).map fun n => (ceilDiv lo p + n) * p).filter fun t => decide (t < hi)

/-- The frames of a tick in configuration `cfg`: the FS edges that came in where the port is a target, else those of the nominal rate (R453, R454). -/
def portFrames (cfg lo hi : Nat) (fs : List Nat) : List Nat :=
  if cfg.testBit 0 && !cfg.testBit 1 then (fs.map (3 * ·)).filter fun t => decide (lo ≤ t) && decide (t < hi) else nominalFrames cfg lo hi

/-! The resampler (R455). -/

/-- The sample of an audio instant. -/
def lineAt (l : List (Nat × Int × Int)) (t : Int) : Option (Int × Int) := (l.find? fun s => decide ((s.1 : Int) = t)).map (·.2)

/-- The source at read position `p`, in 1/3,000,000 counts: six samples about it, saturated to 24 bits; none where the line does not hold them. -/
def farrow (l : List (Nat × Int × Int)) (p : Int) : Option (Int × Int) :=
  let unit : Int := 1024 * 3000000
  let n := p / unit
  let f := ((p % unit) * 65536 / unit).toNat
  let xs := (List.range 6).filterMap fun (j : Nat) => lineAt l ((n - 2 + (j : Int)) * 1024)
  if xs.length < 6 then none
  else
    let sum := fun (g : Int × Int → Int) => (satW 24 (rnd 16 (firReal (fun j => (Config.farrowTap j f).toInt) 6 (xs.map g)))).1
    some (sum (·.1), sum (·.2))

/-- The position that the frame at `t3` reads: 3,072 counts before it. -/
def framePos (t3 : Nat) : Int := ((t3 * 1000000 : Nat) : Int) - 3072 * 3000000

/-! Linking (R284, R285, R289, R291). -/

/-- y = round((yo (F - i) + yn i) / F), saturated to 24 bits. -/
def fadeSample (len i : Nat) (yo yn : Int) : Int :=
  (satW 24 ((2 * (yo * ((len : Int) - i) + yn * i) + len) / (2 * len))).1

/-- A sample at step `n` of 32 of a ramp from zero. -/
def rampStep (n : Nat) (y : Int × Int) : Int × Int := (ramp32 0 y.1 n, ramp32 0 y.2 n)

/-- e as the ring is read at a frame `dt` thirds of a count after the last: it moves towards what the unit holds at the slew's rate. -/
def Chip.readExtra (c : Chip) (i : Nat) (a : LinkAud) (dt : Nat) : Int :=
  let goal := 3000000 * ((c.follow i).slew.getD (c.fE i))
  let rate := c.reg (lnkA i 4)
  match a.e with
  | none => 3000000 * c.fE i
  | some e =>
    if a.phase ≠ 0 ∨ (c.follow i).change.isSome then e
    else
      let step : Int := (rate * dt : Nat)
      if rate = 0 ∨ (goal - e).natAbs ≤ step.natAbs then goal else if e < goal then e + step else e - step

/-- A frame outside a change: zero while a DAB or DRM member is current or the ring does not hold the position, with a ramp-in after either. -/
def LinkAud.steady (a : LinkAud) (e : Int) (t3 : Nat) : LinkAud × Int × Int := match if a.dig then none else farrow a.ring (framePos t3 - e) with
  | none => ({ a with rampIn := 0 }, (0, 0))
  | some y => ({ a with rampIn := min 32 (a.rampIn + 1) }, rampStep (a.rampIn + 1) y)

/-- The programme of linking instance `i` at the frame of time `t3`. -/
def Chip.linkFrame (c : Chip) (i t3 dt : Nat) : LinkAud × Int × Int :=
  let a := (c.follow i).aud
  let e := c.readExtra i a dt
  let a := { a with e := some e }
  if a.phase = 2 ∧ 3 * a.at_ ≤ t3 then
    let n := (t3 - 3 * a.at_) * c.audRate / 98304000
    if n < a.len then
      let yo := if a.dig then (0, 0) else (farrow a.ring (framePos t3 - e)).getD (0, 0)
      let yn := if a.digInc then (0, 0) else (farrow a.inc (framePos t3 - a.eInc)).getD (0, 0)
      ({ a with rampIn := 32 }, (fadeSample a.len n yo.1 yn.1, fadeSample a.len n yo.2 yn.2))
    else let a := a.switched; a.steady (a.e.getD e) t3
  else if a.phase = 3 then
    if a.rampOut = 0 then let a := { a.switched with rampIn := 0 }; a.steady (a.e.getD e) t3
    else
      let (b, y) := a.steady e t3
      ({ b with rampOut := a.rampOut - 1 }, rampStep (a.rampOut - 1) y)
  else a.steady e t3

/-- The instances that link, by instance, with their programmes. -/
def Chip.linking (c : Chip) : List Nat := (List.range 8).filter fun i => (c.follow i).current.isSome && c.fLinking i

/-- The samples that slot `s` has given its lane's audio in the tick that ends now, newest first. -/
def Chip.slotLine (c : Chip) (s : Nat) : List (Nat × Int × Int) :=
  if 16 ≤ s then []
  else match (c.slot true s).dsp.start with
    | none => []
    | some t => ((c.slot true s).dsp.out.filter fun x => decide (t ≤ x.1) && decide (c.time.now ≤ x.1 + 32000)).reverse

/-- The slots of a linking instance write the tick's samples: the ring holds d seconds at 32 kS/s and what the resampler reaches over. -/
def Chip.linkWrite (c : Chip) (i : Nat) : Chip :=
  let n := 8000 * fRange (c.fDesc i) + 64
  c.modAud i fun a =>
    { a with ring := (c.slotLine a.slot ++ a.ring).take n, inc := if a.phase = 0 ∨ a.digInc then [] else (c.slotLine a.incSlot ++ a.inc).take n }

/-- One frame of every linking instance, and what each gives its programme. While the alarm path holds the programme the output is dropped, and ramps in anew
when it is released (Table 09-6). -/
def Chip.linkFrames (c : Chip) (t3 dt : Nat) : Chip × Tbl (Int × Int) :=
  c.linking.foldl (fun (s : Chip × Tbl (Int × Int)) i =>
    let p := fProg (s.1.fDesc i)
    let (a, y) := s.1.linkFrame i t3 dt
    let a := if s.1.alarmProg p then { a with rampIn := 0 } else a
    (s.1.modAud i fun _ => a, Tbl.put s.2 p y)) (c, [])

/-! Programmes. -/

/-- Where programme `p` comes from: 64 times its AUD_SRC code plus the slot; 0 for none. -/
def Chip.progSource (c : Chip) (p : Nat) : Nat :=
  let src := c.audSource p
  let slot := fun (fm : Bool) (n : Nat) => ((List.range n).find? fun s => c.reg (if fm then fmsA s 1 else amsA s 1) == p && c.reg (if fm then fmsA s 0 else amsA s 0) != 0xFF).getD 0
  if src = 0 then 0 else if src = 1 then 64 + slot true 16 else if src = 2 then 128 + slot false 8 else if src = 4 then 256 + c.almSlot else 192

def Chip.prog (c : Chip) (p : Nat) : ProgSt := Tbl.get ProgSt.reset c.aport.progs p
def Chip.modProg (c : Chip) (p : Nat) (f : ProgSt → ProgSt) : Chip := { c with aport := { c.aport with progs := Tbl.mod ProgSt.reset c.aport.progs p f } }

/-- A programme takes its source's samples of the tick; one that has lost its source ramps out. -/
def Chip.progWrite (c : Chip) (p : Nat) : Chip :=
  let src := c.progSource p
  let code := src / 64
  let x := c.slot (code != 2) (src % 64)
  let new := if code = 0 ∨ code = 3 then [] else (x.dsp.out.filter fun s => decide (c.time.now ≤ s.1 + 32000)).reverse
  c.modProg p fun y => { y with src := src, line := (new ++ if y.src = src then y.line else []).take 64, rampOut := if src = 0 ∧ y.src ≠ 0 then 32 else if src = 0 then y.rampOut else 0 }

/-- The frame of time `t3` of programme `p`; `links` are the frames of the linking instances. -/
def Chip.progFrame (c : Chip) (links : Tbl (Int × Int)) (t3 p : Nat) : Chip × Int × Int :=
  let x := c.prog p
  if x.src = 0 then
    let n := x.rampOut - 1
    (c.modProg p fun x => if n = 0 then ProgSt.reset else { x with rampOut := n }, rampStep n x.last)
  else
    let y := if x.src / 64 = 3 then Tbl.get (0, 0) links p else (farrow x.line (framePos t3)).getD (0, 0)
    (c.modProg p fun x => { x with last := y }, y)

/-! The port. -/

/-- The line of AUD_DO and the first channel that carry programme `p` in a format (R157). -/
def audPort (cfg p : Nat) : Option (Nat × Nat) :=
  if cfg.testBit 3 then (if p < 8 then some (p / 4, 2 * (p % 4)) else none) else if p < 2 then some (p, 0) else none

/-- A slot of a line: 24 bits, most significant first, and 8 zero bits (R451). -/
def slotWord (y : Int) : Word := w32 (ofSigned 24 y * 256)

/-- One frame of the port: every programme's sample, under the port's own ramps, on its line; a line carries zero while the port is not running (R454, R457). -/
def Chip.portFrame (cfg : Nat) (c : Chip) (t3 : Nat) : Chip :=
  let dt := min (t3 - c.aport.last3) 96000
  let (c, links) := c.linkFrames t3 dt
  let on := cfg.testBit 0
  let out := decide (0 < c.aport.left)
  let run := on && (out || c.reg 0x641 == 2)
  let n := if out then c.aport.left - 1 else if run then min 32 (c.aport.rampIn + 1) else 0
  let one := fun (c : Chip) (p : Nat) =>
    let (c, y) := c.progFrame links t3 p
    match audPort cfg p with
    | some (line, ch) =>
      let z := if run then rampStep n y else (0, 0)
      if on then { c with audio := Tbl.put c.audio (8 * line + ch) (Tbl.get [] c.audio (8 * line + ch) ++ [(slotWord z.1, slotWord z.2)]) } else c
    | none => c
  let c := c.each (List.range 8) one
  { c with aport := { c.aport with last3 := t3, left := c.aport.left - 1, rampIn := if out then 0 else if run then n else 0 } }

/-- The audio port over the tick that ends now. A new AUD_CFG first ramps the programmes out over 32 frames of the old one, as far as its frame clock runs (R457). -/
def Chip.audioTick (c : Chip) (fs : List Nat) : Chip :=
  let hi := 3 * c.time.now
  let lo := max (if c.aport.last3 < hi then c.aport.last3 + 1 else 0) (hi - 96000)
  let links := c.linking
  let idle := !c.bit 0x640 0 && !c.aport.cfg.testBit 0 && links.isEmpty
  if idle then { c with audio := [], aport := { PortSt.reset with cfg := c.reg 0x640 } }
  else
    let c := (c.each links Chip.linkWrite).each (List.range 8) Chip.progWrite
    let old := c.aport.cfg
    let c : Chip := { c with audio := [] }
    let c : Chip := if old ≠ c.reg 0x640 ∧ c.aport.left = 0 ∧ old.testBit 0 then { c with aport := { c.aport with left := 32 } } else c
    let out := (portFrames old lo hi fs).take c.aport.left
    let c := c.each out (Chip.portFrame old)
    if 0 < c.aport.left ∧ ¬ out.isEmpty then c
    else
      let cfg := c.reg 0x640
      let c : Chip := { c with aport := { c.aport with cfg := cfg, left := 0 } }
      c.each (portFrames cfg (if out.isEmpty then lo else c.aport.last3 + 1) hi fs) (Chip.portFrame cfg)

end Sys2Proof.Machine
end

