-- ==== Sys2Proof/Machine/Write.lean ====
section
/-! DEFINITION. Parameter writes and reads: the access codes (R11), reserved bits (R10, R572), the refusals of the Meaning columns, where each write takes effect, and what it does when it comes into force (R429, R430, R438, and the parameter rule of each chapter). -/

namespace Sys2Proof.Machine

/-! Refused values, by page. Every argument is a field as its table gives it. -/

/-- `v` lies outside `lo` to `hi`. -/
def outside (lo hi v : Nat) : Bool := decide (v < lo) || decide (hi < v)

/-- A signed field of `w` bits lies outside `lo` to `hi`. -/
def outsideInt (w : Nat) (lo hi : Int) (v : Nat) : Bool := decide (toSigned w v < lo) || decide (hi < toSigned w v)

/-- Page 0x02 (R387, Table 12-13). -/
def clkBad (o v : Nat) : Bool :=
  let p := if o < 0x30 then o % 16 else o
  if p = 1 ∨ p = 6 then v == 0
  else if p = 2 then decide (v < 16)
  else if p = 4 then outside 1 256 v
  else if p = 0x30 then decide (v < 4)
  else if p = 0x37 then outside 1 250 v
  else if p = 0x38 then outside 1 10000 v
  else false

/-- The active map holds an STR partition without the retain bit, or CLK_AO_FAIL is set: Sketch mode is refused (R378). -/
def Chip.sketchBad (c : Chip) : Bool := ((c.partsOf 1).any fun p => !dRetain (c.desc p)) || c.reg 0x23C == 1

/-- Page 0x03 (R378, R387, Table 12-14). -/
def Chip.pwrBad (c : Chip) (o v : Nat) : Bool :=
  if o = 0 then v == 3 || (v == 1 && c.sketchBad)
  else if o = 4 then decide (v < 2)
  else if o = 5 ∨ o = 6 ∨ o = 7 then v == 0
  else if o = 0x0A then decide (v < 64)
  else false

/-- The legacy job of V1_TUNE is held. -/
def Chip.v1Held (c : Chip) : Bool := match c.bus.v1Job with
  | some j => (c.job? j).isSome
  | none => false

/-- Page 0x05 (R438, Table 14-8). -/
def Chip.hbBad (c : Chip) (o v : Nat) : Bool :=
  if o = 2 ∨ o = 6 then v == 0
  else if o = 4 then decide (20000 < v)
  else if o = 5 then outside 1 20000 v
  else if o = 7 then decide (v < 5)
  else if o = 9 then (outside 0 159 v && v != 0xFF) || c.v1Held
  else if o = 0x0A then (outside 0 15 v && v != 31) || c.v1Held
  else false

/-- Pages 0x08 and 0x09 (R71, Table 02-7). -/
def Chip.feBad (c : Chip) (a v : Nat) : Bool :=
  let o := a % 256
  if o = 2 then v == 3
  else if o = 4 then v == 31
  else if o = 5 then outside 12 60 v
  else if o = 7 ∨ o = 0x0A ∨ o = 0x0B ∨ o = 0x22 then v == 0
  else if o = 8 then decide (c.view (a + 1) < v)
  else if o = 9 then decide (v < c.view (a - 1))
  else if o = 0xE1 then decide (10 < v)
  else false

/-- Page 0x0A (R403, Table 13-3). -/
def calBad (o v : Nat) : Bool :=
  if o = 1 then decide (v < 64) else if o = 2 ∨ o = 3 ∨ o = 4 ∨ o = 6 ∨ o = 7 then v == 0 else false

/-- Page 0x0B (R322, Table 10-11). -/
def swtBad (o v : Nat) : Bool :=
  if o = 0x0B then decide (100 < v) else if o = 0x10 ∨ o = 0x11 then outsideInt 16 (-2000) 2000 v else false

/-- Page 0x0C below offset 0x60 (R265, Table 08-14). -/
def Chip.galBad (c : Chip) (o v : Nat) : Bool :=
  if o = 0x21 then !handleOk v else
  if o = 2 ∨ o = 4 ∨ o = 0x31 ∨ o = 0x32 ∨ o = 0x33 then v == 0
  else if o = 0x10 then decide (5 < bits v 0 3)
  else if o = 0x11 then outside 1 50 v
  else if o = 0x37 then outside 0 7 v && v != 15
  else if o = 0x38 then (outside 0 15 v && v != 31) || (decide (v < 16) && c.view (fmsA v 0) != 0xFF && c.view 0xC38 != v)
  else false

/-- Page 0x0C from offset 0x60 (R296, Tables 09-9 and 09-10). -/
def followBad (o v : Nat) : Bool :=
  if o < 0x70 then
    if o = 0x64 then decide (1000 < v) else if o = 0x66 ∨ o = 0x68 then v == 0 else if o = 0x67 then decide (v < 2048) else false
  else
    let p := (o - 0x70) % 18
    if p = 0 then bits v 5 2 == 3 || bits v 8 4 == 0
    else if p = 1 then bits v 0 16 == 0
    else if p = 2 then decide (4000 < bits v 0 13) || decide (4000 < bits v 16 13)
    else if p = 3 then outside 256 12000 v
    else if p = 4 then decide (20000 < v)
    else if p = 5 then decide (bits v 0 16 < 128) || decide (bits v 16 16 < 32)
    else false

/-- Page 0x0E (R537, Table 18-3). -/
def dacBad (o v : Nat) : Bool :=
  if o % 16 = 3 then decide (bits v 16 16 < bits v 0 16) else if o % 16 = 6 then decide (0x66666666 < v) else false

/-- Pages 0x20 to 0x27 (R200, Table 06-12). -/
def dabBad (o v : Nat) : Bool :=
  if o = 5 then decide (32 < v)
  else if o = 6 then decide (200 < v)
  else if o = 7 ∨ o = 8 ∨ o = 9 then v == 0
  else if o = 0x0A then v == 7
  else if o = 0x0B then bits v 4 3 == 7 || decide (bits v 8 8 < 2 ^ bits v 4 3)
  else false

/-- Pages 0x28 to 0x2F (R229, Table 07-11). -/
def drmBad (o v : Nat) : Bool :=
  if o = 6 then outside 1 4000 v
  else if o = 7 then outside 2 6 (bits v 4 3)
  else if o = 8 ∨ o = 9 then v == 0
  else false

/-- Audio-grade slots (R151, R161, Tables 05-4 and 05-5). -/
def fmsBad (o v : Nat) : Bool :=
  if o = 2 then bits v 0 2 == 3 || decide (8 < bits v 8 4)
  else if o = 3 then decide (bits v 8 8 ≤ bits v 0 8) || bits v 16 8 == 0 || bits v 24 8 == 0
  else if o = 4 then decide (96 < bits v 16 8)
  else if o = 5 then decide (bits v 8 8 ≤ bits v 0 8) || outside 10 149 (bits v 16 8)
  else if o = 7 then outsideInt 8 (-48) 24 v
  else false

def amsBad (o v : Nat) : Bool :=
  if o = 3 then decide (96 < bits v 16 8) else if o = 4 then outsideInt 8 (-48) 24 v else false

/-- Common demodulator parameters (Table 05-6). -/
def Chip.dmdBad (c : Chip) (o v : Nat) : Bool :=
  if o = 0x80 then decide (toSigned 16 v < toSigned 16 (c.view 0x5181))
  else if o = 0x81 then decide (toSigned 16 (c.view 0x5180) < toSigned 16 v)
  else if o = 0x82 then v == 0
  else if o = 0x83 then decide (v ≤ c.view 0x5184)
  else if o = 0x84 then decide (c.view 0x5183 ≤ v)
  else false

/-- A plain parameter's write is refused with BAD_PARAMETER for its value. -/
def Chip.badValue (c : Chip) (a v : Nat) : Bool :=
  let page := a / 256
  let o := a % 256
  if a = 0x109 then decide (v < 64)
  else if page = 0x02 then clkBad o v
  else if page = 0x03 then c.pwrBad o v
  else if a = 0x409 then v == 0
  else if page = 0x05 then c.hbBad o v
  else if a = 0x601 then c.reg 0x600 == 1 || outside 1 64 v
  else if page = 0x07 then
    if a = 0x703 then decide (v < 2) else if 0x7C0 ≤ a ∧ o % 4 = 2 then decide (100 < v) else false
  else if page = 0x08 ∨ page = 0x09 then c.feBad a v
  else if page = 0x0A then calBad o v
  else if page = 0x0B then swtBad o v
  else if page = 0x0C then if o < 0x60 then c.galBad o v else followBad o v
  else if page = 0x0D then c.lnkBad a v
  else if page = 0x0E then dacBad o v
  else if a = 0xF04 then v == 0
  else if 0x10 ≤ page ∧ page ≤ 0x1B then o == 0x17 && v == 0
  else if 0x20 ≤ page ∧ page ≤ 0x27 then dabBad o v
  else if 0x28 ≤ page ∧ page ≤ 0x2F then drmBad (o % 128) v
  else if page = 0x50 then fmsBad (o % 16) v
  else if page = 0x51 then if o < 0x80 then amsBad (o % 16) v else c.dmdBad o v
  else false

/-! The test of Table 11-10 on the declared drain. -/

/-- Every held job's reservation under the parameters in force, and whether one cannot be met. -/
def Chip.reserved (c : Chip) : List (Nat × Option Nat) :=
  c.jobs.map fun e =>
    let k := c.cost e.2.desc
    (e.1, if !emits e.2.desc then some 0 else if dClass e.2.desc = 0 ∧ (c.allowance e.2.desc k).isNone then none else some (c.rateOf e.2.desc k))

/-- A held reservation is broken under the parameters in force (R339, R340). -/
def Chip.reservationBroken (c : Chip) : Bool :=
  let rs := c.reserved
  let ts := (c.tick + 1) :: c.jobs.map fun e => e.2.start
  let passed := fun t =>
    let js := c.jobs.filter fun e => e.2.holds t false && emits e.2.desc
    let v := sumList (js.map fun e => (Tbl.get (some 0) rs e.1).getD 0) + c.standRate
    let w := sumList (js.map fun e => e.2.wBurst) + c.standBurst
    !js.isEmpty && (decide (c.capacity < v) || decide (c.strBytes < c.bufferNeed v w))
  (rs.any fun e => e.2.isNone) || ts.any passed

/-- SCH_DRAIN_RATE, SCH_DRAIN_STALL and SCH_CAP_RATE (R353, Table 11-10). -/
def Chip.wrSched (c : Chip) (a v : Nat) : WRes :=
  if (a = 0x701 ∧ 1024 < v) ∨ (a ≠ 0x701 ∧ outside 1 262144 v = true) then c.no rBad
  else
    let next := [0x700, 0x701, 0x702].foldl (fun d x => d.put x (if x = a then v else c.view x)) c
    if next.reservationBroken then c.no rNoCapacity else (c.stage a v).yes

/-- One of them comes into force, where it still breaks no reservation: the reservations follow it (R338). -/
def Chip.applySched (c : Chip) (a v : Nat) : Chip :=
  let d := c.put a v
  if d.reservationBroken then c
  else
    let rs := d.reserved
    let d := d.each rs fun d e => d.modJob e.1 fun x =>
      { x with rate := e.2.getD x.rate, mean := if dKind x.desc = 8 then (d.cost x.desc).mean else x.mean
               allowance := if emits x.desc ∧ dClass x.desc = 0 then (d.allowance x.desc (d.cost x.desc)).getD x.allowance else x.allowance }
    d.refreshSched

/-! Writes that do more than store a value. -/

/-- The bits of a command parameter, in order: the first refusal refuses the whole write. What a refused bit leaves behind (FE_INJ_STATUS, R66) stays
where no earlier bit has acted. -/
def runBits (c : Chip) (acted : Bool) : List (Bool × (Chip → WRes)) → Chip → WRes
  | [], d => d.yes
  | (b, f) :: r, d =>
    if b then
      let (reason, e) := f d
      if reason = 0 then runBits c true r e else if acted then c.no reason else (reason, e)
    else runBits c acted r d

/-- WIN_CAP_CTRL (R95, R96, R99). -/
def Chip.wrCapCtrl (c : Chip) (w v : Nat) : WRes :=
  runBits c false [(v.testBit 0, fun d => d.capArm w), (v.testBit 1, fun d => (d.capTrigger w (d.capCauses w 0 d.time.now) true).yes), (v.testBit 2, fun d => d.capExport w),
             (v.testBit 3, fun d => d.capRelease w)] c

/-- FE_INJ_CTRL as a plain write; the level measured at a stop is the world's (R68). -/
def Chip.wrInjCtrl (c : Chip) (fe v : Nat) : WRes :=
  let (l, d) := if v.testBit 1 then c.freeWord else (0, c)
  runBits c false [(v.testBit 0, fun d => d.injStart fe), (v.testBit 1, fun d => d.injStopWrite fe (toSigned 16 l.toNat))] d

/-- DAC_SINE_CTRL (R533). -/
def Chip.wrSineCtrl (c : Chip) (ch v : Nat) : WRes := runBits c false [(v.testBit 0, fun d => d.sineStart ch), (v.testBit 1, fun d => d.sineStop ch)] c

/-- STR_EN (R442): a write of 0 is refused while a job that emits records is held. -/
def Chip.wrStrEn (c : Chip) (v : Nat) : WRes :=
  if v = 0 ∧ c.jobs.any (fun e => emits e.2.desc) then c.no rBad else (c.stage 0x600 v).yes

/-- STR_EN comes into force (R442). -/
def Chip.applyStrEn (c : Chip) (v : Nat) : Chip :=
  if v = 1 then
    let c := ((c.syncOwed.put 0x600 1).stepGenAt 0x606).put 0x602 (512 * c.reg 0x601)
    if c.reg 0x604 = 0 then c.put 0x604 1 else c
  else
    let c := c.syncOwed.put 0x600 0
    { c with out := { c.out with failing := none, starved := false } }.put 0x604 0

/-- AUD_CFG comes into force (R451 to R457): the generation steps, every programme ramps out, and the port restarts; as a master it runs at once. -/
def Chip.applyAudCfg (c : Chip) (v : Nat) : Chip :=
  if c.reg 0x640 = v then c
  else
    let c := (c.put 0x640 v).stepGenAt 0x644
    (c.put 0x641 (if !v.testBit 0 then 0 else if v.testBit 1 then 2 else 1)).put 0x642 0

/-- PWR_MODE comes into force at a boundary (R377, R378, R385); while XO32K has failed, deep sleep is not entered (R356). -/
def Chip.applyPwrMode (c : Chip) (v : Nat) : Chip :=
  let c := c.put 0x300 v
  if v = 2 then if c.reg 0x23C = 1 then c else { c.put 0x301 4 with power := { c.power with deepPending := true } }
  else if v = 1 then if c.reg 0x301 = 0 then c.put 0x301 1 else c
  else c.put 0x301 0

/-- A lane's parameters (R108 to R113, R123, R133, R268). -/
def Chip.wrLane (c : Chip) (k o v : Nat) : WRes :=
  let held := c.laneHeld k || c.laneSecond k
  if o = 0 then
    if held || outside 0 11 (bits v 0 4) && bits v 0 4 != 15 || outside 0 11 (bits v 4 4) && bits v 4 4 != 15 then c.no rBad else (c.putSrc k v).yes
  else if o = 1 then
    if decide (0x66580000 < (toSigned 32 v).natAbs) || c.laneSecond k || c.followLane k then c.no rBad
    else if c.laneHeld k && (c.lane k).started then (c.stage (laneA k 1) v).yes
    else (c.put (laneA k 1) v).yes
  else if o = 2 then
    if held || bits v 0 3 == 7 || outside 4 10 (bits v 4 4) then c.no rBad else (c.put (laneA k 2) v).yes
  else if o = 3 then
    if held then c.no rBad else ((c.put (laneA k 3) v).modLane k fun l => { l with actB := false }).yes
  else if o = 4 then
    if c.bankBad k v then c.no rBad else (c.bankRequest k v).yes
  else (c.stage (laneA k o) v).yes

/-- Write 0 to clear (R11, Table 00-3). -/
def Chip.wrClear (c : Chip) (a v : Nat) : WRes := if v = 0 then (c.put a 0).yes else c.no rBad

/-- The counters whose SAT bits the parameter at `a` holds, each with its bit. -/
def satCounters (a : Nat) : List (Nat × Nat) :=
  if a = 0x10A ∨ a = 0x10B then (List.range 32).map fun i => (i, 0x140 + 32 * (a - 0x10A) + i)
  else (blockOf a).1.filterMap fun r => match r.sat with
    | some (o, b) => if blockBase a + o = a then some (b, blockBase a + r.off) else none
    | none => none

/-- A write of 1s to a W1C parameter (R11, R561, R565): pending bits clear; a SAT bit clears with its counter. -/
def Chip.clearBits (c : Chip) (a v : Nat) : Chip :=
  let c := c.put a (c.reg a &&& (0xFFFFFFFF - v))
  if a = 0x100 ∨ a = 0x101 ∨ a = 0x104 then c
  else
    let c := c.each (satCounters a) fun c e => if v.testBit e.1 then c.put e.2 0 else c
    if 0x20 ≤ a / 256 ∧ a / 256 ≤ 0x27 ∧ v.testBit 4 then
      c.each (c.mscOn (c.ensLane (a / 256 - 0x20))) fun c j => c.setMsc j { c.msc j with failCnt := 0 }
    else c

/-- A write of an event mask, record enable or gap (R562, R570): in force at once; raises made before a record enable is set are not covered. -/
def Chip.wrEvt (c : Chip) (a v : Nat) : WRes :=
  let old := c.reg a
  let c := c.put a v
  let base := if a = 0x106 then 0 else if a = 0x107 then 32 else 64
  if a = 0x106 ∨ a = 0x107 ∨ a = 0x108 then
    { c with ev := { c.ev with recs := c.ev.recs.filter fun e => !(decide (base ≤ e.1) && decide (e.1 < base + 32) && v.testBit (e.1 - base) && !old.testBit (e.1 - base)) } }.yes
  else c.yes

/-- Page 0x05 (R424, R438): HB_ATN_EN at once, the others at the first STOP after the reply has been read. -/
def Chip.wrBus (c : Chip) (a v : Nat) : WRes :=
  if a = 0x503 then if v = 1 ∧ c.reg 0x501 ≠ 3 then c.no rNotNegotiated else (c.put a v).yes
  else { c with bus := { c.bus with staged := Tbl.put c.bus.staged a (w32 v) } }.yes

/-- A write to a parameter of access RW, RWS or WO, its field taken (R10, R572). -/
def Chip.wrValue (c : Chip) (a v : Nat) : WRes :=
  let page := a / 256
  let o := a % 256
  if 0x700 ≤ a ∧ a ≤ 0x702 then c.wrSched a v
  else if a = 0xD01 then c.wrLnkCfg v
  else if a = 0xD02 then c.wrLnkFreq v
  else if c.badValue a v then c.no rBad
  else if a = 0xC21 ∧ hLevel v = 3 ∧ ¬ c.laneHeld (hLane v) then c.no rStopped
  else if page = 0x01 then c.wrEvt a v
  else if page = 0x05 then c.wrBus a v
  else if a = 0x600 then c.wrStrEn v
  else if a = 0x7B0 then c.wrCommit v
  else if 0x7C0 ≤ a ∧ a < 0x800 then (c.put a v).yes
  else if (page = 0x08 ∨ page = 0x09) ∧ o = 0x20 then c.wrInjCtrl (page - 8) v
  else if a = 0xA00 then c.wrCalCtrl v
  else if a = 0xB09 then c.wrLogRd v
  else if a = 0xC05 then c.wrGalCtrl v
  else if page = 0x0C ∧ 0x70 ≤ o ∧ (o - 0x70) % 18 = 15 then c.wrForce ((o - 0x70) / 18) v
  else if page = 0x0E ∧ o < 0x40 then
    if o % 16 = 0 then c.wrDacCode (o / 16) v
    else if o % 16 = 1 then c.wrDacRange (o / 16) v
    else if o % 16 = 5 then c.wrSineCtrl (o / 16) v
    else (c.stage a v).yes
  else if 0x10 ≤ page ∧ page ≤ 0x1B then
    let w := page - 0x10
    if o = 0 then c.wrCentre w v
    else if o = 1 then c.wrSrc w v
    else if o = 8 then c.wrExport w v
    else if o = 0x10 then c.wrCapCtrl w v
    else (c.put a v).yes
  else if 0x40 ≤ page ∧ page ≤ 0x49 then c.wrLane ((a - 0x4000) / 16) (o % 16) v
  else if page = 0x50 ∧ o % 16 = 0 then c.wrFmsLane (o / 16) v
  else if page = 0x50 ∧ o % 16 = 1 then c.wrFmsDest (o / 16) v
  else if page = 0x51 ∧ o < 0x80 ∧ o % 16 = 0 then c.wrAmsLane (o / 16) v
  else if page = 0x51 ∧ o < 0x80 ∧ o % 16 = 1 then c.wrAmsDest (o / 16) v
  else (c.stage a v).yes

/-- One parameter write (R10, R11, R430, R572, R573): the reason, and the chip after it. A bank request names its bank with the whole value: one above 63
is refused (R123). -/
def Chip.writeParam (c : Chip) (a v : Nat) : WRes := match rowAt a with
  | none => c.no rBad
  | some r =>
    let v := if 0x4000 ≤ a ∧ a < 0x4A00 ∧ a % 16 = 4 then v else v &&& r.mask
    match r.acc with
    | .ro => c.no rBad
    | .rs => if r.clr then c.wrClear a v else c.no rBad
    | .w1c => (c.clearBits a v).yes
    | .rw => c.wrValue a v
    | .wo => c.wrValue a v
    | .rws => c.wrValue a v

/-! Reading (R11, R429, R569, R572). -/

/-- The blocks that a Sketch sleep stops: windows, lanes, demodulators, slots, Swatch unit, ports, side-data decoders, the following unit, front ends and converters (Table 12-5). -/
def sleepsAt (a : Nat) : Bool :=
  let page := a / 256
  page == 0x06 || decide (0x7A0 ≤ a ∧ a < 0x800) || page == 0x08 || page == 0x09 || page == 0x0B || decide (0xC10 ≤ a ∧ a < 0xC20) ||
    decide (0xC60 ≤ a ∧ a < 0xD00) || decide (0x10 ≤ page)

/-- The field that a read of a parameter returns, computed where no register holds it: the value in force (Table 00-3), which in a sleeping block is that of its last tick boundary awake (R374). -/
def Chip.current (c : Chip) (a : Nat) : Nat :=
  let page := a / 256
  let o := a % 256
  if a = 0 then 0x4180 + Config.siliconStep.toNat * 65536 + Config.romVersion.toNat * 2 ^ 24
  else if a = 0x709 then c.tick % 2 ^ 32
  else if a = 0x645 then c.audSrc
  else if a = 0x7B2 then c.cnvFree
  else if 0x40 ≤ page ∧ page ≤ 0x49 ∧ o % 16 = 5 then c.laneStatus ((a - 0x4000) / 16)
  else if 0x40 ≤ page ∧ page ≤ 0x49 ∧ o % 16 = 7 then c.laneDelay ((a - 0x4000) / 16)
  else if 0x40 ≤ page ∧ page ≤ 0x49 ∧ o % 16 = 8 then c.laneCost ((a - 0x4000) / 16)
  else if page = 0x50 ∧ o % 16 = 8 then c.fmsStatus (o / 16)
  else if page = 0x51 ∧ o < 0x80 ∧ o % 16 = 5 then c.amsStatus (o / 16)
  else if 0x28 ≤ page ∧ page ≤ 0x2F ∧ o % 128 = 0x0C ∧ c.chState ((a - 0x2800) / 128) < 4 then 0
  else if 0x20 ≤ page ∧ page ≤ 0x27 ∧ 0x80 ≤ o then c.dabSc (page - 0x20) ((o - 0x80) / 4) (o % 4)
  else c.reg a

/-- What PARAM_READ returns for an address: WO reads zero, a signed field narrower than 32 bits is sign-extended; `none` for a reserved offset. -/
def Chip.readParam (c : Chip) (a : Nat) : Option Word := match rowAt a with
  | none => none
  | some r =>
    if r.acc = .wo then some 0
    else
      let v := c.current a &&& r.mask
      some (if r.sgn = 0 then w32 v else w32 (ofSigned 32 (toSigned r.sgn v)))

/-! Coming into force at a tick boundary (R32). -/

/-- Parameters whose coming into force does more than store them. -/
def special (a : Nat) : Bool :=
  let page := a / 256
  let o := a % 256
  a == 0x300 || a == 0x40B || a == 0x235 || a == 0x600 || a == 0x640 || (page == 0x07 && decide (o < 3)) ||
    ((page == 0x08 || page == 0x09) && (o == 0 || o == 2 || o == 4 || o == 0x20)) || a == 0xA00 || a == 0xB09 || a == 0xB0B || a == 0xC05 ||
    a == 0xD01 || a == 0xD02 || (page == 0x0E && decide (o < 0x40) && o % 16 == 1) ||
    (decide (0x10 ≤ page) && decide (page ≤ 0x1B) && decide (o < 2)) || (decide (0x40 ≤ page) && decide (page ≤ 0x49) && o % 16 == 1) ||
    (page == 0x50 && o % 16 == 0) || (page == 0x51 && decide (o < 0x80) && o % 16 == 0)

/-- A window's centre and source come into force together (R79, R80, R82). -/
def Chip.applyWindow (c : Chip) (w : Nat) (centre src : Option Nat) : Chip := match centre, src with
  | some v, some s =>
    if c.winSrc w = s then c.applyCentre w v
    else
      let moved := c.reg (winA w 0) != v
      let c := ((c.put (winA w 0) v).modWin w fun x => { x with phaseAt := c.tick, dsp := { x.dsp with phase := 0 } }).applySrc w s
      if moved && c.winRuns w then c.winRestart w true false else c
  | some v, none => c.applyCentre w v
  | none, some s => c.applySrc w s
  | none, none => c

/-- A front end's mode and manual attenuation come into force together (R47, R52). -/
def Chip.applyGain (c : Chip) (fe : Nat) (mode man : Option Nat) : Chip := match mode, man with
  | some m, some v => if c.reg (feA fe 2) = m then c.applyAttnMan fe v else (c.put (feA fe 4) v).applyAgcMode fe m
  | some m, none => c.applyAgcMode fe m
  | none, some v => c.applyAttnMan fe v
  | none, none => c

/-- FE_PATH_EN comes into force: the converter's windows restart with its generation step (R35, R41, R80). -/
def Chip.applyPath (c : Chip) (fe v : Nat) : Chip := (c.applyPathEn fe v).refreshWins fe true true false

/-- A special parameter comes into force, but for those that `applyWindow`, `applyGain` and the link take. -/
def Chip.applySpecial (c : Chip) (a v : Nat) : Chip :=
  let page := a / 256
  let o := a % 256
  if a = 0x300 then c.applyPwrMode v
  else if a = 0x40B then if v = 1 then { c with boot := { c.boot with jask := true } } else c
  else if a = 0x235 then c.applyRate v
  else if a = 0x600 then c.applyStrEn v
  else if a = 0x640 then c.applyAudCfg v
  else if page = 0x07 then c.applySched a v
  else if (page = 0x08 ∨ page = 0x09) ∧ o = 0 then c.applyPath (page - 8) v
  else if (page = 0x08 ∨ page = 0x09) ∧ o = 0x20 then if v.testBit 0 then c.injBegin (page - 8) else c
  else if a = 0xA00 then c.applyCalCtrl v
  else if a = 0xB09 then c.applyLogRd v
  else if a = 0xB0B then (c.put a v).logChanged
  else if a = 0xC05 then c.applyGalCtrl v
  else if a = 0xD01 then c.applyLnkCfg v
  else if page = 0x0E then c.applyDacRange (o / 16) v
  else if page = 0x50 then c.applySlotLane true (o / 16) v
  else if page = 0x51 then c.applySlotLane false (o / 16) v
  else if 0x40 ≤ page ∧ page ≤ 0x49 then c.retuneLane ((a - 0x4000) / 16) v
  else c

/-- The writes that wait for this boundary: LNK_FREQ waits for a frame's end (R514), the demodulators' parameters for the next frame
boundary where frames come (R200, R229), and those of a sleeping block for its wake (R374). -/
def Chip.dueNow (c : Chip) (a : Nat) : Bool :=
  let page := a / 256
  a != 0xD02 && !(c.blocksAsleep && sleepsAt a) &&
    !(decide (0x20 ≤ page) && decide (page ≤ 0x27) && c.ensRuns (page - 0x20) && decide (3 ≤ c.ensState (page - 0x20))) &&
    !(decide (0x28 ≤ page) && decide (page ≤ 0x2F) && c.chRuns ((a - 0x2800) / 128) && decide (3 ≤ c.chState ((a - 0x2800) / 128)))

/-- The pending writes take effect at a tick boundary, together (R32). -/
def Chip.applyWrites (c : Chip) : Chip :=
  let due := c.staged.filter fun e => c.dueNow e.1
  let c : Chip := { c with staged := c.staged.filter fun e => !c.dueNow e.1 }
  let get := fun a => (Tbl.find due a).map BitVec.toNat
  let plain := due.filter fun e => !special e.1
  let follow := plain.any fun e => decide (0xC61 ≤ e.1 ∧ e.1 < 0xD00)
  let c := c.each plain fun c e => c.put e.1 e.2.toNat
  let c := if follow then c.stepGenAt 0xC6F else c
  let c := c.each (List.range 12) fun c w => c.applyWindow w (get (winA w 0)) (get (winA w 1))
  let c := c.each [0, 1] fun c fe => c.applyGain fe (get (feA fe 2)) (get (feA fe 4))
  let c := c.each (due.filter fun e => special e.1) fun c e => c.applySpecial e.1 e.2.toNat
  c.applyLnkFreq.refreshDiv.reweighAll

end Sys2Proof.Machine
end

