-- ==== Sys2Proof/Machine/Sleep.lean ====
section
/-! DEFINITION. Power domains, the glimpse plan of Sketch mode, sleep and wake, and what a reset or a deep sleep leaves (R94, R354, R372 to R386, R459). -/

namespace Sys2Proof.Machine

/-! Lanes that run continuously (R378). -/

/-- WAKE is high, or has fallen less than a tick ago (R376). -/
def Chip.wakeHeld (c : Chip) : Bool := c.power.wake || match c.power.wakeUntil with | some t => decide (c.tick ≤ t) | none => false

/-- A capture of the window is armed, or an export runs. -/
def Chip.winBusy (c : Chip) (w : Nat) : Bool :=
  let st := c.reg (winA w 0x13)
  (1 ≤ st && st ≤ 3) || st == 5 || (c.win w).expJob.isSome

/-- Lane `k` runs continuously in Sketch mode. -/
def Chip.continuous (c : Chip) (k : Nat) : Bool :=
  c.wakeHeld || !(c.slotsOn true k).isEmpty || !(c.slotsOn false k).isEmpty || !(c.mscOn k).isEmpty || c.followLane k || c.watched k ||
    decide ((c.lane k).undecided ≠ 0) || c.winBusy (c.laneWin k) || (c.laneCombines k && c.winBusy (c.laneWin2 k)) || c.laneIsAm k || c.laneOption k == 0x30 ||
    (c.laneIsFm k && !((c.lane k).pilot && (c.lane k).rds.sync)) ||
    (c.laneIsDab k && match c.ensOf k with | some e => c.ensState e != 4 | none => true) ||
    (c.laneIsDrm k && match c.drmOf k with | some n => c.chState n != 4 | none => true)

/-- Lanes that run, and those among them that are glimpsed. -/
def Chip.runningLanes (c : Chip) : List Nat := (List.range 160).filter c.laneRuns
def Chip.glimpsed (c : Chip) : List Nat := c.runningLanes.filter fun k => !c.continuous k

/-! The plan (R379, R386, Table 12-6). -/

/-- Divider and span, in 2,048 counts, of a glimpse of `kind` on object `h`, where such a glimpse is due at all. -/
def Chip.glimpseOf (c : Chip) (h kind : Nat) : Option (Nat × Nat) :=
  let k := hLane h
  let lane := h == c.handleLane k && c.laneRuns k && !c.continuous k
  let inTicks := fun n => ceilDiv (n * 32000) 2048
  if kind = 1 then match c.ensOf k with
    | some e => if lane then some (c.reg 0x305, ceilDiv ((c.reg (dabA e 9) + 12864) * 16) 2048) else none
    | none => none
  else if kind = 2 ∨ kind = 3 then match c.drmOf k with
    | some n => if lane then some (if kind = 2 then c.reg 0x306 else 1, inTicks (c.field (drmA n 0x0C) (if kind = 2 then 0 else 16) 16)) else none
    | none => none
  else if kind = 4 then if lane && c.laneIsFm k then some (c.reg 0x307, 1752) else none
  else if kind = 5 then if lane && c.laneIsFm k && (c.timeUse.map srcLane) == some k then some (1, 12800) else none
  else if kind = 6 then
    if ((h == handleAdc 0 && !(c.winsOf 0).isEmpty) || (h == handleAdc 1 && !(c.winsOf 1).isEmpty)) && c.reg 0x309 != 0 then some (1, inTicks (c.reg 0x309)) else none
  else none

/-- The lead of a glimpse (R382). -/
def Chip.lead (c : Chip) (g : Glimpse) : Nat :=
  1000 * c.reg 0x230 + 2664 + (max (c.reg 0x202) (c.reg 0x212) - 256) + (if g.kind = 6 then 0 else c.laneFill (hLane g.handle))

/-- The reference points of a glimpse: the studio time of one of them, how far before each the glimpse starts, the interval between two (numerator and
denominator in counts), and the source's rate error, 0.001 ppm; none where they are points of studio time itself. -/
structure GlimpseGrid where
  base : Int
  before : Nat
  num : Nat
  den : Nat
  rate : Option Int
deriving DecidableEq, Repr

/-- The reference points of a glimpse of `kind` on object `h`, from the held timing and the measured rate of the source (R379, Table 12-6). Those of
calibration lie at multiples of SKT_CAL_PERIOD (DESIGN CHOICE, log entry 65). -/
def Chip.gridOf (c : Chip) (h kind : Nat) : Option GlimpseGrid :=
  let k := hLane h
  if kind = 1 then (c.ensOf k).map fun e =>
    { base := 16 * ((c.ens e).dsp.start : Int), before := 16 * c.reg (dabA e 9), num := 3145728, den := 1, rate := some (10 * c.int (dabA e 4) 16) }
  else if kind = 2 ∨ kind = 3 then (c.drmOf k).bind fun n =>
    let x := c.drm n
    let r := drmRate x.mode
    let frames := if kind = 2 then 0 else match x.index with | some i => (drmSuper x.mode - i) % drmSuper x.mode | none => 0
    x.dsp.line.head?.map fun s =>
      { base := s.1 + (((x.dsp.start + frames * drmFrame : Nat) : Int) - x.dsp.last) * 32768000 / r
        before := if kind = 2 then c.reg (drmA n 9) * 32768000 / r else 0
        num := (if kind = 2 then 1 else drmSuper x.mode) * drmFrame * 32768000, den := r, rate := some (10 * c.int (drmA n 5) 16) }
  else if kind = 4 then
    let next := 1 + 26 * ((4 - (c.rds k).expect) % 4)
    some { base := ((c.rds k).lastBit + next * 65536000 / 2375 : Nat), before := 26 * 65536000 / 2375, num := 104 * 65536000, den := 2375
           rate := some (((c.lane k).dsp.rds.freq - word57k) * 1000000000 / word57k) }
  else if kind = 5 then
    some { base := (c.time.now : Int) - c.utcAt c.time.now % 60000000000 * 32768000 / (1000000000 + c.tbRate), before := 6553600, num := 1966080000, den := 1
           rate := some (toSigned 32 (c.reg 0x235)) }
  else if kind = 6 then some { base := 0, before := 0, num := 32000 * c.reg 0x30A, den := 1, rate := none }
  else none

/-- Start of the glimpse at reference point number `n`: while the receiver sleeps, studio time runs at the rate of XO32K (R379). -/
def Chip.glimpseAt (c : Chip) (x : GlimpseGrid) (n : Nat) : Nat :=
  let rate := match x.rate with | some r => r + 10 * c.int 0x232 16 | none => 0
  (x.base + ((n * x.num * 1000000000 : Nat) : Int) / (x.den * (1000000000 + rate)) - x.before).toNat

/-- Start of a glimpse that is not under way, `d` intervals apart: of an entry that is still to come that of the same reference point; after one that has
passed the next; of a new entry (`next` none) the first whose wake can be met. -/
def Chip.predict (c : Chip) (x : GlimpseGrid) (d lead : Nat) (next : Option Nat) : Nat :=
  let first := c.glimpseAt x 0
  let unit := max 1 (c.glimpseAt x 1 - first)
  let t := match next with
    | none => c.time.now + lead + 1000 + unit / 2
    | some g => if c.time.now < g then g else g + ((c.time.now - g) / (d * unit) + 1) * (d * unit)
  c.glimpseAt x ((t + unit / 2 - first) / unit)

/-- A glimpse that is due at all takes the entry of its object and kind, else the lowest unused one. -/
def Chip.planOne (c : Chip) (h kind : Nat) : Chip := match c.glimpseOf h kind, c.gridOf h kind with
  | some (d, s), some x => match c.glimpses.find? fun e => e.2.handle == h && e.2.kind == kind with
    | some e => { c with glimpses := Tbl.put c.glimpses e.1 { e.2 with nextG := if e.2.active then e.2.nextG else c.predict x d (c.lead e.2) (some e.2.nextG), divider := d, span := s } }
    | none => match Tbl.lowestFree c.glimpses 0 256 with
      | some g =>
        let e : Glimpse := { handle := h, kind := kind, divider := d, misses := 0, nextG := 0, span := s, active := false, blocks := 0, failed := false }
        { c with glimpses := Tbl.put c.glimpses g { e with nextG := c.predict x d (c.lead e) none } }
      | none => c
  | _, _ => c

/-- The plan at a boundary: entries of objects that are glimpsed no longer go, and every glimpse is predicted; outside Sketch mode it is empty (R379). -/
def Chip.planTick (c : Chip) : Chip :=
  if c.reg 0x300 ≠ 1 then { c with glimpses := [] }
  else
    let c := { c with glimpses := c.glimpses.filter fun e => e.2.active || (c.glimpseOf e.2.handle e.2.kind).isSome }
    let c := c.each c.glimpsed fun c k => c.each [1, 2, 3, 4, 5] fun c kind => c.planOne (c.handleLane k) kind
    c.each [0, 1] fun c a => c.planOne (handleAdc a) 6

/-- The four words of a plan entry (Table 12-9). -/
def Glimpse.words (g : Glimpse) : List Nat :=
  [g.handle, g.kind + 256 * g.divider + 65536 * g.misses, g.nextG % 2 ^ 32, bits g.nextG 32 16 + 65536 * (g.span % 65536)]

/-- The wake of a glimpse: the last always-on edge at or before G − lead. -/
def Chip.wakeAt (c : Chip) (g : Glimpse) : Nat := (g.nextG - c.lead g) / 1000 * 1000

/-! Powered domains (R354, R372). -/

/-- Front-end and converter halves that the windows' sources need. -/
def Chip.halvesNeeded (c : Chip) : Nat := (if (c.winsOf 0).isEmpty then 0 else 5) + (if (c.winsOf 1).isEmpty then 0 else 10)

/-- The halves that are awake in Sketch mode: those of awake lanes and busy windows, and the converter of a calibration glimpse (R378, R392). -/
def Chip.halvesAwake (c : Chip) : Nat :=
  let act := (c.glimpses.filter fun e => e.2.active).map (·.2)
  let on := (c.runningLanes.filter fun k => c.continuous k || act.any fun g => g.kind != 6 && hLane g.handle == k)
  let ws := (on.map fun k => [c.laneWin k] ++ if c.laneCombines k then [c.laneWin2 k] else []).flatten ++ (List.range 12).filter c.winBusy
  let half := fun (a : Nat) =>
    (if ws.any fun w => c.winSrc w == a then 2 ^ a + 2 ^ (a + 2) else if act.any fun g => g.kind == 6 && g.handle == handleAdc a then 2 ^ (a + 2) else 0)
  half 0 + half 1

/-- PWR_DOMAINS and PWR_HALVES; a half that no window needs any more steps its generation (R33, R372). -/
def Chip.refreshPower (c : Chip) : Chip :=
  let on := if c.blocksAsleep then 0 else if c.reg 0x300 = 1 then c.halvesAwake else c.halvesNeeded
  let off := c.reg 0x303 &&& (15 - c.halvesNeeded)
  let c := c.each [0, 1, 2, 3] fun c i => if off.testBit i then c.stepGen i else c
  let c := c.put 0x303 on
  let fe := if on &&& 3 = 0 then 0 else 2
  let ad := if on &&& 12 = 0 then 0 else 2
  let ctl := if c.asleep then 1 else 2
  let core := if c.blocksAsleep then 1 else 2
  let lnk := if c.reg 0xD00 = 0 ∨ c.reg 0xD00 = 6 then 0 else 2
  let dac := if c.dacValid then 2 else 0
  c.put 0x302 (2 + ctl * 4 + fe * 16 + ad * 64 + core * 256 + core * 1024 + lnk * 4096 + dac * 16384)

/-- A window whose converter wakes in Sketch mode restarts with its lanes, without a generation step; the phases are those of a run without a break: the
word times the samples since the boundary at which it came into force (R80, R83, R111, R112). FM lanes hold pilot phase, 57 kHz phase and bit clock (R380). -/
def Chip.wakeWindow (c : Chip) (w : Nat) : Chip :=
  let now := c.time.now
  let c := c.modWin w fun x => { x with dsp := { x.dsp with phase := c.reg (winA w 0) * (16 * (now - 32000 * x.phaseAt)) % 2 ^ 32 } }
  let tune := fun (c : Chip) (k : Nat) => c.modLane k fun l => { l with dsp := { l.dsp with phase := c.reg (laneA k 1) * (now - 32000 * l.phaseAt) % 2 ^ 32 } }
  let keep := fun (d : Chip) (k : Nat) =>
    let x := (c.lane k).dsp
    d.modLane k fun l => { l with dsp := { l.dsp with pilot := x.pilot, rds := x.rds, rdsBits := x.rdsBits } }
  ((c.each (c.lanesOn w true) tune).winRestart w false true).each ((c.lanesOn w true).filter c.laneIsFm) keep

/-- Halves come on again: the windows on a converter that was off restart. -/
def Chip.refreshWake (c : Chip) : Chip :=
  let before := c.reg 0x303
  let c := c.refreshPower
  let woken := fun (w : Nat) => c.winSrc w < 2 && !before.testBit (2 + c.winSrc w) && (c.reg 0x303).testBit (2 + c.winSrc w) && c.winRuns w && (c.win w).dsp.since != c.time.now
  c.each ((List.range 12).filter woken) Chip.wakeWindow

/-- The SPLL follows the windows at a tick boundary (R354): it acquires when the first window has a source, and turns off when the last leaves. -/
def Chip.spllTick (c : Chip) : Chip :=
  if c.blocksAsleep then c
  else if c.halvesNeeded = 0 then (if c.reg 0x200 = 0 then c else c.put 0x200 0)
  else if c.reg 0x200 = 0 then (c.put 0x200 1).refreshWins 2 false false false
  else c

/-- The TCXO is needed although the receiver sleeps: a sine generator runs, or a DAC write waits for the update clock (R354, R529). -/
def Chip.tcxoHeld (c : Chip) : Bool := c.dacValid && [0, 1, 2, 3].any fun ch => (c.dac ch).sine || (c.dac ch).pend

/-- SKT_DUTY at a boundary: per mille of the last 1,024 ticks with the CPLL running. -/
def Chip.dutyTick (c : Chip) (slept : Bool) : Chip :=
  let st := c.reg 0x210
  let on := if !slept && (st == 2 || st == 3 || st == 5) then 1 else 0
  let n := c.power.dutyOn + on - (if c.power.duty.testBit 1023 then 1 else 0)
  { c with power := { c.power with duty := (c.power.duty * 2 + on) % 2 ^ 1024, dutyOn := n } }.put 0x30E (n * 1000 / 1024)

/-! Sleep (R373, R383). -/

/-- A planned glimpse leaves room for a sleep before its wake. -/
def Chip.roomBefore (c : Chip) (g : Glimpse) : Bool := decide (c.time.now + c.reg 0x304 * 32000 ≤ c.wakeAt g)

/-- No sleep begins while a loop coasts or slews, a host hold runs, the link receives or sends, XO32K has failed, a lane runs
continuously or has no predicted glimpse, or the next wake is too near (R356, R378, R383). -/
def Chip.maySleep (c : Chip) : Bool :=
  let st := c.reg 0x301
  let lnk := c.reg 0xD00
  c.reg 0x300 == 1 && (st == 1 || st == 3) && c.boot.done && c.reg 0x23C == 0 && !(c.loopCoasts 0 || c.loopCoasts 1 || c.loopCoasts 2) &&
    decide (c.power.hostHold ≤ c.tick) && (lnk == 0 || lnk == 1 || lnk == 6) && !(c.runningLanes.any c.continuous) && !((List.range 12).any c.winBusy) &&
    !(c.glimpses.any fun e => e.2.active) && c.glimpses.all (fun e => c.roomBefore e.2) &&
    c.glimpsed.all fun k => c.glimpses.any fun e => e.2.kind != 6 && e.2.handle == c.handleLane k

/-- A loop goes off with the sleep; one that has stopped stays stopped until it locks again (R360, Table 12-8). -/
def Chip.loopOff (c : Chip) (l : Nat) : Chip := if c.reg (loopA l 0) = 4 then c else c.put (loopA l 0) 0

/-- Sleep begins (Table 12-7, second part): no generation steps but those of partitions without the retain bit. -/
def Chip.enterSleep (c : Chip) : Chip :=
  let c := c.syncTime.rebase.sleepPartitions
  let c := (((c.put 0x301 2).loopOff 1).loopOff 0).loopOff 2
  let c := if c.tcxoHeld then c else { c with clk := { c.clk with tcxoEn := false } }.put 0x231 0
  c.refreshPower

def Chip.trySleep (c : Chip) : Chip := if c.maySleep then c.enterSleep else c

/-- Every block is clocked again: the TCXO is valid, the CPLL and, where windows need it, the SPLL have locked. No generation steps (R373). -/
def Chip.wakeAll (c : Chip) : Chip :=
  let c := c.syncTime.rebase.put 0x301 (if c.reg 0x300 = 1 then 1 else 0)
  let c := if c.reg 0x231 = 3 then c else
    let c := { c with clk := { c.clk with tcxoEn := true } }.put 0x231 2
    let c := if c.reg 0x210 ≤ 1 then c.put 0x210 2 else c
    if c.reg 0x200 ≤ 1 ∧ c.halvesNeeded ≠ 0 then c.put 0x200 2 else c
  c.linkWake.refreshWake

/-! Glimpses (R382 to R384). -/

/-- A planned glimpse is missed: event 30, SKT_MISS_CNT, the entry's consecutive misses. -/
def Chip.missGlimpse (c : Chip) (n : Nat) : Chip := match Tbl.find c.glimpses n with
  | none => c
  | some g => ({ c with glimpses := Tbl.put c.glimpses n { g with active := false, misses := min 0xFFFF (g.misses + 1) } }.raise 30 g.handle g.kind).count 0x30D

/-- The wake steps of a planned glimpse, whose first lane sample arrives at `first`. -/
def Chip.glimpseStart (c : Chip) (n first : Nat) : Chip := match Tbl.find c.glimpses n with
  | none => c
  | some g =>
    let c := if c.blocksAsleep then c.wakeAll else c
    if c.reg 0x231 = 3 ∨ c.reg 0x210 = 4 ∨ c.reg 0x200 = 4 ∨ g.nextG < first then c.missGlimpse n
    else { c with glimpses := Tbl.put c.glimpses n { g with active := true, blocks := 0, failed := false } }.refreshWake

/-- A glimpse has ended, with its units decoded. -/
def Chip.glimpseStop (c : Chip) (n : Nat) : Chip := match Tbl.find c.glimpses n with
  | none => c
  | some g =>
    if !g.active then c
    else ({ c with glimpses := Tbl.put c.glimpses n { g with active := false, misses := 0 } }.count 0x30C).refreshPower

/-- The first two blocks of an RDS glimpse (R380): when both fail, the lane must find block sync again, and the glimpse is missed. -/
def Chip.glimpseBlock (c : Chip) (k : Nat) (good : Bool) : Chip :=
  match c.glimpses.find? fun e => e.2.active && (e.2.kind == 4 || e.2.kind == 5) && hLane e.2.handle == k with
  | none => c
  | some (n, g) =>
    let c := { c with glimpses := Tbl.put c.glimpses n { g with blocks := min 2 (g.blocks + 1), failed := if g.blocks = 0 then !good else g.failed } }
    if g.blocks = 1 ∧ g.failed ∧ !good then (c.missGlimpse n).modRds k fun r => { r with sync := false, recent := [], expect := 4, group := [] } else c

/-! What a reset leaves (R12, R28, R377, R459, R510, R563, Table 20-1). -/

/-- Parameters that a reset keeps: the supply bits, the duty accounts, and the rail's class and CLRSEL of the DAC domain; a deep sleep keeps the DAC domain and the event latch whole. -/
def keptAt (deep : Bool) (a : Nat) : Bool :=
  a == 0x001 || decide (0xD20 ≤ a ∧ a < 0xD26) || a == 0xE40 || (deep && (decide (a / 256 = 0x0E) || decide (0x100 ≤ a ∧ a ≤ 0x108)))

/-- A parameter of a converter with a failed sub-converter that tells which remain: failed marks persist until RESET_N (R65). -/
def Chip.failedConv (c : Chip) (a : Nat) : Bool :=
  (a == 0x840 || a == 0x841 || a == 0x842 || a == 0x940 || a == 0x941 || a == 0x942) && c.reg (a / 256 * 256 + 0x42) != 0

/-- The generations that no parameter reports, lowest first. -/
def blockGens : List Nat := List.range 5 ++ (List.range 16).map (16 + ·)

/-- Every domain but AO and DAC loses its state; the generations that no parameter reports step (R33). -/
def Chip.resetDomains (c : Chip) (deep : Bool) : Chip :=
  let n := c.time.now
  let r := Chip.reset
  { r with
    time := { r.time with now := n, tick := n / 32000 + 1, slewAt := n, errAt := n, steps := c.time.steps }
    power := { c.power with deep := deep, deepPending := false, deepWakeAt := if deep && c.reg 0x30B != 0 then some (n + 32768000 * c.reg 0x30B) else none, hostHold := 0, wakeUntil := none, duty := 0, dutyOn := 0 }
    regs := c.regs.filter fun e => keptAt deep e.1 || (deep && c.failedConv e.1)
    adcs := if deep then c.adcs.filter fun e => c.reg (feA e.1 0x42) != 0 else []
    ev := { r.ev with chg := deep && c.ev.chg, fresh := deep && c.ev.fresh }
    out := { r.out with owedAt := n }
    dacs := if deep then c.dacs else []
    link := { r.link with duty := c.link.duty }
    gens := blockGens.map fun g => (g, (Tbl.get 0 c.gens g + 1) % 65536)
    varn := { r.varn with drawn := c.varn.drawn }
    free := c.free }

/-- RESET_N or a loss of the core rail: the control outputs hold their CLRSEL codes (R459). -/
def Chip.resetAll (c : Chip) : Chip :=
  let valid := c.dacValid
  let old := c
  let c := (c.resetDomains false).putBit 0xE40 4 false
  c.each [0, 1, 2, 3] fun c ch =>
    let c := c.put (dacA ch 1) (if c.bit 0xE40 3 then 1 else 0)
    if valid then c.present ch 1 (c.clrCode ch) else c.put (dacA ch 0x0A) (old.reg (dacA ch 0x0A))

/-- Deep sleep begins (R377): every job ends, ALERT is released, TICK stops, and only AO and DAC stay on. -/
def Chip.enterDeep (c : Chip) : Chip := c.resetDomains true

end Sys2Proof.Machine
end

