-- ==== Sys2Proof/Machine/Tick.lean ====
section
/-! DEFINITION. The tick boundary: what the receiver applies and judges at each (R32, R43, R366, R375, R444, R446, R550, R575). -/

namespace Sys2Proof.Machine

/-! The stream port at a boundary. -/

/-- Credit starvation (R444): the record at the head has waited for credit since before the previous boundary. -/
def Chip.starvation (c : Chip) : Chip :=
  match c.head with
  | none => c
  | some q =>
    if c.reg 0x600 = 0 ∨ q.rec_.size ≤ c.reg 0x602 then c
    else match q.waiting with
      | none =>
        let mark : QRec → QRec := fun x => if x.order = q.order then { x with waiting := some c.time.now } else x
        { c with out := { c.out with queue := c.out.queue.map mark } }
      | some _ =>
        if c.out.starved then c
        else
          let c : Chip := { c with out := { c.out with starved := true } }
          let c := if c.reg 0x604 = 3 then c else c.put 0x604 2
          (c.raise 27 (handleBlock 0x11) (c.reg 0x603)).count 0x60A

/-- O is above the declared limit (R445). -/
def Chip.overOwed (c : Chip) : Bool := decide (32000 * c.reg 0x700 * c.reg 0x701 < c.out.owed)

/-- Drain failure and its end (R446, R448). -/
def Chip.drainTick (c : Chip) : Chip :=
  match c.out.failing with
  | none =>
    if c.reg 0x600 = 1 ∧ c.overOwed then
      let o := c.reg 0x605
      let c := ({ c with out := { c.out with failing := some c.tick } }.put 0x604 3).raise 29 (handleBlock 0x11) o
      (c.count 0x60B).system 0x08 (handleBlock 0x11) c.time.now (strBody 1 0 0xFFFF 0 0 0 o)
    else c
  | some t =>
    if c.out.owed = 0 then
      let c := { c with out := { c.out with failing := none } }.put 0x604 1
      let c := c.system 0x08 (handleBlock 0x11) c.time.now (strBody 2 0 0xFFFF 0 0 0 (c.tick - t))
      c.endLostRuns
    else c

/-! Measurements of the tick. -/

/-- WIN_RMS reads 0x8000 where the window does not run. -/
def Chip.winTicks (c : Chip) : Chip := c.each ((List.range 12).filter fun w => c.reg (winA w 2) != 2) fun c w => c.put (winA w 4) 0x8000

/-- FIC/SDC change (R238): event 45 for every ensemble and channel with a confirmed new version. -/
def Chip.changeTick (c : Chip) : Chip :=
  let c := c.each (List.range 8) fun c e =>
    if (c.ens e).changed then (c.modEns e fun x => { x with changed := false }).raise 45 (c.handleLane (c.ensLane e)) 0 else c
  c.each (List.range 16) fun c n =>
    if (c.drm n).changed then (c.modDrm n fun x => { x with changed := false }).raise 45 (c.handleLane (c.chLane n)) 0 else c

/-- Provisional streams end where the version in force is not 3 (R550). -/
def Chip.provTick (c : Chip) : Chip :=
  if c.reg 0x501 = 3 then c else c.each ((c.vers.filter fun e => e.2.prov).map (·.1)) Chip.detach

/-- Calendar entries that failed their parity check and were rebuilt (R575): `n` is the tick of the entry. -/
def Chip.rebuilt (c : Chip) (n : Nat) : Chip := (c.raise 7 (handleBlock 0x08) n).count 0x003

/-- The Studio link's RSSI at a boundary in state RX, and the tick for the noise floor Swatches: idle where the link received on one channel throughout, with no
packet detected and no transmission (R315). -/
def Chip.lnkTick (c : Chip) (rssi : Option Int) : Chip :=
  let l := c.link
  let idle := c.reg 0xD00 == 2 && rssi.isSome && l.tx.isNone && !detected l.rx && decide (l.busyAt + 32000 ≤ c.time.now) && l.lastHz == c.reg 0xD02
  let c := match rssi with | some r => if c.reg 0xD00 = 2 then c.putInt 0xD12 16 r else c | none => c
  { c with link := { c.link with lastHz := c.reg 0xD02 } }.swtTake (handleBlock 0x0D) (.link (c.time.now - 1) idle (rssi.getD 0))

/-! The boundary. -/

/-- What the blocks that sleep do at a boundary, when they are awake. -/
def Chip.awakeTick (c : Chip) (m : TickMeas) : Chip :=
  let c := c.each (feMeasures c.time.now m.adcA m.adcB) Chip.agcTick
  let c := (c.each [0, 1] Chip.injTick).winTicks.demodTick
  (c.each (List.range 12) Chip.capTick).trlBoundary

/-- The boundary proper: the writes that wait, the timebase, the clocks, the measurements, and everything scheduled for it. `slept`: the
boundary passed during a sleep, and is processed at the wake (R375). -/
def Chip.tickStep (c : Chip) (m : TickMeas) (slept : Bool) : Chip :=
  let c := { c with time := { c.time with now := 32000 * c.time.tick, tick := c.time.tick + 1 } }.syncTime
  let was := c.blocksAsleep
  let c := if was || slept then c else (c.pathTick m.adcA m.adcB).audioTick m.fs
  let c := c.applyWrites
  if c.power.deepPending then c.enterDeep
  else
    let c := if was && c.reg 0x300 != 1 then c.wakeAll else c
    let awake := !slept && !c.blocksAsleep
    let c := (c.each m.rebuilt Chip.rebuilt).tbTick
    let c := (if slept then c else c.spllTick).dutyTick slept
    let c := match m.aoPpm with | some p => c.putInt 0x232 16 p | none => c
    let c := (c.swtTick (feMeasures c.time.now m.adcA m.adcB)).canvasTick
    let c := if awake then c.awakeTick m else c
    let c := if slept then c else c.dacTick
    let redo := c.gal.dirty.isSome
    let c := c.galTick.changeTick
    let c := if awake then c.followTicks redo else c
    let c := c.starvation.drainTick
    let c := if awake then c.calTick m.dieTemp else c
    let c := c.provTick.linkLoops
    let c := c.lnkTick m.linkRssi
    let c := c.alarmAudio.beginJobs.schedTick
    let c := c.planTick
    if slept then c else c.linkWake.refreshWake.trySleep

/-- A boundary without a measurement: one that a step of studio time or a sleep has passed. -/
def TickMeas.none_ : TickMeas :=
  { adcA := [], adcB := [], dieTemp := none, aoPpm := none, linkRssi := none, rebuilt := [], fs := [] }

/-- Process every boundary that studio time has passed, in order (R366, R375); `n` bounds their number. -/
def Chip.catchUpN (slept : Bool) (c : Chip) : Nat → Chip
  | 0 => c
  | n + 1 => if c.time.tick * 32000 ≤ c.time.now ∧ c.ctlOn then
      let now := c.time.now
      let c := c.tickStep TickMeas.none_ slept
      (if c.ctlOn then { c with time := { c.time with now := max c.time.now now } } else c).catchUpN slept n
    else c

def Chip.catchUp (c : Chip) (slept : Bool) : Chip := c.catchUpN slept (c.time.now / 32000 + 1 - c.time.tick)

/-- The next boundary was processed before studio time stepped back (R366). -/
def Chip.passed (c : Chip) : Bool := decide (c.time.now / 32000 + 1 < c.time.tick)

/-- The count at which studio time reaches or passes its next tick boundary: the boundary itself while the CPLL runs, else the first always-on edge from
there on (R29). -/
def Chip.nextEdge (c : Chip) : Nat :=
  let b := (c.time.now / 32000 + 1) * 32000
  c.time.now + ceilDiv (b - c.time.now) c.idleCounts * c.idleCounts

/-- TICK_BOUNDARY: studio time reaches the next boundary. Without CTL, only time passes; in a Sketch sleep the boundary waits for the wake; a boundary
that was processed before studio time stepped back is not run again (R366). -/
def Chip.tickBoundary (c : Chip) (m : TickMeas) : Chip :=
  let next := c.nextEdge
  if !c.ctlOn then { c with time := { c.time with now := next, tick := next / 32000 + 1 } }
  else if c.asleep || c.passed then { c with time := { c.time with now := next } }
  else
    let c := c.catchUp true
    let c := if c.ctlOn then c.tickStep m false else c
    { c with time := { c.time with now := max c.time.now next } }

/-! Rows that wake the receiver or move studio time. -/

/-- CTL wakes alone from a Sketch sleep (R375, R376): PWR_STATE 3, and the TCXO is turned on. -/
def Chip.ctlWake (c : Chip) : Chip :=
  if c.asleep then
    let c := c.put 0x301 3
    let c : Chip := { c with clk := { c.clk with tcxoEn := true } }
    if c.reg 0x231 = 0 then c.put 0x231 1 else if c.reg 0x231 = 2 ∧ c.reg 0x210 = 0 then c.put 0x210 1 else c
  else c

/-- CTL wakes from a Sketch sleep and takes the boundaries that passed (R375). -/
def Chip.wakeCtl (c : Chip) : Chip := if c.asleep then c.ctlWake.catchUp true else c

/-- SKETCH_WAKE. -/
def Chip.sketchWake (c : Chip) (n first : Nat) : Chip :=
  if !c.ctlOn || c.reg 0x300 != 1 then c
  else match Tbl.find c.glimpses n with
    | none => c
    | some g => if g.active then c else (c.wakeCtl.glimpseStart n first)

/-- GLIMPSE_END. -/
def Chip.glimpseEnd (c : Chip) (n : Nat) : Chip := if c.ctlOn && !c.asleep then (c.glimpseStop n).trySleep else c

/-- CTL_ONLY_WAKE. -/
def Chip.ctlOnlyWake (c : Chip) : Chip := if c.ctlOn then c.wakeCtl else c

/-- HOST_HOLD_EXPIRE (R376). -/
def Chip.holdExpire (c : Chip) : Chip := if c.ctlOn && decide (c.power.hostHold ≤ c.tick) then c.trySleep else c

/-- LOOP_RELOCK, with the boundaries that a forward step of studio time passes (R366). -/
def Chip.relockLoop (c : Chip) (l : Nat) (phi : Int) : Chip := if c.ctlOn then (c.relock l phi).catchUp false else c

end Sys2Proof.Machine
end

