-- ==== Sys2Proof/Machine/Varnish.lean ====
section
/-! DEFINITION. Varnish (R538 to R553): key slots and blobs, host contexts, verified streams' attachment, generation steps and fault alarms. An operation counted by VAR_OP_CNT is one finished tag, verdict, unwrap or wrap (log entry 40). -/

namespace Sys2Proof.Machine

def handleVar : Nat := handleBlock 0x0F

/-! Key slots (R540 to R543). -/

/-- The key of a slot with usage bit `use` set. -/
def keyFor (keys : Tbl Key) (slot use : Nat) : Option Key := match Tbl.find keys slot with
  | some k => if k.attr.testBit use then some k else none
  | none => none

def Chip.setCtxs (c : Chip) (t : Tbl CtxSt) : Chip := { c with varn := { c.varn with ctxs := t } }
def Chip.slotCtr (c : Chip) (slot : Nat) : Nat := Tbl.get 0 c.varn.ctrs slot
def Chip.setSlotCtr (c : Chip) (slot n : Nat) : Chip :=
  let c := { c with varn := { c.varn with ctrs := Tbl.set 0 c.varn.ctrs slot n } }
  if c.field 0xF05 0 3 = slot then c.put 0xF06 n else c

/-- The sealed session ends (R554, R423): VAR_SSN. -/
def Chip.endSession (c : Chip) : Chip := c.putField 0xF05 3 5 0

/-- The parameters of a slot: VAR_SLOTS, VAR_KEY_ID, VAR_KEY_ATTR. -/
def Chip.showSlot (c : Chip) (slot : Nat) (k : Option Key) : Chip :=
  let c := c.putBit 0xF03 slot k.isSome
  (c.put (0xF08 + slot) (match k with | some k => k.ident.toNat | none => 0)).put (0xF10 + slot) (match k with | some k => k.attr | none => 0)

/-- Re-keying (R541). -/
def Chip.rekey (c : Chip) (slot : Nat) : Chip :=
  let c := if c.sealActive && c.field 0xF05 0 3 == slot then c.endSession else c
  let c := c.setSlotCtr slot 0
  let clear : Nat × PeerSt → Nat × PeerSt := fun p => (p.1, { p.2 with ctr := 0 })
  let c := if c.reg 0xD11 = slot then { c with link := { c.link with peers := c.link.peers.map clear, told := false } }.put 0xD3C 0 else c
  let c := c.each ((c.vers.filter fun v => v.2.slot == slot).map (·.1)) fun c j =>
    let c := c.closeMsgs j (fun _ => true) 6
    match Tbl.find c.vers j with
    | some v => { c with vers := Tbl.put c.vers j { v with ctr := 0, told := false } }
    | none => c
  { c with varn := { c.varn with ctxs := c.varn.ctxs.filter fun x => x.2.slot != slot, told := Tbl.del c.varn.told slot } }

/-- A blob's header is well formed, and its length matches its size byte; the reserved usage bits are ignored (R10). -/
def blobOk (b : List Byte) : Bool :=
  leAt b 0 1 == 1 && decide (leAt b 1 1 ≤ 1) && decide (leAt b 2 1 ≤ 7) && b.length == 40 + 16 * leAt b 1 1

/-- Load a blob (R540, R541): the reason, the slots and the chip after it. -/
def Chip.loadKey (keys : Tbl Key) (c : Chip) (b : List Byte) : Nat × Tbl Key × Chip :=
  if !blobOk b then (rBad, keys, c)
  else
    let c := c.count 0xF19
    let n := 16 + 16 * leAt b 1 1
    match keyUnwrap Config.rootKey (b.drop 8) with
    | none => (rSealFail, keys, c.count 0xF1A)
    | some d =>
      if d.drop n != b.take 8 then (rSealFail, keys, c.count 0xF1A)
      else
        let slot := leAt b 2 1
        let k : Key := { bytes := d.take n, ident := w32 (leAt b 4 4), attr := leAt b 3 1 % 16 + 256 * leAt b 1 1 }
        match Tbl.find keys slot with
        | some old =>
          if old.ident = k.ident ∧ old.attr = k.attr then (rOk, keys, c)
          else (rOk, Tbl.put keys slot k, (c.rekey slot).showSlot slot (some k))
        | none => (rOk, Tbl.put keys slot k, c.showSlot slot (some k))

/-- A generation step of Varnish (R553): contexts idle, messages in flight revoked, the session ended, queued secured frames void (R34, R515). -/
def Chip.varGenStep (c : Chip) : Chip :=
  let c := ((c.stepGenAt 0xF07).setCtxs []).endSession
  let c := c.each (c.vers.map (·.1)) fun c j => c.closeMsgs j (fun _ => true) 5
  let voids := c.link.queue.filter fun e => e.secured
  let c := if voids.isEmpty then c else c.raise 4 handleVar (c.reg 0xF07)
  let c := c.setTxQueue (c.link.queue.filter fun e => !e.secured)
  c.each voids fun c e => c.refuseTx e rVoid

/-- Erase the occupied slots among those named by bits: each is re-keyed, and Varnish's generation steps. -/
def Chip.eraseKeys (keys : Tbl Key) (c : Chip) (slots : Nat) : Tbl Key × Chip :=
  let hit := keys.filter fun e => slots.testBit e.1
  if hit.isEmpty then (keys, c)
  else
    let c := c.each (hit.map (·.1)) fun c s => (c.rekey s).showSlot s none
    (keys.filter fun e => !slots.testBit e.1, c.varGenStep)

/-! Host contexts (R538, R544, R545). -/

/-- Message bytes enter a computation: complete blocks are chained while a later byte follows them. -/
def CtxSt.feed (key : List Byte) (x : CtxSt) (m : List Byte) : CtxSt :=
  let l := x.part ++ m
  let n := fullBlocks l.length
  { x with count := (x.count + m.length) % 2 ^ 32, chain := cbcBlocks key n x.chain l, part := l.drop (16 * n) }

/-- The CMAC of everything a computation has been fed. -/
def CtxSt.mac (key : List Byte) (x : CtxSt) : List Byte := cmacLast key x.chain x.part

/-- VAR_START. -/
def Chip.varStart (keys : Tbl Key) (c : Chip) (ctx slot kind : Nat) : List Byte × Chip :=
  if 3 < ctx ∨ 1 < kind ∨ (keyFor keys slot kind).isNone then ([b8 rBad], c)
  else ([0x00], c.setCtxs (Tbl.put c.varn.ctxs ctx { gen := kind == 1, slot := slot, count := 0, chain := zeros 16, part := [] }))

/-- The key of a running context. -/
def Chip.ctxKey (keys : Tbl Key) (c : Chip) (ctx : Nat) : Option (CtxSt × Key) := match Tbl.find c.varn.ctxs ctx with
  | some x => (keyFor keys x.slot (if x.gen then 1 else 0)).map fun k => (x, k)
  | none => none

/-- VAR_UPDATE. -/
def Chip.varUpdate (keys : Tbl Key) (c : Chip) (ctx : Nat) (m : List Byte) : List Byte × Chip := match c.ctxKey keys ctx with
  | some (x, k) =>
    if 3 < ctx ∨ m.length = 0 ∨ 254 < m.length then ([b8 rBad], c) else ([0x00], c.setCtxs (Tbl.put c.varn.ctxs ctx (x.feed k.bytes m)))
  | none => ([b8 rBad], c)

/-- VAR_FINISH. -/
def Chip.varFinish (keys : Tbl Key) (c : Chip) (ctx t : Nat) (tag : List Byte) : List Byte × Chip := match c.ctxKey keys ctx with
  | none => ([b8 rBad], c)
  | some (x, k) =>
    if 3 < ctx ∨ t < 4 ∨ 16 < t ∨ tag.length ≠ (if x.gen then 0 else t) then ([b8 rBad], c)
    else
      let c := (c.setCtxs (Tbl.del c.varn.ctxs ctx)).count 0xF19
      let mac := (x.mac k.bytes).take t
      if x.gen then (b8 rOk :: mac, c)
      else if mac = tag then ([b8 rOk], c)
      else ([b8 rSealFail], (c.raise 60 handleVar 1).count 0xF1A)

/-- A context image (Table 19-4). -/
def CtxSt.image (k : Key) (x : CtxSt) : List Byte :=
  [0x01, if x.gen then 1 else 0, b8 x.slot, b8 x.part.length] ++ le 4 k.ident.toNat ++ le 4 x.count ++ zeros 4 ++ x.chain ++ x.part ++ zeros (16 - x.part.length)

/-- VAR_CTX_SAVE. -/
def Chip.ctxSave (keys : Tbl Key) (c : Chip) (ctx wrapped : Nat) : List Byte × Chip := match c.ctxKey keys ctx with
  | none => ([b8 rBad], c)
  | some (x, k) =>
    if 3 < ctx ∨ 1 < wrapped ∨ (wrapped = 0 ∧ (!x.gen || c.bit 0xF00 1)) then ([b8 rBad], c)
    else if wrapped = 1 then (b8 rOk :: keyWrap Config.contextKey (x.image k), c.count 0xF19)
    else (b8 rOk :: x.image k, c)

/-- A clear image, its reserved bytes ignored (R10), replaces a context's computation. -/
def Chip.ctxTake (keys : Tbl Key) (c : Chip) (ctx : Nat) (m : List Byte) : List Byte × Chip :=
  let n := leAt m 3 1
  let gen := leAt m 1 1
  let slot := leAt m 2 1
  if leAt m 0 1 ≠ 1 ∨ 1 < gen ∨ 7 < slot ∨ 16 < n then ([b8 rBad], c)
  else match keyFor keys slot gen with
    | none => ([b8 rBad], c)
    | some k =>
      if k.ident.toNat ≠ leAt m 4 4 then ([b8 rSealFail], c)
      else ([b8 rOk], c.setCtxs (Tbl.put c.varn.ctxs ctx
        { gen := gen == 1, slot := slot, count := leAt m 8 4, chain := (m.drop 16).take 16, part := (m.drop 32).take n }))

/-- VAR_CTX_LOAD. -/
def Chip.ctxLoad (keys : Tbl Key) (c : Chip) (ctx : Nat) (m : List Byte) : List Byte × Chip :=
  if 3 < ctx ∨ (m.length ≠ 48 ∧ m.length ≠ 56) then ([b8 rBad], c)
  else if m.length = 48 then
    if c.bit 0xF00 1 ∨ leAt m 1 1 ≠ 1 then ([b8 rBad], c) else c.ctxTake keys ctx m
  else
    let c := c.count 0xF19
    match keyUnwrap Config.contextKey m with
    | none => ([b8 rSealFail], c.count 0xF1A)
    | some d => c.ctxTake keys ctx d

/-! Verified streams (R546). -/

/-- VAR_ATTACH. -/
def Chip.attach (keys : Tbl Key) (c : Chip) (j slot mode t stream : Nat) : List Byte × Chip := match c.job? j with
  | none => ([b8 rBad], c)
  | some x =>
    let k := dKind x.desc
    if (k ≠ 2 ∧ k ≠ 3) ∨ (Tbl.find c.vers j).isSome ∨ 1 < mode ∨ t < 4 ∨ 16 < t ∨ (if k = 3 then 3 else 0) < stream ∨ (keyFor keys slot 0).isNone then ([b8 rBad], c)
    else if mode = 1 ∧ c.reg 0x501 ≠ 3 then ([b8 rNotNegotiated], c)
    else if mode = 0 ∧ dClass x.desc = 0 then ([b8 rLatency], c)
    else if 1500000 < c.reg 0xF18 + declaredRate x.desc then ([b8 rNoCapacity], c)
    else
      let v : VerSt := { slot := slot, prov := mode == 1, tlen := t, stream := stream, ctr := 0, told := false, msgs := [], lastSeq := none }
      ([b8 rOk], { c with vers := Tbl.put c.vers j v }.refreshAttach)

/-- VAR_DETACH. -/
def Chip.varDetach (c : Chip) (j : Nat) : List Byte × Chip := if (Tbl.find c.vers j).isNone then ([b8 rBad], c) else ([b8 rOk], c.detach j)

/-! Fault alarms (R552). -/

/-- The frame in reception counts as a tag failure. -/
def Chip.linkTagFault (c : Chip) : Chip := match c.link.rx with
  | none => c
  | some r =>
    if r.stage ≠ 3 then c
    else
      let c := ((c.setRx none).coex false false).lnkState 2
      (((c.raise 60 handleVar 3).count 0xF1A).count 0xD38).afterFrame 8

/-- VARNISH_FAULT_ALARM: what the operation would have done is discarded. Its user is 0 a host command, 1 the verified stream of a job, 2 a
received Studio-link frame, 3 a tag that the link computes again; with VAR_FAULT_CFG[0] every slot is erased. -/
def Chip.faultAlarm (keys : Tbl Key) (c : Chip) (use job : Nat) : Tbl Key × Chip :=
  if !c.ctlOn || (use == 0 && (c.replyPending || !c.boot.done)) then (keys, c)
  else
    let c := c.count 0xF1B
    let c := if use = 0 then ((c.wakeCtl.holdHost).count 0x510).setReply [b8 rSealFail] else if use = 1 then c.verdictFault job else if use = 2 then c.linkTagFault else c
    if c.bit 0xF02 0 then
      let c := c.raise 61 handleVar 0
      let hit := keys.map (·.1)
      let c := c.each hit fun c s => (c.rekey s).showSlot s none
      ([], c.varGenStep)
    else (keys, c)

end Sys2Proof.Machine
end

