-- ==== Sys2Proof/Machine/Image.lean ====
section
/-! DEFINITION. The Easel image as bytes: its header (R467, R468), profiles and their sections (R470, R471), and journal slots (Table 16-7, R480). -/

namespace Sys2Proof.Machine

/-! The header. -/

def magicOk (b : List Byte) : Bool := b.length == 64 && b.take 4 == [0x45, 0x41, 0x53, 0x4C]

/-- Bytes of the memory that a size code names (Table 16-2). -/
def memoryBytes (code : Nat) : Nat := 32768 * 2 ^ code

/-- The directory entries: address and length. -/
def directory (b : List Byte) : List (Nat × Nat) := (List.range 4).map fun i => (leAt b (16 + 8 * i) 4, leAt b (20 + 8 * i) 4)

/-- The journal pointer; 0xFFFFFFFF is none. -/
def journalAt (b : List Byte) : Option Nat := if leAt b 12 4 = 0xFFFFFFFF then none else some (leAt b 12 4)

/-- Two spans of (address, length) have no byte in common. -/
def apart (a b : Nat × Nat) : Bool := decide (a.1 + a.2 ≤ b.1) || decide (b.1 + b.2 ≤ a.1)

/-- No two spans of a list overlap. -/
def allApart : List (Nat × Nat) → Bool
  | [] => true
  | a :: r => r.all (apart a) && allApart r

/-- The header is valid (R468). -/
def headerOk (b : List Byte) : Bool :=
  let fmt := leAt b 4 1
  let n := leAt b 5 1
  let size := memoryBytes (leAt b 6 1)
  let dir := directory b
  let used := dir.take n
  let inside := fun (s : Nat × Nat) => decide (s.1 + s.2 ≤ size)
  let jrnl := (journalAt b).toList.map fun a => (a, 256)
  let zero := fun i k => leAt b i k == 0
  magicOk b && (fmt == 1 || fmt == 2) && decide (n ≤ 4) && decide (leAt b 6 1 ≤ 3) &&
    used.all (fun e => decide (20 ≤ e.2) && decide (e.2 ≤ 49152) && e.1 % 4 == 0 && inside e) && (dir.drop n).all (· == (0, 0)) &&
    jrnl.all (fun j => inside j && j.1 % 256 == 0) && allApart ((0, 64) :: (jrnl ++ used)) &&
    [64, 128, 256].contains (leAt b 8 2) && decide (leAt b 7 1 < 4) && zero 10 2 && zero 52 8 &&
    leAt b 60 4 == (if fmt = 2 then (crc32c (b.take 60)).toNat else 0)

/-! A profile. -/

/-- `n` sections, each its type and body, and the bytes after them; `none` where a section is cut short. -/
def parseSections : Nat → List Byte → Option (List (Nat × List Byte) × List Byte)
  | 0, b => some ([], b)
  | n + 1, b =>
    let len := 4 * leAt b 2 2
    if b.length < 4 + len then none
    else match parseSections n (b.drop (4 + len)) with
      | some (l, r) => some ((leAt b 0 1, (b.drop 4).take len) :: l, r)
      | none => none

/-- The sections of a profile whose bytes have been checked. -/
def sections (b : List Byte) : List (Nat × List Byte) := match parseSections (leAt b 2 2) ((b.drop 16).take (b.length - 20)) with
  | some (l, _) => l
  | none => []

/-- Bodies of the sections of one type, in image order. -/
def bodies (b : List Byte) (ty : Nat) : List (List Byte) := (sections b).filterMap fun s => if s.1 = ty then some s.2 else none

/-- Profile `p` of directory length `len` passes its check (R471). -/
def profileOk (fmt p len : Nat) (b : List Byte) : Bool :=
  b.length == len && leAt b 0 1 == p && leAt b 1 1 == fmt && leAt b 4 4 == len &&
    (match parseSections (leAt b 2 2) ((b.drop 16).take (len - 20)) with | some (l, r) => r.isEmpty && decide ((l.filter fun s => s.1 == 2).length ≤ 1) | none => false) &&
    leAt b (len - 4) 4 == (crc32c (b.take (len - 4))).toNat

/-- Split into pieces of `k` bytes; a last short piece is left out. -/
def pieces (k : Nat) (b : List Byte) : List (List Byte) := (List.range (b.length / k)).map fun i => (b.drop (k * i)).take k

/-- Parameter entries: address and value. -/
def paramEntries (b : List Byte) : List (Nat × Nat) := ((bodies b 1).map (pieces 8)).flatten.map fun e => (leAt e 0 2, leAt e 4 4)

/-- The blobs of a section, by the size byte of each (Table 19-2); a rest that is no whole blob is one piece. -/
def blobs : Nat → List Byte → List (List Byte)
  | 0, _ => []
  | n + 1, b =>
    if b.isEmpty then []
    else
      let len := 40 + 16 * leAt b 1 1
      if b.length < len then [b] else b.take len :: blobs n (b.drop len)

/-! A journal slot. -/

/-- A slot is valid: magic, format and check (Table 16-7). -/
def slotOk (b : List Byte) : Bool := b.length == 128 && leAt b 0 2 == 0x5A4A && leAt b 2 2 == 1 && leAt b 124 4 == (crc32c (b.take 124)).toNat

/-- The valid slot with the higher sequence: 0 A, 1 B. -/
def newestSlot (a b : List Byte) : Option Nat :=
  if slotOk a && slotOk b then some (if leAt a 4 4 < leAt b 4 4 then 1 else 0)
  else if slotOk a then some 0 else if slotOk b then some 1 else none

end Sys2Proof.Machine
end

