-- ==== Sys2Proof/Machine/Scan.lean ====
section
/-! DEFINITION. Factory profile F: its settings (R484, Table 16-8) and its scan (R485, R486). -/

namespace Sys2Proof.Machine

/-! The settings. -/

/-- Centre words of windows 0 to 3. -/
def fCentre (w : Nat) : Nat := if w = 0 then 0x2FBAC000 else if w = 1 then 0x5AD20000 else if w = 2 then 0x65900000 else 0x6F540000

/-- The NCO word that tunes a lane on window `w` to a frequency in kHz. -/
def fNco (w kHz : Nat) : Nat := ofSigned 32 ((kHz * 131072 : Nat) - 16 * (fCentre w : Int))

/-- FM frequency of a scan index, kHz. -/
def fmKHz (i : Nat) : Nat := 87600 + 100 * i

/-- Centre frequencies of blocks 5A to 13F, kHz (PRESUMED from the channel raster of EN 300 401; the manual gives both ends; log entry 14). -/
def dabBlocks : List Nat :=
  ((List.range 8).map fun i => [174928, 181936, 188928, 195936, 202928, 209936, 216928, 223936].getD i 0).flatMap
      (fun f => [f, f + 1712, f + 3424, f + 5136]) ++ [230784, 232496, 234208, 235776, 237488, 239200]

def blockKHz (i : Nat) : Nat := dabBlocks.getD i 0

/-- The window of a block: the lowest within 12.332 MHz. -/
def blockWin (kHz : Nat) : Nat := if kHz ≤ 198332 then 1 else if kHz ≤ 220332 then 2 else 3

/-- A lane's parameters in profile F: FM lanes 0 to 63 and 72 to 135, ensemble lanes 64 to 71. -/
def fLane (k : Nat) : List (Nat × Nat) :=
  if 64 ≤ k ∧ k ≤ 71 then
    let f := blockKHz (k - 64)
    [(laneA k 0, 0xF0 + blockWin f), (laneA k 1, fNco (blockWin f) f), (laneA k 2, 0x61), (laneA k 3, 0x0902)]
  else [(laneA k 0, 0xF0), (laneA k 1, if 72 ≤ k then fNco 0 (fmKHz (k - 72)) else 0), (laneA k 2, 0x64), (laneA k 3, 0x0900)]

/-- STR in blocks 0 to 15, retained; no other partition. -/
def fMap : List Nat := 0x00121000 :: List.replicate 15 0

/-- Table 16-8, but for PWR_MODE. -/
def fSettings : List (Nat × Nat) :=
  [(0x800, 6), (0x900, 0), (0x640, 3), (0x7C0, 0x00121000), (0xC20, 0x0F), (0xC30, 0xBF), (0xC37, 0), (0xC38, 0), (0xE34, 0xFFFF0001)] ++
    (List.range 4).flatMap (fun w => [(winA w 0, fCentre w), (winA w 1, 0)]) ++ (List.range 136).flatMap fLane

/-- The lane job of profile F on lane `k`. -/
def fJob (k : Nat) : List Byte := mkDesc 1 0 (if 64 ≤ k ∧ k ≤ 71 then 0x10 else 0x01) (0x60000000 + k * 2 ^ 17) 0

def scanLanes : List Nat := (List.range 64).map (· + 72)
def ensLanes : List Nat := (List.range 8).map (· + 64)

/-- The first jobs of profile F. -/
def fJobs : List (List Byte) := (ensLanes ++ scanLanes).map fJob

/-! The scan. -/

def Chip.isKept (c : Chip) (k : Nat) : Bool := (Tbl.find c.boot.kept k).isSome

/-- A profile entry, section or job is skipped (R473, R474). -/
def Chip.skip (c : Chip) : Chip := c.count 0x417

/-- Submit a profile's job (R474). -/
def Chip.profileJob (c : Chip) (d : List Byte) : Chip :=
  let (body, c) := c.submit d 1
  if body.headD 0 = 0 then c else c.skip

/-- A scan begins: every frequency is still to be visited. -/
def Chip.scanReset (c : Chip) : Chip :=
  let free := ensLanes.filter fun k => !c.isKept k
  let on := (List.range free.length).foldl (fun t i => Tbl.put t (free.getD i 64) i) ([] : Tbl Nat)
  { c with boot := { c.boot with scan := true, fmRound := [], dabNext := free.length, dabOn := on, cands := [], scanAt := c.tick } }

/-- Tune a lane at a boundary, running or not. -/
def Chip.fTune (c : Chip) (k w kHz : Nat) : Chip := (c.putSrc k (0xF0 + w)).retuneLane k (fNco w kHz)

/-- A kept FM carrier takes watch lane `k`. -/
def Chip.keepFm (c : Chip) (k : Nat) (x : Nat × Int) : Chip :=
  let c := { c with boot := { c.boot with kept := Tbl.put c.boot.kept k x } }.fTune k 0 x.1
  if c.laneHeld k then c else c.profileJob (fJob k)

/-- The frequency is kept on a watch lane. -/
def Chip.keptFm (c : Chip) (kHz : Nat) : Bool := c.boot.kept.any fun e => decide (e.1 < 64) && e.2.1 == kHz

/-- A frequency on which a carrier is found and a PI is confirmed becomes a candidate, and takes a watch lane while one is free. -/
def Chip.scanCandidate (c : Chip) (k : Nat) : Chip :=
  let f := c.laneKHz k
  if !c.laneRuns k || !(c.lane k).found || (c.rds k).pi.isNone || c.boot.cands.any (fun x => x.1 == f) then c
  else
    let x := (f, c.ifLevel k)
    let c := { c with boot := { c.boot with cands := c.boot.cands ++ [x] } }
    if c.keptFm f then c
    else match (List.range 64).find? fun w => !c.isKept w with
      | some w => c.keepFm w x
      | none => c

/-- Candidates are taken at each tick boundary (R486). -/
def Chip.scanTick (c : Chip) : Chip := if c.boot.scan && c.ctlOn && !c.blocksAsleep then c.each scanLanes Chip.scanCandidate else c

/-- A watch lane without an ensemble visits the next block. -/
def Chip.nextBlock (c : Chip) (k : Nat) : Chip :=
  let i := c.boot.dabNext
  if i < 38 then
    { c with boot := { c.boot with dabNext := i + 1, dabOn := Tbl.put c.boot.dabOn k i } }.fTune k (blockWin (blockKHz i)) (blockKHz i)
  else { c with boot := { c.boot with dabOn := Tbl.del c.boot.dabOn k } }

/-- SCAN_VISIT_END: 1,024 ticks on an FM frequency, 512 on a block. -/
def Chip.scanVisitEnd (c : Chip) (k : Nat) : Chip :=
  let due := fun n => c.laneRuns k && decide ((c.lane k).phaseAt + n ≤ c.tick)
  if !c.ctlOn || !c.boot.scan then c
  else if 72 ≤ k ∧ k ≤ 135 then
    let r := Tbl.get 0 c.boot.fmRound k + 1
    if !due 1024 || decide (4 < r) then c
    else
      let c := c.scanCandidate k
      let i := k - 72 + 64 * r
      let last := decide (3 < r) || decide (203 < i)
      let c := { c with boot := { c.boot with fmRound := Tbl.put c.boot.fmRound k (if last then 4 else r) } }
      if last then c else c.fTune k 0 (fmKHz i)
  else if 64 ≤ k ∧ k ≤ 71 then
    match Tbl.find c.boot.dabOn k with
    | none => c
    | some i =>
      if !due 512 || c.isKept k then c
      else
        let sync := match c.ensOf k with | some e => c.ensState e == 4 && (c.ens e).eid.isSome | none => false
        if sync then { c with boot := { c.boot with kept := Tbl.put c.boot.kept k (blockKHz i, c.ifLevel k), dabOn := Tbl.del c.boot.dabOn k } }
        else c.nextBlock k
  else c

/-- The kept FM carrier that a candidate may replace: a lost one, else the weakest. -/
def Chip.worstKept (c : Chip) : Option (Nat × Int) :=
  let l : List (Nat × Int) := (c.boot.kept.filter fun e => decide (e.1 < 64)).map fun e => (e.1, if (c.lane e.1).found then c.ifLevel e.1 else -100000)
  l.foldl (fun b x => match b with | some y => if x.2 < y.2 then some x else some y | none => some x) none

/-- A candidate that is not kept takes a free watch lane, or that of a kept carrier that is lost or weaker. -/
def Chip.rechoose (c : Chip) (x : Nat × Int) : Chip :=
  if c.keptFm x.1 then c
  else match (List.range 64).find? fun w => !c.isKept w with
    | some w => c.keepFm w x
    | none => match c.worstKept with
      | some (w, l) => if l < x.2 then c.keepFm w x else c
      | none => c

/-- Insert into a list of falling level. -/
def insertLevel (x : Nat × Int) : List (Nat × Int) → List (Nat × Int)
  | [] => [x]
  | y :: r => if x.2 ≤ y.2 then y :: insertLevel x r else x :: y :: r

/-- A lane's job ends. -/
def Chip.stopScanLane (c : Chip) (k : Nat) : Chip := match (c.lane k).job with
  | some j => c.endJob j
  | none => c

/-- TIM_SRC_HANDLE: the kept carrier of highest IF RMS that has delivered an accepted time message (R486). -/
def Chip.nameTimeSource (c : Chip) : Chip :=
  let gives := fun (k : Nat) => c.times.any fun t => srcLane t.1 == k && t.2.accepted.isSome
  let l := ((c.boot.kept.map (·.1)).filter gives).foldl (fun b k => match b with | some y => if c.ifLevel y < c.ifLevel k then some k else some y | none => some k) (none : Option Nat)
  match l with
  | some k => c.put 0xC21 (c.handleLane k)
  | none => c

/-- Every visit of the scan has ended. -/
def Chip.scanOver (c : Chip) : Bool := scanLanes.all (fun k => decide (4 ≤ Tbl.get 0 c.boot.fmRound k)) && c.boot.dabOn.isEmpty

/-- SCAN_END. -/
def Chip.scanEnd (c : Chip) : Chip :=
  if !c.ctlOn || !c.boot.scan || !c.scanOver then c
  else
    let c := c.each (c.boot.cands.foldl (fun l x => insertLevel x l) []) Chip.rechoose
    let c := c.each (scanLanes ++ ensLanes.filter fun k => !c.isKept k) Chip.stopScanLane
    { c with boot := { c.boot with scan := false } }.nameTimeSource

/-- The scan lanes, and the watch lanes without an ensemble in sync, are tuned and their jobs submitted again. -/
def Chip.rescan (c : Chip) : Chip :=
  let lost := fun (e : Nat × (Nat × Int)) => decide (64 ≤ e.1) && (match c.ensOf e.1 with | some n => c.ensState n != 4 | none => true)
  let c := c.each ((c.boot.kept.filter lost).map (·.1)) Chip.stopScanLane
  let c := { c with boot := { c.boot with kept := c.boot.kept.filter fun e => !lost e } }.scanReset
  let c := c.each c.boot.dabOn fun c e => (c.fTune e.1 (blockWin (blockKHz e.2)) (blockKHz e.2)).profileJob (fJob e.1)
  c.each scanLanes fun c k => (c.fTune k 0 (fmKHz (k - 72))).profileJob (fJob k)

/-- F_RESCAN_DUE. -/
def Chip.rescanDue (c : Chip) : Chip :=
  if !c.ctlOn || !c.boot.done || c.reg 0x401 != 15 || c.boot.scan || c.reg 0x40F == 0 || decide (c.tick < c.boot.scanAt + c.reg 0x40F * 61440) then c
  else
    let c := c.wakeCtl
    (if c.blocksAsleep then c.wakeAll else c).rescan

end Sys2Proof.Machine
end

