-- ==== Sys2Proof/Machine/Profile.lean ====
section
/-! DEFINITION. Applying a profile at boot (R472 to R474, R484) and switching to one at run time (R478, R88, R122, R250, R264, R350, R536, R553). -/

namespace Sys2Proof.Machine

/-! Sections. -/

/-- A skipped parameter entry: the first skipped address is kept (R473). -/
def Chip.skipAt (c : Chip) (a : Nat) : Chip := (if c.reg 0x40E = 0xFFFF then c.put 0x40E a else c).skip

/-- A profile may set RW and RWS parameters. -/
def settable (a : Nat) : Bool := match rowAt a with
  | some r => r.acc == .rw || r.acc == .rws
  | none => false

/-- Section types that the receiver does not apply: unknown ones, and key blobs in a format-1 profile. -/
def unknownSections (fmt : Nat) (b : List Byte) : Nat :=
  ((sections b).filter fun s => decide (s.1 < 1) || decide (6 < s.1) || (s.1 == 6 && fmt == 1)).length

/-- The sixteen descriptors of a Canvas map section. -/
def mapWords (b : List Byte) : List Nat := (List.range 16).map fun p => leAt b (4 * p) 4 &&& maskAt 0x7C0

def toMap (l : List Nat) : Tbl Word := (List.range 16).foldl (fun t p => Tbl.set 0 t p (w32 (l.getD p 0))) []

/-- Commit a map at once: the staged descriptors and the active map both take it. -/
def Chip.commitMap (c : Chip) (l : List Nat) : Chip := (c.each (List.range 16) fun c p => c.put (cnvA p 0) (l.getD p 0)).applyMap (toMap l)

/-- A Palette section is sound: bank 0 to 63 and 128 entries (Table 16-6). -/
def bankSection (b : List Byte) : Bool := b.length == 516 && decide (leAt b 0 1 < 64)

/-- A Palette bank, without R121. -/
def Chip.paletteSection (c : Chip) (b : List Byte) : Chip :=
  if bankSection b then c.each (List.range 128) fun c i => c.setPal (leAt b 0 1 * 128 + i) (leAt b (4 + 4 * i) 4) else c.skip

/-- One preloaded Gallery entry (R472): pinned, without AF head and home, its other status bits zero; an entry in use is left unchanged and counted. -/
def Chip.preload (c : Chip) (b : List Byte) : Chip :=
  let w := fun i => leAt b (4 * i) 4
  let kind := bits (w 1) 0 3
  if kind = 0 ∨ 5 < kind ∨ (c.galFind kind (w 0)).isSome then c.skip
  else match c.galInsert kind (w 0) with
    | (none, c) => c.skip
    | (some e, c) =>
      let c := c.setGalW e 1 (setBits (w 1) 24 8 2)
      let c := c.each [2, 3, 4, 5] fun c i => c.setGalW e i (w i)
      (c.setGalW e 6 (setBits (w 6) 0 16 0x3FFF &&& 0x7FFF3FFF)).setGalW e 7 (setBits (w 7) 16 16 0x3FFF)

/-- Key blobs, in order (R540): a refused one is skipped. -/
def loadBlobs (kc : Tbl Key × Chip) (l : List (List Byte)) : Tbl Key × Chip :=
  l.foldl (fun x b => let (r, k, c) := x.2.loadKey x.1 b; (k, if r = 0 then c else c.skip)) kc

/-- The jobs of a profile, in list order. -/
def profileJobs (b : List Byte) : List (List Byte) := ((bodies b 4).map (pieces 28)).flatten

/-- The blobs of a profile; none in format 1. -/
def profileBlobs (fmt : Nat) (b : List Byte) : List (List Byte) := if fmt = 1 then [] else (bodies b 6).flatMap fun s => blobs s.length s

/-- The Gallery entries of a profile. -/
def profileGallery (b : List Byte) : List (List Byte) := ((bodies b 5).map (pieces 32)).flatten

/-- The control outputs' CLRSEL code 3 is DAC_CODE as the profile set it (R527). -/
def Chip.noteDac (c : Chip) (code : Nat → Nat) : Chip := c.each [0, 1, 2, 3] fun c ch => c.modDac ch fun d => { d with prof := code ch }

/-! At boot. -/

/-- One parameter entry at boot, in list order. -/
def Chip.bootParam (c : Chip) (e : Nat × Nat) : Chip :=
  if !settable e.1 then c.skipAt e.1
  else
    let (r, d) := c.writeParam e.1 e.2
    if r = 0 then d else c.skipAt e.1

/-- What the parameter step leaves is in force at once. -/
def Chip.inForce (c : Chip) : Chip :=
  let c := c.applyWrites.applyBusStaged
  c.noteDac fun ch => c.reg (dacA ch 0)

/-- PROFILE_APPLY at boot: every section but the jobs (R472). -/
def Chip.applyProfile (keys : Tbl Key) (c : Chip) (p : Nat) (b : List Byte) : Tbl Key × Chip :=
  let c := c.each (List.range (unknownSections c.boot.fmt b)) fun c _ => c.skip
  let c := c.each (bodies b 2) fun c s => if s.length = 64 ∧ mapOk (mapWords s) = true then c.commitMap (mapWords s) else c.skip
  let c := c.each (bodies b 3) Chip.paletteSection
  let c := (c.each (paramEntries b) Chip.bootParam).inForce
  let c := c.each (profileGallery b) Chip.preload
  let (keys, c) := loadBlobs (keys, c) (profileBlobs c.boot.fmt b)
  (keys, { c with boot := { c.boot with jobs := profileJobs b } }.put 0x401 p |>.put 0x406 (leAt b 8 4))

/-- Profile F at boot (R484). -/
def Chip.applyF (c : Chip) : Chip :=
  let c := ((c.commitMap fMap).each fSettings Chip.bootParam).inForce
  ({ c with boot := { c.boot with jobs := fJobs } }.put 0x401 15).put 0x406 0

/-! At a switch (R478). -/

/-- Every parameter's target value: the last entry of the new profile's list, else its reset value. -/
def targets (l : List (Nat × Nat)) : Tbl Word := (l.filter fun e => settable e.1).foldl (fun t e => Tbl.put t e.1 (w32 (e.2 &&& maskAt e.1))) []

def target (t : Tbl Word) (a : Nat) : Nat := (Tbl.get (w32 (resetAt a)) t a).toNat

/-- A receiver whose parameters all hold their target values, with nothing held or running: the chip that refusal rules are tested on. -/
def Chip.testChip (c : Chip) (t : Tbl Word) (m : List Nat) : Chip :=
  let base : Chip :=
    { c with regs := c.regs.filter (fun e => !settable e.1), staged := [], jobs := [], follows := [], lanes := [], wins := [], dacs := [],
             alarms := [], canvas := { c.canvas with active := toMap m }, bus := { c.bus with staged := [], v1Job := none } }
  let d := base.each t fun d e => d.put e.1 e.2.toNat
  (d.put 0x600 0).put 0xD00 0

/-- The owning chapter refuses a target value. -/
def Chip.targetBad (d : Chip) (a v : Nat) : Bool := !(0x1000 ≤ a && a ≤ 0x1BFF && a % 256 == 8) && (d.writeParam a v).1 != 0

/-- The parameters whose target differs from what they hold, with the target; page 0x05 apart. -/
def Chip.changes (c : Chip) (t : Tbl Word) : List (Nat × Nat) :=
  let as := (c.regs.map (·.1)).filter (fun a => settable a && (Tbl.find t a).isNone) ++ t.map (·.1)
  (as.filter fun a => a / 256 != 5 && c.reg a != target t a).map fun a => (a, target t a)

/-- Page 0x05: new values wait for the first STOP (Table 14-7). -/
def Chip.switchBus (c : Chip) (t : Tbl Word) : Chip :=
  let old := c.bus.staged
  let as := [0x502, 0x503, 0x504, 0x505, 0x506, 0x507, 0x509, 0x50A]
  let new := as.filter fun a => c.reg a != target t a
  let c := { c with bus := { c.bus with staged := new.foldl (fun l a => Tbl.put l a (w32 (target t a))) ([] : Tbl Word), atStop := !new.isEmpty } }
  if new.isEmpty && old.isEmpty then c else c.stepGenAt 0x50B

/-- A change inside an address range. -/
def within (ch : List (Nat × Nat)) (lo hi : Nat) : Bool := ch.any fun e => decide (lo ≤ e.1) && decide (e.1 ≤ hi)

def valueOf (ch : List (Nat × Nat)) (a : Nat) : Option Nat := (ch.find? fun e => e.1 == a).map (·.2)

/-- Front end `fe` and its converter. -/
def Chip.switchFe (c : Chip) (ch : List (Nat × Nat)) (fe : Nat) : Chip :=
  let c := c.applyGain fe (valueOf ch (feA fe 2)) (valueOf ch (feA fe 4))
  match valueOf ch (feA fe 0) with
  | some v => c.applyPath fe v
  | none => if within ch (feA fe 1) (feA fe 0x3F) then (c.stepGen fe).refreshWins fe true true false else c

/-- Window `w`. -/
def Chip.switchWin (c : Chip) (ch : List (Nat × Nat)) (w : Nat) : Chip :=
  let v := valueOf ch (winA w 0)
  let s := valueOf ch (winA w 1)
  let c := c.applyWindow w v s
  if v.isNone && s.isNone && within ch (winA w 0x10) (winA w 0x1F) then
    let c := c.stepGenAt (winA w 3)
    if c.winRuns w then c.winRestart w true true else c
  else c

/-- WIN_EXPORT: an export that a parameter write began ends, or one begins (R84). -/
def Chip.switchExport (c : Chip) (t : Tbl Word) (w : Nat) : Chip :=
  let want := target t (winA w 8) == 1
  match (c.win w).expJob with
  | some j => if !want && (match c.job? j with | some x => x.origin == 2 | none => false) then c.endJob j else c
  | none => if want then (let (r, d) := c.wrExport w 1; if r = 0 then d else d.skipAt (winA w 8)) else c

/-- Lane `k`: its configuration, its tuning, or a bank that it uses has changed (R110, R122). It uses its active bank, and the other one during a fade; a bank that is
only the pending target of a request is not in use (DESIGN CHOICE, log entry 62: R122 does not say). -/
def Chip.switchLane (c : Chip) (ch : List (Nat × Nat)) (banks : List Nat) (k : Nat) : Chip :=
  let nco := valueOf ch (laneA k 1)
  let cfg := (valueOf ch (laneA k 0)).isSome || (valueOf ch (laneA k 2)).isSome || (valueOf ch (laneA k 3)).isSome || (valueOf ch (laneA k 10)).isSome
  let uses := banks.contains (c.laneBank k) || ((c.lane k).fading && banks.contains (c.laneBankOf k (!(c.lane k).actB)))
  let c := match valueOf ch (laneA k 3) with
    | some _ => c.modLane k fun l => { l with actB := false, fading := false, pend := none }
    | none => c
  let c := match nco with
    | some v => (c.put (laneA k 1) v).modLane k fun l => { l with phaseAt := c.tick }
    | none => c
  let runs := c.laneHeld k && (c.lane k).started
  if !cfg && nco.isNone && !(runs && uses) then c
  else if !runs then c.stepGenAt (laneA k 6)
  else if (c.lane k).suspended then
    let c := c.stepGenAt (laneA k 6)
    if c.winRuns (c.laneWin k) then c.resumeLane k false else c
  else
    let c := c.laneGenStep k (nco.isNone && (valueOf ch (laneA k 0)).isNone)
    if c.winRuns (c.laneWin k) then c else c.suspendLane k

/-- Control output `n` (R536). -/
def Chip.switchDac (c : Chip) (ch : List (Nat × Nat)) (n : Nat) : Chip :=
  if !within ch (dacA n 0) (dacA n 15) then c
  else
    let c := c.modDac n fun d => { d with sine := false, sineReq := none, pend := true, armed := true, hold := false }
    match valueOf ch (dacA n 1) with
    | some v => c.applyDacRange n v
    | none => c

/-- Blocks whose configuration is a page of plain values, and that step one generation number. -/
def Chip.switchPages (keys : Tbl Key) (c : Chip) (ch : List (Nat × Nat)) : Chip :=
  let step := fun (c : Chip) lo hi g => if within ch lo hi then c.stepGenAt g else c
  let c := c.each (List.range 8) fun c e =>
    if within ch (dabA e 0) (dabA e 0x7F) then (let c := c.stepGenAt (dabA e 2); if c.ensLane e = 0xFF then c else c.demodVoid (c.ensLane e) true) else c
  let c := c.each (List.range 16) fun c n =>
    if within ch (drmA n 0) (drmA n 0x7F) then (let c := c.stepGenAt (drmA n 2); if c.chLane n = 0xFF then c else c.demodVoid (c.chLane n) true) else c
  let c := if within ch 0xC00 0xC0F || within ch 0xC30 0xC3F then c.stepGenAt 0xC07 else c
  let c := if within ch 0xC30 0xC3F then c.almSwitch keys else c
  let c := step c 0xC60 0xCFF 0xC6F
  let c := c.each (List.range 8) fun c i => if within ch (lnkA i 0) (lnkA i 15) then c.followRestart i else c
  let c := if within ch 0xA00 0xAFF then c.each [0, 1] Chip.runAgain else c
  let c := step c 0xB00 0xBFF 0xB04
  let c := if within ch 0xD00 0xDFF then c.linkGenStep else c
  let c := step c 0xE00 0xEFF 0xE41
  if within ch 0xF00 0xFFF then c.varGenStep else c

/-- Changes that `switchParams` hands to a block of their own. -/
def byBlock (a : Nat) : Bool :=
  special a && !(0x700 ≤ a && a ≤ 0x702) && a != 0xD01 && a != 0xD02 && a != 0x640 && a != 0x600 && a != 0xB09 && a != 0xB0B && a != 0x300 && a != 0x235 &&
    !(decide (0x5000 ≤ a))

/-- Every parameter takes its target value, and each block then reconfigures once (R478). -/
def Chip.switchParams (keys : Tbl Key) (c : Chip) (t : Tbl Word) (banks : List Nat) : Chip :=
  let ch := c.changes t
  let plain := ch.filter fun e => (!special e.1 || (0x700 ≤ e.1 && e.1 ≤ 0x702) || e.1 == 0xD01 || e.1 == 0xD02) && !(0x1000 ≤ e.1 && e.1 ≤ 0x1BFF && e.1 % 256 == 8)
  let own := ch.filter fun e => special e.1 && !byBlock e.1 && !(0x700 ≤ e.1 && e.1 ≤ 0x702) && e.1 != 0xD01 && e.1 != 0xD02
  let c := { c with staged := [] }
  let c := c.each plain fun c e => c.put e.1 e.2
  let c := c.each own fun c e => c.applySpecial e.1 e.2
  let c := if within ch 0x601 0x601 && (valueOf ch 0x600).isNone then c.stepGenAt 0x606 else c
  let c := c.each [0, 1] fun c fe => c.switchFe ch fe
  let c := c.each (List.range 12) fun c w => c.switchWin ch w
  let c := c.each (List.range 160) fun c k => c.switchLane ch banks k
  let c := c.each [0, 1, 2, 3] fun c n => c.switchDac ch n
  let c := c.switchPages keys ch
  let c := (c.noteDac fun n => (Tbl.get 0 t (dacA n 0)).toNat).switchBus t
  c.refreshDiv.refreshSched

/-- R350: jobs of the old profile that the new one does not hold end; the order of its three steps surrounds the parameters. -/
def Chip.endOldJobs (c : Chip) (new : List (List Byte)) : Chip :=
  c.each ((c.jobs.filter fun e => e.2.origin == 1 && !new.contains e.2.desc).map (·.1)) Chip.endJob

def Chip.submitNewJobs (c : Chip) (new : List (List Byte)) : Chip :=
  let held := (c.jobs.filter fun e => e.2.origin == 1).map fun e => e.2.desc
  c.each (new.filter fun d => !held.contains d) Chip.profileJob

def Chip.renewHostJobs (c : Chip) : Chip := c.each ((c.jobs.filter fun e => e.2.origin != 1).map (·.1)) Chip.renewAtSwitch

/-- The new profile in force at the boundary: `p` with its entries, map, banks, Gallery preload, blobs and jobs. -/
def Chip.switchTo (keys : Tbl Key) (c : Chip) (p ident : Nat) (entries : List (Nat × Nat)) (map : Option (List Nat)) (palettes gallery blobs jobs : List (List Byte)) : Tbl Key × Chip :=
  let m := match map with | some l => if mapOk l then l else List.replicate 16 0 | none => List.replicate 16 0
  let withMap := entries ++ (List.range 16).map fun i => (cnvA i 0, m.getD i 0)
  let all := targets withMap
  let d := c.testChip all m
  let bad := all.filter fun e => d.targetBad e.1 e.2.toNat
  let t := all.filter fun e => !d.targetBad e.1 e.2.toNat
  let c := c.each (entries.filter fun e => !settable e.1) fun c e => c.skipAt e.1
  let c := c.each bad fun c e => c.skipAt e.1
  let c := if map = some m then c else c.skip
  let c := c.endOldJobs jobs
  let c := c.applyMap (toMap m)
  let c := c.each palettes Chip.paletteSection
  let banks := (palettes.filter bankSection).map fun b => leAt b 0 1
  let c := (c.switchParams keys t banks).noteSrcs c
  let c := c.each gallery Chip.preload
  let (keys, c) := loadBlobs (keys, c) blobs
  let c := c.each (List.range 12) fun c w => c.switchExport t w
  let c := (c.submitNewJobs jobs).renewHostJobs
  (keys, { c with boot := { c.boot with prof := none, fbk := false, goodAt := c.time.now, scan := false, kept := [], dabOn := [] } }.put 0x401 p |>.put 0x406 ident |>.putBit 0x403 5 false)

/-- A run-time switch to a checked profile, or to F where the bytes are none (R479). -/
def Chip.switchProfile (keys : Tbl Key) (c : Chip) : Tbl Key × Chip := match c.boot.prof with
  | none => (keys, c)
  | some (p, b) =>
    if p = 15 then
      let (keys, c) := c.switchTo keys 15 0 (fSettings ++ [(0x300, 1)]) (some fMap) [] [] [] fJobs
      (keys, c.scanReset)
    else
      let c := c.each (List.range (unknownSections c.boot.fmt b)) fun c _ => c.skip
      let map := match bodies b 2 with | s :: _ => if s.length = 64 then some (mapWords s) else none | [] => some (List.replicate 16 0)
      c.switchTo keys p (leAt b 8 4) (paramEntries b) map (bodies b 3) (profileGallery b) (profileBlobs c.boot.fmt b) (profileJobs b)

end Sys2Proof.Machine
end

