-- ==== Sys2Proof/Machine/Boot.lean ====
section
/-! DEFINITION. The boot sequence, the NVM bus, the journal and the PROFILE command (R460 to R488). -/

namespace Sys2Proof.Machine

def handleBoot : Nat := handleBlock 0x13

/-! Start. -/

/-- The sequence of Table 16-1 starts (R460, R581): BOOT_CAUSE, event 3, TCXO_EN rises. -/
def Chip.bootStart (c : Chip) : Chip :=
  let cause := c.power.cause.getD 1
  let c := (c.put 0x400 cause).raise 3 handleBoot cause
  { c with boot := { c.boot with phase := 1 }, power := { c.power with cause := none }, clk := { c.clk with tcxoEn := true } }.put 0x231 1

/-- A boot that waits starts once AO is ready, RESET_N high and the core rail valid. -/
def Chip.tryBoot (c : Chip) : Chip := if c.power.aoReady && c.ctlOn && c.power.cause.isSome && c.boot.phase == 0 then c.bootStart else c

/-- ADDR and PROF are sampled (R460). -/
def Chip.samplePins (c : Chip) : Chip := (c.put 0x500 (0x58 + c.power.addrPins)).put 0x402 c.power.profPins

/-- Deep sleep ends (R377): the sequence runs with cause 2, with both pin pairs sampled again. -/
def Chip.deepWake (c : Chip) : Chip :=
  if !c.power.deep then c
  else { c with power := { c.power with deep := false, cause := some 2 } }.samplePins.tryBoot

/-! Outcomes of the reads. -/

/-- The boots held in the AO domain and this one are added to those of the journal (R480, R481). -/
def Chip.countBoot (c : Chip) (base : Nat) : Chip :=
  let n := c.power.aoBoots.getD 0
  { c.put 0x410 0 with power := { c.power with aoBoots := some (n + 1) } }.countBy 0x410 (base + n + 1)

/-- The receiver runs factory profile F; with `fbk` set after a check-word failure (R471). -/
def Chip.fallBack (c : Chip) (fbk : Bool) : Chip := { c with boot := { c.boot with prof := some (15, []), phase := 4, fbk := c.boot.fbk || fbk } }

def Chip.lastErr (c : Chip) (reason : Nat) : Chip := c.put 0x404 reason

/-- A header outcome other than valid (Table 16-4). -/
def Chip.headerOutcome (c : Chip) (n : Nat) : Chip :=
  let c := (c.putField 0x403 0 3 n).countBoot 0
  let c := if n = 5 then c.lastErr rBusFault else if n = 4 then c.lastErr rBad else c
  c.fallBack (decide (4 ≤ n))

/-- The directory entry of a profile. -/
def Chip.entryOf (c : Chip) (p : Nat) : Nat × Nat := c.boot.dir.getD p (0, 0)

/-- Profile PROF[1:0] is selected; an empty entry makes the receiver run F (R476). -/
def Chip.selectProfile (c : Chip) : Chip :=
  let p := c.reg 0x402
  if (c.entryOf p).2 = 0 then (((c.putBit 0x403 3 true).raise 1 handleBoot p).lastErr rNotInProfile).fallBack true
  else { c with boot := { c.boot with phase := 3 } }

/-- The transactions of a read of `len` bytes from byte address `addr`: each ends at a 64 KiB boundary, and the next goes to the next device address (R466);
`n` bounds their number. -/
def nvmPlan : Nat → Nat → Nat → List NvmTx
  | 0, _, _ => []
  | n + 1, addr, len =>
    if len = 0 then []
    else
      let here := min len (65536 - addr % 65536)
      { dev := 0x50 + addr / 65536, word := addr % 65536, len := here } :: nvmPlan n (addr + here) (len - here)

/-- A read of the NVM has been made. -/
def Chip.noteRead (c : Chip) (addr len : Nat) : Chip := { c with boot := { c.boot with reads := nvmPlan (len / 65536 + 2) addr len } }

/-- NVM_HEADER_READ (R467, R468, Table 16-4): an invalid header or a magic mismatch is read once more. -/
def Chip.headerRead (c : Chip) (r : NvmRead) : Chip :=
  if !c.ctlOn || c.boot.phase != 1 then c
  else
    let c := { c with boot := { c.boot with losses := 0, clears := 0 } }
    match r with
    | none => c.headerOutcome 5
    | some b =>
      let c := c.noteRead 0 64
      if headerOk b then
        let j := journalAt b
        let c := { c with boot := { c.boot with fmt := leAt b 4 1, dir := directory b, jptr := j, jen := (leAt b 7 1).testBit 1, page := leAt b 8 2 } }
        let c := ((c.putField 0x403 0 3 1).put 0x405 (leAt b 48 4)).put 0x408 (bits (leAt b 7 1) 0 1)
        if j.isSome then { c with boot := { c.boot with phase := 2 } }.put 0x40C 1 else (c.countBoot 0).selectProfile
      else if c.boot.reread then c.headerOutcome (if magicOk b then 4 else 3)
      else { c with boot := { c.boot with reread := true } }

/-! The journal (R480 to R483). -/

/-- What a slot's content is compared by: all but sequence, UTC and check. -/
def slotContent (b : List Byte) : List Byte := b.take 4 ++ (b.drop 8).take 96 ++ (b.drop 108).take 16

/-- A slot's values are loaded (R480, R398). -/
def Chip.loadSlot (c : Chip) (slot : Nat) (b : List Byte) : Chip :=
  let c := c.each [0, 1] fun c fe =>
    let t := if leAt b (14 + 2 * fe) 2 = 0x8000 then none else some (toSigned 16 (leAt b (14 + 2 * fe) 2))
    let c := c.each (List.range 5) fun c i => c.put (calFeA fe (1 + i)) (leAt b (18 + 10 * fe + 2 * i) 2)
    (c.modFe fe fun f => { f with ladJournal := t, ladTemp := t }).ladderStatus fe
  let c := c.each [0, 1] fun c a => c.each (List.range 5) fun c i => c.put (calAdcA a (1 + i)) (leAt b (40 + 20 * a + 4 * i) 4)
  let c := c.each [0, 1, 2, 3] fun c n => c.put (0xA50 + n) (leAt b (80 + 4 * n) 4)
  let c := ((c.put 0x235 (leAt b 96 4)).put 0x232 (leAt b 100 2)).put 0x407 (leAt b 12 1)
  { c with boot := { c.boot with jnew := some (slot, leAt b 4 4), jlast := slotContent b } }

/-- JOURNAL_READ. -/
def Chip.journalRead (c : Chip) (a b : NvmRead) : Chip :=
  if !c.ctlOn || c.boot.phase != 2 then c
  else match a, b with
    | some x, some y =>
      let c := { c with boot := { c.boot with losses := 0, clears := 0 } }.noteRead (c.boot.jptr.getD 0) 256
      match newestSlot x y with
      | none => (c.countBoot 0).selectProfile
      | some n =>
        let s := if n = 0 then x else y
        ((c.loadSlot n s).countBoot (leAt s 8 4)).selectProfile
    | _, _ => ((c.countBoot 0).lastErr rBusFault).fallBack true

/-- The last good profile that a write records (R482). -/
def Chip.lastGood (c : Chip) : Nat :=
  if c.reg 0x401 ≤ 3 ∧ !c.boot.fbk ∧ c.boot.goodAt + 3600 * 32768000 ≤ c.time.now then c.reg 0x401 else c.reg 0x407

/-- A journal slot as it is written (Table 16-7). -/
def Chip.journalSlot (c : Chip) : List Byte :=
  let seq := match c.boot.jnew with | some (_, s) => min 0xFFFFFFFF (s + 1) | none => 1
  let temp := fun fe => match (c.fe fe).ladTemp with | some t => ofSigned 16 t | none => 0x8000
  let l := le 2 0x5A4A ++ le 2 1 ++ le 4 seq ++ le 4 (c.reg 0x410) ++ [b8 c.lastGood, b8 (c.reg 0x400)] ++ le 2 (temp 0) ++ le 2 (temp 1) ++
    ([0, 1].flatMap fun fe => (List.range 5).flatMap fun i => le 2 (c.reg (calFeA fe (1 + i)))) ++ [0, 0] ++
    ([0, 1].flatMap fun a => (List.range 5).flatMap fun i => le 4 (c.reg (calAdcA a (1 + i)))) ++ ((List.range 4).flatMap fun n => le 4 (c.reg (0xA50 + n))) ++
    le 4 (c.reg 0x235) ++ le 2 (c.reg 0x232) ++ [0, 0] ++ le 4 c.utcSeconds ++ [b8 (c.reg 0xC23)] ++ zeros 15
  l ++ le 4 (crc32c l).toNat

/-- Studio counts of the 3,600 s between journal writes. -/
def journalGap : Nat := 3600 * 32768000

/-- JOURNAL_WRITE_DUE: asleep, the write waits for the next CTL wake. -/
def Chip.journalDue (c : Chip) : Chip :=
  if !c.ctlOn || !c.boot.done || !c.boot.jen || c.reg 0x40A == 0 || c.boot.jptr.isNone || c.boot.jwrite.isSome || decide (c.time.now < c.boot.jat + journalGap) then c
  else if c.asleep then c.put 0x40C 2
  else
    let b := c.journalSlot
    let c := { c with boot := { c.boot with jat := c.boot.jat + (c.time.now - c.boot.jat) / journalGap * journalGap, losses := 0, clears := 0 } }
    if c.boot.jask ∨ slotContent b ≠ c.boot.jlast then
      let slot := match c.boot.jnew with | some (0, _) => 1 | _ => 0
      { c with boot := { c.boot with jask := false, jwrite := some (b, slot) } }.put 0x40C 3
    else c.put 0x40C 1

/-- The journal write fails: event 54, and it is tried again at the next due moment (R483). -/
def Chip.journalFail (c : Chip) : Chip := match c.boot.jwrite with
  | none => c
  | some (_, slot) => (({ c with boot := { c.boot with jask := true, jwrite := none } }.raise 54 handleBoot slot).count 0x416).put 0x40C 1

/-- JOURNAL_READBACK. -/
def Chip.journalReadback (c : Chip) (ok : Bool) : Chip :=
  if !c.ctlOn then c
  else match c.boot.jwrite with
    | none => c
    | some (b, slot) =>
      if ok then
        let c := { c with boot := { c.boot with jwrite := none, jnew := some (slot, leAt b 4 4), jlast := slotContent b, losses := 0, clears := 0 },
                          power := { c.power with aoBoots := some 0 } }
        (((c.count 0x415).put 0x40D (c.tick % 2 ^ 32)).put 0x40C 1).put 0x407 (leAt b 12 1)
      else c.journalFail

/-! The NVM bus (R463 to R465). -/

/-- The NVM bus fails: at boot the receiver runs F; a running journal write fails. -/
def Chip.nvmFault (c : Chip) : Chip :=
  let c := { c with boot := { c.boot with losses := 0, clears := 0 } }
  if c.boot.phase = 1 then c.headerOutcome 5
  else if c.boot.phase = 2 then ((c.countBoot 0).lastErr rBusFault).fallBack true
  else if c.boot.phase = 3 then (c.lastErr rBusFault).fallBack true
  else (c.lastErr rBusFault).journalFail

/-- The NVM bus is in use: a boot read, a journal write. -/
def Chip.nvmActive (c : Chip) : Bool := c.ctlOn && ((1 ≤ c.boot.phase && c.boot.phase ≤ 3) || c.boot.jwrite.isSome)

/-- NVM_ARBITRATION_LOST: the eighth loss of a transaction is a BUS_FAULT. -/
def Chip.nvmLost (c : Chip) : Chip :=
  if !c.nvmActive then c
  else
    let n := c.boot.losses + 1
    let c := ({ c with boot := { c.boot with losses := n } }.raise 51 handleBoot n).count 0x413
    if 8 ≤ n then c.nvmFault else c

/-- NVM_BUS_BUSY_TIMEOUT. -/
def Chip.nvmBusy (c : Chip) : Chip := if c.nvmActive then c.nvmFault else c

/-- NVM_NO_ACK_RETRY: 10 ms without an acknowledge is an absent memory at the header read, a BUS_FAULT later. -/
def Chip.nvmNoAck (c : Chip) (us : Nat) : Chip :=
  if !c.nvmActive || decide (us < 10000) then c else if c.boot.phase = 1 then c.headerOutcome 2 else c.nvmFault

/-- NVM_BUS_CLEAR: the third clearing without a high SDA is a BUS_FAULT. -/
def Chip.nvmClear (c : Chip) (pulses : Nat) (released : Bool) : Chip :=
  if !c.nvmActive then c
  else
    let n := if released then 0 else c.boot.clears + 1
    let c := ({ c with boot := { c.boot with clears := n } }.raise 50 handleBoot (min 9 pulses)).count 0x414
    if 3 ≤ n then c.nvmFault else c

/-! Reading a profile (R471). -/

/-- The outcome of a profile read: its checked bytes, a failed check twice, or a bus fault. -/
inductive ReadRes where
  | good (b : List Byte)
  | bad
  | fault
deriving DecidableEq, Repr

/-- One read and its check: BOOT_READ_CNT; a failure raises event 2 and counts. -/
def Chip.checkOnce (c : Chip) (p : Nat) (b : List Byte) : Bool × Chip :=
  let c := (c.count 0x411).noteRead (c.entryOf p).1 (c.entryOf p).2
  if profileOk c.boot.fmt p (c.entryOf p).2 b then (true, c) else (false, (c.raise 2 handleBoot p).count 0x412)

/-- A profile read, with the second read after a failed check. -/
def Chip.checkRead (c : Chip) (p : Nat) (first second : NvmRead) : ReadRes × Chip := match first with
  | none => (.fault, c.lastErr rBusFault)
  | some b => match c.checkOnce p b with
    | (true, c) => (.good b, c)
    | (false, c) => match second with
      | none => (.fault, c.lastErr rBusFault)
      | some b2 => match c.checkOnce p b2 with
        | (true, c) => (.good b2, c)
        | (false, c) => (.bad, c.lastErr rBad)

/-- PROFILE_READ_CHECKED at boot. -/
def Chip.profileRead (c : Chip) (p : Nat) (first second : NvmRead) : Chip :=
  if !c.ctlOn || c.boot.phase != 3 || p != c.reg 0x402 then c
  else match c.checkRead p first second with
    | (.good b, c) => { c with boot := { c.boot with prof := some (p, b), phase := 4 } }
    | (.bad, c) => ((c.putBit 0x403 4 true).raise 1 handleBoot p).fallBack true
    | (.fault, c) => c.fallBack true

/-! Applying it. -/

/-- PROFILE_APPLY. -/
def Chip.bootApply (keys : Tbl Key) (c : Chip) : Tbl Key × Chip :=
  if !c.ctlOn || c.boot.phase != 4 then (keys, c)
  else
    let (keys, c) := match c.boot.prof with
      | some (p, b) => if p = 15 then (keys, c.applyF) else c.applyProfile keys p b
      | none => (keys, c)
    (keys, { c with boot := { c.boot with phase := 5, appliedAt := c.tick } })

/-- The job section may be applied (R474). -/
def Chip.jobsReady (c : Chip) : Bool :=
  ((List.range 12).filter fun w => decide (c.winSrc w < 2)).all (fun w => c.reg (winA w 2) == 2) || decide (c.boot.appliedAt + 64 ≤ c.tick)

/-- JOB_SECTION_APPLY: the profile's jobs in list order, or the first scan jobs of F. -/
def Chip.bootJobs (c : Chip) : Chip :=
  if !c.ctlOn || c.boot.phase != 5 || !c.jobsReady then c
  else
    let c := c.each c.boot.jobs Chip.profileJob
    let c := if c.reg 0x401 = 15 then c.scanReset else c
    { c with boot := { c.boot with phase := 6, jobs := [], prof := none } }

/-- BOOT_DONE (R475): event 0; profile F enters Sketch mode. -/
def Chip.bootFinish (c : Chip) : Chip :=
  if !c.ctlOn || c.boot.phase != 6 then c
  else
    let c := { c with boot := { c.boot with phase := 7, done := true, goodAt := c.time.now, jat := c.time.now } }.raise 0 handleBoot (c.reg 0x401)
    if c.reg 0x401 = 15 then c.applyPwrMode 1 else c

/-! PROFILE and the switch (R477 to R479). -/

/-- A switch waits for its tick boundary. -/
def Chip.switchPending (c : Chip) : Bool := c.boot.done && c.boot.prof.isSome

/-- The switch to `p` is accepted: the reply gives its tick. -/
def Chip.acceptSwitch (c : Chip) (p : Nat) (b : List Byte) : List Byte × Chip :=
  let t := c.tick + 1
  ([0x00] ++ le 4 t, { c with boot := { c.boot with prof := some (p, b), appliedAt := t } }.putBit 0x403 5 true)

/-- PROFILE, with nothing to wait for. -/
def Chip.profileNow (c : Chip) (p : Nat) (first second : NvmRead) : List Byte × Chip :=
  if p = 15 then c.acceptSwitch 15 []
  else if 4 ≤ p then ([b8 rBad], c)
  else if c.boot.fmt = 0 ∨ (c.entryOf p).2 = 0 then ([b8 rNotInProfile], c)
  else match c.checkRead p first second with
    | (.good b, c) => c.acceptSwitch p b
    | (.bad, c) => ([b8 rBad], c)
    | (.fault, c) => ([b8 rBusFault], c)

/-- PROFILE (R477, R488): it waits for a pending switch, and a read waits for a running journal write. -/
def Chip.profileCmd (c : Chip) (p : Nat) (first second : NvmRead) (sealedBy : Option Nat) : List Byte × Chip :=
  if c.switchPending || (c.boot.jwrite.isSome && decide (p < 4)) then ([], { c with boot := { c.boot with wait := some (p, first, second, sealedBy) } })
  else c.profileNow p first second

/-- PROFILE_SWITCH at its boundary. -/
def Chip.profileSwitch (keys : Tbl Key) (c : Chip) : Tbl Key × Chip :=
  if c.ctlOn && c.switchPending && decide (c.boot.appliedAt ≤ c.tick) then c.switchProfile keys else (keys, c)

end Sys2Proof.Machine
end

