-- ==== Sys2Proof/Machine/Tables.lean ====
section
/-! DEFINITION. The table ports (R431, Table 14-5): Palette, Gallery, AF pool, Swatch log, glimpse plan and link reference. -/

namespace Sys2Proof.Machine

/-- Words of a table; 0 for a table that does not exist. -/
def tableSize (t : Nat) : Nat :=
  if t = 1 then 8192 else if t = 2 then 131072 else if t = 3 then 16384 else if t = 4 then 131072 else if t = 5 then 1024 else if t = 6 then 32800 else 0

/-- One word of a table. -/
def Chip.tableWord (c : Chip) (t i : Nat) : Word :=
  if t = 1 then c.pal i
  else if t = 2 then Tbl.get 0 c.gallery i
  else if t = 3 then Tbl.get 0 c.afPool i
  else if t = 4 then Tbl.get 0 c.swtLog i
  else if t = 5 then match Tbl.find c.glimpses (i / 4) with
    | some g => w32 (g.words.getD (i % 4) 0)
    | none => 0
  else if t = 6 then Tbl.get 0 c.linkRef i
  else 0

/-- TABLE_READ: 1 to 63 words inside the table. -/
def Chip.tableRead (c : Chip) (t first n : Nat) : List Byte :=
  if n = 0 ∨ 63 < n ∨ tableSize t < first + n then [b8 rBad]
  else b8 rOk :: (List.range n).flatMap fun i => le 4 (c.tableWord t (first + i)).toNat

/-- A bank is in use (R121): active on a running lane, in a running fade, or the pending target of a request. -/
def Chip.bankInUse (c : Chip) (b : Nat) : Bool :=
  (List.range 160).any fun k => c.laneRuns k && (c.laneBank k == b || ((c.lane k).fading && c.laneBankOf k (!(c.lane k).actB) == b) || (c.lane k).pend == some b)

/-- The table's owning rule refuses a write of these words (R121, R281). -/
def Chip.tableBad (c : Chip) (t : Nat) (idx : List Nat) : Bool :=
  if t = 1 then idx.any fun i => c.bankInUse (i / 128)
  else if t = 6 then idx.any fun i => c.refStatus (i / 4100) == 1
  else true

/-- TABLE_WRITE: 1 to 62 words, whole or not at all. -/
def Chip.tableWrite (c : Chip) (t first : Nat) (ws : List Word) : List Byte × Chip :=
  let idx := (List.range ws.length).map fun i => first + i
  if ws.isEmpty || decide (62 < ws.length) || decide (tableSize t < first + ws.length) || c.tableBad t idx then ([b8 rBad], c)
  else ([b8 rOk], c.each (idx.zip ws) fun c e => if t = 1 then c.setPal e.1 e.2.toNat else c.writeRef e.1 e.2.toNat)

end Sys2Proof.Machine
end

