-- ==== Sys2Proof/Machine/Seal.lean ====
section
/-! DEFINITION. The version-1 subset (R434 to R436) and sealed sessions (R554 to R556). -/

namespace Sys2Proof.Machine

/-! The legacy commands. -/

/-- V1_STATUS (Table 14-6). -/
def Chip.v1StatusCmd (c : Chip) : List Byte :=
  let a := match c.byAge with
    | x :: _ => (x.2.kind, x.2.identity)
    | [] => (0, 0)
  [b8 rOk, b8 (c.field 0xC39 0 6), b8 a.1, 0] ++ le 4 a.2 ++ le 4 c.time.lastUtc ++ [b8 (c.reg 0x233), b8 (c.reg 0xC23), 0, 0] ++
    le 4 (if c.v1Held then c.bus.v1kHz else 0)

/-- V1_RDS: the last group that the legacy lane passed on, and its age. -/
def Chip.v1RdsCmd (c : Chip) : List Byte :=
  let k := c.reg 0x509
  match (if k < 160 then (c.rds k).last else none) with
  | some (b, t) => b8 rOk :: (b ++ le 4 (c.tick - t))
  | none => [b8 rOk]

/-- The legacy event byte: each bit with the native event it reports. -/
def Chip.v1Bits (c : Chip) : List (Nat × Nat × Bool) :=
  [(0, 40, c.isPending 40), (1, 41, c.isPending 41), (2, 42, c.isPending 42), (3, 33, c.isPending 33 && c.ev.legacy.testBit 0),
   (4, 34, c.isPending 34 && c.ev.legacy.testBit 1), (5, 1, c.isPending 1), (6, 52, c.isPending 52)]

/-- V1_EVENTS: what is reported clears. -/
def Chip.v1EventsCmd (c : Chip) : List Byte × Chip :=
  let l := c.v1Bits.filter fun e => e.2.2
  let c2 := c.each l fun c e => if e.2.1 < 32 then c.clearEvents (2 ^ e.2.1) 0 else c.clearEvents 0 (2 ^ (e.2.1 - 32))
  ([b8 rOk, b8 (sumList (l.map fun e => 2 ^ e.1))], c2)

/-- The lowest running window whose centre lies within the band's reach of a frequency: 13.0 MHz for FM, 12.332 MHz for DAB, in steps of the lane NCO. -/
def Chip.v1Window (c : Chip) (kHz band : Nat) : Option Nat :=
  let reach := if band = 0 then 13000 * 131072 else 12332 * 131072
  (List.range 12).find? fun w => c.winRuns w && decide (((kHz * 131072 : Nat) - (16 * c.reg (winA w 0) : Nat) : Int).natAbs ≤ reach)

/-- The lane is written and its job submitted: the reply, with the tick at which the lane starts. -/
def Chip.v1Start (c : Chip) (kHz band : Nat) : List Byte × Chip :=
  match c.v1Window kHz band with
  | none => ([b8 rStopped], c)
  | some w =>
    let k := c.reg 0x509
    let set := fun (c : Chip) (e : Nat × Nat) => (c.writeParam (laneA k e.1) e.2).2
    let c := c.each [(0, 0xF0 + w), (2, if band = 0 then 0x84 else 0x81), (3, if band = 0 then 0x0900 else 0x0902), (1, c.ncoFor w kHz)] set
    let (body, c) := c.submit (mkDesc 1 0 (if band = 0 then 0x01 else 0x10) (0x60000000 + k * 2 ^ 17) 0) 0
    if body.headD 0 ≠ 0 then (body.take 1, c)
    else
      let c := { c with bus := { c.bus with v1Job := some (leAt body 2 2), v1kHz := kHz } }
      let s := c.reg 0x50A
      let c := if band = 0 then ((c.writeParam (fmsA s 0) k).2.writeParam (fmsA s 1) 0).2 else c
      (b8 rOk :: le 4 (c.tick + 1), c)

/-- V1_TUNE (R434). -/
def Chip.v1TuneCmd (c : Chip) (kHz band : Nat) (sealedBy : Option Nat) : List Byte × Chip :=
  let k := c.reg 0x509
  let s := c.reg 0x50A
  if k = 0xFF ∨ (band = 0 ∧ s = 31) then ([b8 rNotInProfile], c)
  else if 2 < band then ([b8 rBad], c)
  else if band < 2 ∧ (c.v1Window kHz band).isNone then ([b8 rStopped], c)
  else
    let old := if c.v1Held then c.bus.v1Job else none
    let c := match old with | some j => c.withdraw j | none => c
    if band = 2 then
      let c := if s < 16 then (c.writeParam (fmsA s 0) 0xFF).2 else c
      (b8 rOk :: le 4 (c.tick + 1), c)
    else if old.isSome then ([], { c with bus := { c.bus with v1Wait := some { kHz := kHz, band := band, sealedBy := sealedBy, gen := c.reg (laneA k 6) } } })
    else c.v1Start kHz band

/-- R556: PROFILE and V1_TUNE need a sealed command under version 1. -/
def Chip.needsSeal (c : Chip) : Bool := c.bit 0xF00 2 && c.reg 0x501 == 1

/-! Sealed sessions. -/

/-- The tag of a sealed exchange: the first 8 bytes of a CMAC that begins with a label and both nonces. -/
def Chip.sealTag (c : Chip) (key : Key) (label : Byte) (rest : List Byte) : List Byte := (cmac key.bytes ([label] ++ c.varn.nh ++ c.varn.nr ++ rest)).take 8

/-- SEAL_OPEN (R554). -/
def Chip.sealOpenCmd (keys : Tbl Key) (c : Chip) (slot : Nat) (nonce : List Byte) : List Byte × Chip := match keyFor keys slot 3 with
  | none => ([b8 rBad], c)
  | some k =>
    if nonce.length ≠ 8 then ([b8 rBad], c)
    else
      let nr := (List.range 8).map (Config.noise c.varn.drawn)
      let c := { c with varn := { c.varn with nh := nonce, nr := nr, drawn := c.varn.drawn + 1 } }
      let c := ((c.put 0xF05 (slot + 8)).put 0xF06 (c.slotCtr slot)).count 0xF19
      ([b8 rOk] ++ nr ++ c.sealTag k 0x4F [], c)

/-- The sealed session's slot and its key. -/
def Chip.session (keys : Tbl Key) (c : Chip) : Option (Nat × Key) :=
  if c.sealActive then (Tbl.find keys (c.field 0xF05 0 3)).map fun k => (c.field 0xF05 0 3, k) else none

/-- The reply of a sealed command, around its inner reply. -/
def Chip.sealReply (keys : Tbl Key) (c : Chip) (ctr : Nat) (inner : List Byte) : List Byte × Chip := match c.session keys with
  | some (_, k) => ([b8 rOk] ++ le 4 ctr ++ inner ++ c.sealTag k 0x52 (le 4 ctr ++ inner), c.count 0xF19)
  | none => ([b8 rSealFail], c)

/-- A refusal under steps 3 and 4: at VAR_SEAL_FAIL_MAX in a row the session ends. -/
def Chip.sealRefuse (c : Chip) : List Byte × Chip :=
  let n := c.field 0xF05 4 4 + 1
  ([b8 rSealFail], if c.reg 0xF04 ≤ n then c.endSession else c.putField 0xF05 4 4 n)

/-- The inner command of a sealed command; no bytes where it waits. -/
def Chip.sealInner (c : Chip) (ctr inner : Nat) (payload : List Byte) (first second : NvmRead) : List Byte × Chip :=
  if inner = 0x0B ∧ payload.length = 1 then c.profileCmd (leAt payload 0 1) first second (some ctr)
  else if inner = 0x20 ∧ payload.length = 0 then (c.v1StatusCmd, c)
  else if inner = 0x21 ∧ payload.length = 5 then c.v1TuneCmd (leAt payload 0 4) (leAt payload 4 1) (some ctr)
  else if inner = 0x22 ∧ payload.length = 0 then (c.v1RdsCmd, c)
  else if inner = 0x23 ∧ payload.length = 0 then c.v1EventsCmd
  else ([b8 rBad], c)

/-- SEAL_CMD (R555): the checks in their order, the inner command, the tagged reply. -/
def Chip.sealCmdRun (keys : Tbl Key) (c : Chip) (ctr inner : Nat) (payload tag : List Byte) (first second : NvmRead) : List Byte × Chip :=
  if 241 < payload.length ∨ tag.length ≠ 8 then ([b8 rBad], c)
  else match c.session keys with
    | none => ([b8 rSealFail], c)
    | some (slot, k) =>
      if c.slotCtr slot = 0xFFFFFFFF then
        let told := Tbl.get false c.varn.told slot
        let d := { c with varn := { c.varn with told := Tbl.set false c.varn.told slot true } }
        ([b8 rExhausted], if told then c else d.raise 62 handleVar 4)
      else
        let c := c.count 0xF19
        if tag ≠ c.sealTag k 0x43 (le 4 ctr ++ [b8 inner, b8 payload.length] ++ payload) then ((c.raise 60 handleVar 4).count 0xF1A).sealRefuse
        else if ctr ≤ c.slotCtr slot then c.sealRefuse
        else
          let c := (c.setSlotCtr slot ctr).putField 0xF05 4 4 0
          let (body, c) := c.sealInner ctr inner payload first second
          if body.isEmpty then ([], c) else c.sealReply keys ctr body

/-- SEAL_CLOSE and SEAL_STATUS. -/
def Chip.sealCloseCmd (c : Chip) : List Byte × Chip := ([b8 rOk], c.endSession)
def Chip.sealStatusCmd (c : Chip) : List Byte :=
  let s := c.field 0xF05 0 3
  [b8 rOk, if c.sealActive then b8 s else 0xFF] ++ le 4 (c.reg 0xF06) ++ [b8 (c.field 0xF05 4 4)]

/-- The reply of a command that had waited, sealed where a sealed command carries it. -/
def Chip.answerLate (keys : Tbl Key) (c : Chip) (sealedBy : Option Nat) (body : List Byte) : Chip :=
  if body.isEmpty then c
  else match sealedBy with
    | none => c.setReply body
    | some ctr =>
      let (b, c) := c.sealReply keys ctr body
      c.setReply b

/-- A PROFILE command that waited is carried out once nothing is in its way (R477, R488). -/
def Chip.profileLate (keys : Tbl Key) (c : Chip) : Chip := match c.boot.wait with
  | none => c
  | some (p, a, b, s) =>
    let c := { c with boot := { c.boot with wait := none } }
    let (body, c) := c.profileCmd p a b s
    c.answerLate keys s body

/-- A V1_TUNE that waited for the end of the previous legacy job (R434). -/
def Chip.tuneLate (keys : Tbl Key) (c : Chip) : Chip := match c.bus.v1Wait with
  | none => c
  | some w =>
    if c.v1Held then c
    else
      let (body, c) := { c with bus := { c.bus with v1Wait := none } }.v1Start w.kHz w.band
      c.answerLate keys w.sealedBy body

/-- The generation of the lane that a waiting V1_TUNE names has stepped: the command is refused with GENERATION_VOID, and event 4 is raised, once for
the step (R34, R433). The reply completes at a boundary only after the step of that boundary has been looked at, so a step and a reply that fall together
leave the reply void (R36). -/
def Chip.tuneVoid (keys : Tbl Key) (c : Chip) : Chip := match c.bus.v1Wait with
  | none => c
  | some w =>
    let k := c.reg 0x509
    if c.reg (laneA k 6) = w.gen then c
    else ({ c with bus := { c.bus with v1Wait := none } }.raise 4 (c.handleLane k) (c.reg (laneA k 6))).answerLate keys w.sealedBy [b8 rVoid]

end Sys2Proof.Machine
end

