-- ==== Sys2Proof/Machine/Host.lean ====
section
/-! DEFINITION. Host commands: what each does, and when the receiver carries one out (R406 to R436). -/

namespace Sys2Proof.Machine

/-- A command's effect: its reply body (empty while it is still being carried out), the key slots and the chip after it. -/
abbrev HostFx := Tbl Key → Chip → List Byte × Tbl Key × Chip

/-- An effect that leaves the key slots alone. -/
def plain (f : Chip → List Byte × Chip) : HostFx := fun keys c => ((f c).1, keys, (f c).2)

/-- An effect that uses the key slots and leaves them alone. -/
def keyed (f : Tbl Key → Chip → List Byte × Chip) : HostFx := fun keys c => ((f keys c).1, keys, (f keys c).2)

/-- An effect that only answers. -/
def ask (f : Chip → List Byte) : HostFx := fun keys c => (f c, keys, c)

/-- A command that refuses itself (R409). -/
def bad : HostFx := fun keys c => ([b8 rBad], keys, c)

/-- One parameter write. -/
def one (a v : Nat) : HostFx := plain (writeOne a fun c => c.writeParam a v)

/-! The general commands (Table 14-4). -/

/-- PARAM_READ (R429): one snapshot of 1 to 63 parameters; a reserved offset refuses the whole command. -/
def Chip.paramReadCmd (c : Chip) (addrs : List Nat) : List Byte :=
  if addrs.isEmpty ∨ 63 < addrs.length ∨ addrs.any (fun a => (c.readParam a).isNone) then [b8 rBad]
  else b8 rOk :: addrs.flatMap fun a => le 4 ((c.readParam a).getD 0).toNat

/-- The entries of a PARAM_WRITE in order, `n` applied so far: the reply, and the chip after the last applied entry (R430). -/
def Chip.writeEntries (n : Nat) (c : Chip) : List PWrite → List Byte × Chip
  | [] => ([b8 rOk, b8 n] ++ le 2 0xFFFF, c)
  | e :: r => match c.writeParam e.addr e.value.toNat with
    | (0, d) => d.writeEntries (n + 1) r
    | (reason, d) => ([b8 reason, b8 n] ++ le 2 e.addr, d)

/-- PARAM_WRITE: 1 to 42 entries. -/
def Chip.paramWriteCmd (c : Chip) (l : List PWrite) : List Byte × Chip := if l.isEmpty ∨ 42 < l.length then ([b8 rBad], c) else c.writeEntries 0 l

/-- EVENT_READ (R569). -/
def Chip.eventReadCmd (c : Chip) : List Byte := b8 rOk :: [0x100, 0x101, 0x102, 0x103].flatMap fun a => le 4 (c.reg a)

/-- JOB_SUBMIT, JOB_WITHDRAW, JOB_STATUS (R328, R340, R352). -/
def Chip.jobSubmitCmd (c : Chip) (d : List Byte) : List Byte × Chip := if d.length ≠ 28 then ([b8 rBad], c) else c.submit d 0
def Chip.jobWithdrawCmd (c : Chip) (j : Nat) : List Byte × Chip := if (c.job? j).isNone then ([b8 rBad], c) else ([b8 rOk], c.withdraw j)
def Chip.jobStatusCmd (c : Chip) (j : Nat) : List Byte := b8 rOk :: c.jobStatus j

/-- PROFILE and V1_TUNE from the host itself: under a required seal they are refused (R556). -/
def Chip.profileHost (c : Chip) (p : Nat) (first second : NvmRead) : List Byte × Chip := if c.needsSeal then ([b8 rSealFail], c) else c.profileCmd p first second none
def Chip.tuneHost (c : Chip) (kHz band : Nat) : List Byte × Chip := if c.needsSeal then ([b8 rSealFail], c) else c.v1TuneCmd kHz band none

/-- VAR_KEY_LOAD and VAR_KEY_ERASE: the only commands that change the key slots (R540, R541). -/
def keyLoadCmd (blob : List Byte) : HostFx := fun keys c =>
  let (reason, keys, c) := c.loadKey keys blob
  ([b8 reason], keys, c)
def keyEraseCmd (slots : Nat) : HostFx := fun keys c =>
  let (keys, c) := c.eraseKeys keys (slots % 256)
  ([b8 rOk], keys, c)

/-- The length of a command by its code, as Table 14-4, Table 17-10 and Table 19-3 list it: least, most and step; `none` for an unlisted code. -/
def codeLengths (code : Nat) : Option (Nat × Nat × Nat) :=
  if code = 0x01 then some (2, 2, 1) else if code = 0x02 then some (2, 126, 2) else if code = 0x03 then some (6, 252, 6)
  else if code = 0x04 then some (6, 6, 1) else if code = 0x05 then some (9, 253, 4) else if code = 0x06 then some (0, 0, 1)
  else if code = 0x07 then some (8, 8, 1) else if code = 0x08 then some (28, 28, 1) else if code = 0x09 then some (2, 2, 1)
  else if code = 0x0A then some (2, 2, 1) else if code = 0x0B then some (1, 1, 1) else if code = 0x20 then some (0, 0, 1)
  else if code = 0x21 then some (5, 5, 1) else if code = 0x22 then some (0, 0, 1) else if code = 0x23 then some (0, 0, 1)
  else if code = 0x30 then some (1, 1, 1) else if code = 0x31 then some (10, 255, 1) else if code = 0x32 then some (2, 2, 1)
  else if code = 0x33 then some (1, 1, 1) else if code = 0x60 then some (40, 56, 16) else if code = 0x61 then some (1, 1, 1)
  else if code = 0x62 then some (3, 3, 1) else if code = 0x63 then some (2, 255, 1) else if code = 0x64 then some (2, 18, 1)
  else if code = 0x65 then some (2, 2, 1) else if code = 0x66 then some (49, 57, 8) else if code = 0x67 then some (6, 6, 1)
  else if code = 0x68 then some (2, 2, 1) else if code = 0x70 then some (9, 9, 1) else if code = 0x71 then some (14, 255, 1)
  else if code = 0x72 then some (0, 0, 1) else if code = 0x73 then some (0, 0, 1) else none

/-- A command's code is unlisted, or its length is none that its row gives (R409). The row of unlisted codes holds in any version, so a native command of a wrong
length gets BAD_PARAMETER while version 1 is in force, where R7 would have NOT_NEGOTIATED (DESIGN CHOICE, log entry 62: R7 and R409 give no order). -/
def unlisted (code len : Nat) : Bool := match codeLengths code with
  | none => true
  | some (lo, hi, step) => decide (len < lo) || decide (hi < len) || (len - lo) % step != 0 || (code == 0x64 && decide (2 < len) && decide (len < 6))

/-- What each host command does, with the protocol versions that permit it (Table 14-4). Every parameter write of the table's rows is a PARAM_WRITE
of one entry; `none` for a row that is no host command, or whose operands name no object. -/
def hostFx : Instr → Option (List Nat × HostFx)
  | .hello lo hi => some (anyVersion, plain fun c => c.doHello lo hi)
  | .paramRead l => some (native, ask fun c => c.paramReadCmd l)
  | .paramWrite l => some (native, plain fun c => c.paramWriteCmd l)
  | .tableRead t a n => some (native, ask fun c => c.tableRead t a n)
  | .tableWrite t a ws => some (native, plain fun c => c.tableWrite t a ws)
  | .eventRead => some (native, ask Chip.eventReadCmd)
  | .eventClear b => some (native, plain fun c => ([b8 rOk], c.clearEvents (b.toNat % 2 ^ 32) (b.toNat / 2 ^ 32)))
  | .jobSubmit d => some (native, plain fun c => c.jobSubmitCmd d)
  | .jobWithdraw j => some (native, plain fun c => c.jobWithdrawCmd j)
  | .jobStatus j => some (native, ask fun c => c.jobStatusCmd j)
  | .profile p a b => some (anyVersion, plain fun c => c.profileHost p a b)
  | .v1Status => some (legacy, ask Chip.v1StatusCmd)
  | .v1Tune f b => some (legacy, plain fun c => c.tuneHost f b)
  | .v1Rds => some (legacy, ask Chip.v1RdsCmd)
  | .v1Events => some (legacy, plain Chip.v1EventsCmd)
  | .lnkSetState st ok w => some (native, plain fun c => c.setLinkState st ok w.toNat)
  | .lnkSend p => some (native, keyed fun keys c => c.lnkSend keys p)
  | .lnkCancel id => some (native, plain fun c => c.lnkCancel id)
  | .lnkPeer a => some (native, ask fun c => c.lnkPeer a)
  | .varKeyLoad b => some (native, keyLoadCmd b)
  | .varKeyErase m => some (native, keyEraseCmd m)
  | .varStart x s k => some (native, keyed fun keys c => c.varStart keys x s k)
  | .varUpdate x m => some (native, keyed fun keys c => c.varUpdate keys x m)
  | .varFinish x t g => some (native, keyed fun keys c => c.varFinish keys x t g)
  | .varCtxSave x w => some (native, keyed fun keys c => c.ctxSave keys x w)
  | .varCtxLoad x m => some (native, keyed fun keys c => c.ctxLoad keys x m)
  | .varAttach j s m t d => some (native, keyed fun keys c => c.attach keys j s m t d)
  | .varDetach j => some (native, plain fun c => c.varDetach j)
  | .sealOpen s n => some (legacy, keyed fun keys c => c.sealOpenCmd keys s n)
  | .sealCmd ctr i p t a b => some (legacy, keyed fun keys c => c.sealCmdRun keys ctr.toNat i p t a b)
  | .sealClose => some (legacy, plain Chip.sealCloseCmd)
  | .sealStatus => some (legacy, ask Chip.sealStatusCmd)
  | .commandUnlistedCode code len => if unlisted code len then some (anyVersion, bad) else none
  | .registerWrite a v => some (native, one a v.toNat)
  | .pwrModeRun => some (native, one 0x300 0)
  | .pwrModeSketch => some (native, one 0x300 1)
  | .pwrModeDeepSleep => some (native, one 0x300 2)
  | .fePathEnWrite fe v => if fe < 2 then some (native, one (feA fe 0) v.toNat) else none
  | .feAgcModeWrite fe v => if fe < 2 then some (native, one (feA fe 2) v.toNat) else none
  | .feAttnManWrite fe v => if fe < 2 then some (native, one (feA fe 4) v.toNat) else none
  | .feInjStart fe => if fe < 2 then some (native, one (feA fe 0x20) 1) else none
  | .feInjStop fe l => if fe < 2 then some (native, plain (writeOne (feA fe 0x20) fun c => c.injStopWrite fe l)) else none
  | .winCentreWrite w v => if w < 12 then some (native, one (winA w 0) v.toNat) else none
  | .winSrcWrite w v => if w < 12 then some (native, one (winA w 1) v.toNat) else none
  | .winExportWrite w v => if w < 12 then some (native, one (winA w 8) v.toNat) else none
  | .cnvCommit => some (native, one 0x7B0 1)
  | .winCapArm w => if w < 12 then some (native, one (winA w 0x10) 1) else none
  | .winCapTriggerNow w => if w < 12 then some (native, one (winA w 0x10) 2) else none
  | .winCapStartExport w => if w < 12 then some (native, one (winA w 0x10) 4) else none
  | .winCapRelease w => if w < 12 then some (native, one (winA w 0x10) 8) else none
  | .laneNcoWrite k v => if k < 160 then some (native, one (laneA k 1) v.toNat) else none
  | .laneBankNextWrite k v => if k < 160 then some (native, one (laneA k 4) v.toNat) else none
  | .fmsLaneWrite s v => if s < 16 then some (native, one (fmsA s 0) v.toNat) else none
  | .fmsDestWrite s v => if s < 16 then some (native, one (fmsA s 1) v.toNat) else none
  | .amsLaneWrite s v => if s < 8 then some (native, one (amsA s 0) v.toNat) else none
  | .amsDestWrite s v => if s < 8 then some (native, one (amsA s 1) v.toNat) else none
  | .galCtrlPin e => if e < 16384 then some (native, one 0xC05 (e + 65536)) else none
  | .galCtrlUnpin e => if e < 16384 then some (native, one 0xC05 (e + 131072)) else none
  | .galCtrlDelete e => if e < 16384 then some (native, one 0xC05 (e + 196608)) else none
  | .lnkForceWrite i v => if i < 8 then some (native, one (lnkA i 15) v.toNat) else none
  | .linkRefCommit i => if i < 8 then some (native, plain fun c => c.tableWrite 6 (refWord i 3) [1]) else none
  | .swtLogRdWrite v => some (native, one 0xB09 v.toNat)
  | .strEnWrite v => some (native, one 0x600 v.toNat)
  | .audCfgWrite v => some (native, one 0x640 v.toNat)
  | .bootJrnlCtrlWrite v => some (native, one 0x40B v.toNat)
  | .calCtrlLadderRun fe => if fe < 2 then some (native, one 0xA00 (2 ^ fe)) else none
  | .calCtrlDacRestart => some (native, one 0xA00 4)
  | .lnkFreqWrite v => some (native, one 0xD02 v.toNat)
  | .lnkCfgWrite v => some (native, one 0xD01 v.toNat)
  | .dacCodeWrite ch v => if ch < 4 then some (native, one (dacA ch 0) v.toNat) else none
  | .dacRangeWrite ch v => if ch < 4 then some (native, one (dacA ch 1) v.toNat) else none
  | .dacSineStart ch => if ch < 4 then some (native, one (dacA ch 5) 1) else none
  | .dacSineStop ch => if ch < 4 then some (native, one (dacA ch 5) 2) else none
  | .evtPendWrite high v => some (native, one (if high then 0x101 else 0x100) v.toNat)
  | .evtMaskWrite n v => if n < 3 then some (native, one (if n < 2 then 0x102 + n else 0x105) v.toNat) else none
  | .satBitClear a b => if (rowAt a).map (·.acc) = some .w1c then some (native, one a b.toNat) else none
  | _ => none

/-! Carrying a command out. -/

/-- A command is carried out (R409, R411): CTL stays awake for the host (R376); a version that does not permit it refuses it with NOT_NEGOTIATED. -/
def runHost (fx : List Nat × HostFx) (keys : Tbl Key) (c : Chip) : Tbl Key × Chip :=
  let c := c.holdHost.count 0x510
  if fx.1.contains (c.reg 0x501) then
    let (body, keys, c) := fx.2 keys c
    (keys, c.answer body)
  else (keys, c.setReply [b8 rNotNegotiated])

/-- A command is written (R408, R412, R419 to R421): one at a time; before boot done the first is held; without CTL, or with the bus ignored, it is lost. -/
def takeHost (i : Instr) (fx : List Nat × HostFx) (keys : Tbl Key) (c : Chip) : Tbl Key × Chip :=
  if !c.ctlOn || c.bus.stuck then (keys, c)
  else
    let c := c.wakeCtl.busStop
    if !c.ctlOn then (keys, c)
    else if c.replyPending then (keys, c.count 0x512)
    else if !c.boot.done then (keys, { c with bus := { c.bus with held := some i } })
    else runHost fx keys c

/-- The key slots lose their contents with their supply: at a reset, in deep sleep, and with the core or AO rail (R377, R459, R542, R580). -/
def keysLeft (keys : Tbl Key) (c : Chip) : Tbl Key := if c.ctlOn then keys else []

/-- Act on the key slots and the chip together; a step that ends without power for the key slots leaves no key. -/
def State.both (s : State) (f : Tbl Key → Chip → Tbl Key × Chip) : State :=
  let (keys, c) := f s.keys s.chip
  { s with keys := keysLeft keys c, chip := c }

/-- Act on the chip, where tick boundaries may pass. -/
def State.onTime (s : State) (f : Chip → Chip) : State := s.both fun keys c => (keys, f c)

/-- A host command is written. -/
def State.command (s : State) (i : Instr) : State := match hostFx i with
  | none => s
  | some fx => s.both (takeHost i fx)

/-- BOOT_DONE, and with it the command held since RESET_N (R421). -/
def bootDoneFx (keys : Tbl Key) (c : Chip) : Tbl Key × Chip :=
  if !c.ctlOn || c.boot.phase != 6 then (keys, c)
  else
    let c := c.bootFinish
    match c.bus.held with
    | none => (keys, c)
    | some i =>
      let c : Chip := { c with bus := { c.bus with held := none } }
      match hostFx i with
      | some fx => runHost fx keys c
      | none => (keys, c)

/-! Other traffic on the bus. -/

/-- The receiver is addressed on its bus: CTL wakes; nothing happens without CTL or while the bus is ignored (R417, R419, R420). -/
def Chip.onBus (c : Chip) (f : Chip → Chip) : Chip :=
  if !c.ctlOn || c.bus.stuck then c
  else
    let c := c.wakeCtl
    if c.ctlOn then f c else c

/-- COMMAND_WRITE_BUSY (R412). -/
def Chip.writeBusy (c : Chip) : Chip := (if c.replyPending then c.count 0x512 else c).busStop

/-- SDA_STUCK_END (R417). -/
def Chip.sdaFree (c : Chip) : Chip := { c with bus := { c.bus with stuck := false } }

/-- ATTENTION_ARBITRATION_LOST (R427): the request is withdrawn, not counted as ignored, and made again under R424. -/
def Chip.atnLost (c : Chip) : Chip := if c.bus.atnActive then { c with bus := { c.bus with atnActive := false } }.put 0x508 0 else c

/-- HOST_ADDRESS_MATCH_SLEEP (R376, R419). -/
def Chip.addressSleep (c : Chip) : Chip := if c.ctlOn && !c.bus.stuck then c.wakeCtl else c

end Sys2Proof.Machine
end

