-- ==== Sys2Proof/Machine/Power.lean ====
section
/-! DEFINITION. Resets, rails and pins (R28, R459 to R461, R528, R575 to R581), wakes (R376, R377), clock rows, the ports' own events (R441, R454, R570), and the first outputs of lanes, windows and slots. -/

namespace Sys2Proof.Machine

/-- Act where CTL is powered and out of reset. -/
def Chip.live (c : Chip) (f : Chip → Chip) : Chip := if c.ctlOn then f c else c

/-- Act where CTL is awake as well. -/
def Chip.awake (c : Chip) (f : Chip → Chip) : Chip := if c.ctlOn && !c.asleep then f c else c

/-! Power-up and reset. -/

/-- The levels outside the receiver, which no reset changes: pins, and rails below their thresholds. -/
def Chip.outside (c : Chip) : PowerSt :=
  { Chip.reset.power with invalid := c.power.invalid, resetN := c.power.resetN, wake := c.power.wake, addrPins := c.power.addrPins, profPins := c.power.profPins,
                          ioClass := c.power.ioClass }

/-- Everything is lost with VDD_AO, and starts again when it becomes valid (R28, R580). -/
def Chip.lostAll (c : Chip) (invalid : Nat) : Chip :=
  let w := c.outside
  { Chip.reset with power := { w with invalid := invalid }, free := c.free }

/-- VDD_AO_VALID. -/
def Chip.aoValid (c : Chip) : Chip := c.lostAll (setBits c.power.invalid 3 1 0)

/-- POWER_UP_BOOT_START: the 1,024 edges of XO32K have passed (R581). -/
def Chip.edgesPassed (c : Chip) : Chip :=
  if c.power.invalid.testBit 3 || c.power.aoReady then c else { c with power := { c.power with aoReady := true } }.tryBoot

/-- AO_STARTUP_TIMEOUT (R581). -/
def Chip.edgesMissing (c : Chip) : Chip :=
  if c.power.invalid.testBit 3 || c.power.aoReady then c
  else { c with power := { c.power with aoReady := true } }.xo32kFail.tryBoot

/-- The cause of the boot that follows a reset: a power-on that has not booted yet stays one (R461). -/
def Chip.withCause (c : Chip) (old : Option Nat) (n : Nat) : Chip := { c with power := { c.power with cause := some (if old = some 0 then 0 else n) } }

/-- RESET_N_ASSERT: a low pulse of 1 µs or longer resets, one of 200 ns or shorter is ignored (R581); what one between does is a free value. -/
def Chip.resetAssert (c : Chip) (lowNs : Nat) : Chip :=
  let (w, c) := if 200 < lowNs ∧ lowNs < 1000 then c.freeWord else (0, c)
  if c.power.invalid.testBit 3 || decide (lowNs ≤ 200) || (decide (lowNs < 1000) && !w.getLsbD 0) then c
  else
    let old := c.power.cause
    let c := c.resetAll.withCause old 1
    { c with power := { c.power with resetN := false } }

/-- RESET_N_RELEASE (R460). -/
def Chip.resetRelease (c : Chip) (addr prof : Nat) : Chip :=
  if c.power.resetN then c
  else
    let c := { c with power := { c.power with resetN := true, addrPins := addr % 4, profPins := prof % 4 } }
    c.samplePins.tryBoot

/-- DIRECTOR_WATCHDOG_RESET (R575, R461). -/
def Chip.watchdog (c : Chip) (_tick : Nat) : Chip :=
  if !c.ctlOn then c
  else
    let old := c.power.cause
    (c.resetAll.withCause old 4).samplePins.tryBoot

/-! Rails. -/

def railNum : Rail → Nat
  | .core => 0
  | .adc => 1
  | .an => 2
  | .ao => 3
  | .io => 4
  | .pa => 5
  | .dac => 6

def Chip.setInvalid (c : Chip) (r : Nat) (b : Bool) : Chip := { c with power := { c.power with invalid := setBits c.power.invalid r 1 (if b then 1 else 0) } }

/-- RAIL_BELOW_WARNING: event 6 at each change of a SYS_SUPPLY bit from 0 to 1 (R575, R580). -/
def Chip.railWarning (c : Chip) (r : Nat) : Chip :=
  if c.power.invalid.testBit 3 || c.bit 0x001 r then c
  else
    let c := c.putBit 0x001 r true
    (c.raise 6 (handleBlock 0x08) (c.reg 0x001)).count 0x002

/-- The converters have the rails they need. -/
def Chip.convRails (c : Chip) : Bool := !c.power.invalid.testBit 1 && !c.power.invalid.testBit 2

/-- RAIL_BELOW_VALID (Table 21-4). -/
def Chip.railInvalid (c : Chip) (r : Nat) : Chip :=
  if c.power.invalid.testBit r || (r != 3 && c.power.invalid.testBit 3) then c
  else if r = 0 then
    let old := c.power.cause
    (c.resetAll.withCause old 3).setInvalid 0 true
  else if r = 3 then c.lostAll (setBits c.power.invalid 3 1 1)
  else if r = 1 ∨ r = 2 then
    let ran := c.convRails
    let c := c.setInvalid r true
    if ran && c.ctlOn then { c.stopConverters with power := { c.power with convAt := some c.time.now } } else c
  else if r = 5 then (c.setInvalid 5 true).live Chip.linkLoops
  else if r = 6 then c.dacRailLost
  else c.setInvalid r true

/-- The converters run again: a discontinuity record with cause 2, and every first record carries GENV and DISC (R363). -/
def Chip.convRestart (c : Chip) : Chip :=
  let since := c.power.convAt.getD c.time.now
  let c : Chip := { c with power := { c.power with convAt := none } }
  let c := (c.discRecord 2 0 0 0 (usBetween since c.time.now)).markStreams (feeds 0) true true
  (c.refreshWins 2 true true true).resumeAll

/-- RAIL_RECOVERED: above the warning threshold for 1 ms. VDD_AO, VDD_IO and VDD_DAC become valid by rows of their own. -/
def Chip.railBack (c : Chip) (r : Nat) : Chip :=
  if c.power.invalid.testBit 3 then c
  else
    let was := c.power.invalid.testBit r
    let c := c.putBit 0x001 r false
    if !was then c
    else if r = 0 then (c.setInvalid 0 false).samplePins.tryBoot
    else if r = 1 ∨ r = 2 then
      let c := c.setInvalid r false
      if c.convRails && c.ctlOn then c.convRestart else c
    else if r = 5 then (c.setInvalid 5 false).live Chip.linkLoops
    else c

/-- VDD_IO_VALID: the class is sensed once (R579). -/
def Chip.ioValid (c : Chip) (mv : Nat) : Chip :=
  let c := c.setInvalid 4 false
  { c with power := { c.power with ioClass := if 2500 ≤ mv then 2 else 1 } }

/-- INJECTION_END: FE_INJ_TICKS have passed (R68). -/
def Chip.injDone (c : Chip) (fe : Nat) (level : Int) : Chip := match (c.fe fe).injEnd with
  | some t => if c.injecting fe && decide (t ≤ c.tick) then c.injStop fe 2 (some level) else c
  | none => c

/-! Wakes. -/

/-- DEEP_WAKE_TIMER: studio time reaches the end of PWR_DEEP_WAKE. -/
def Chip.deepTimer (c : Chip) : Chip := match c.power.deepWakeAt with
  | none => c
  | some t =>
    if !c.power.deep then c
    else
      let now := max c.time.now t
      { c with time := { c.time with now := now, tick := now / 32000 + 1 } }.deepWake

/-- WAKE_PIN_RISE: a wake from deep sleep; in Sketch mode the glimpsed lanes run continuously (R376, R377). -/
def Chip.wakeRise (c : Chip) : Chip :=
  if c.power.wake then c
  else
    let c := { c with power := { c.power with wake := true, wakeUntil := none } }
    if c.power.deep then c.deepWake
    else if c.ctlOn && c.blocksAsleep then
      let c := c.wakeCtl
      if c.ctlOn && c.blocksAsleep then c.wakeAll else c
    else c

/-- WAKE_PIN_FALL: its effect ends one tick later (R376). -/
def Chip.wakeFall (c : Chip) : Chip :=
  if !c.power.wake then c else { c with power := { c.power with wake := false, wakeUntil := some (c.tick + 1) } }

/-! Clocks. -/

/-- TCXO_SETTLED: the TCXO is counted valid, and the CPLL acquires (R354). -/
def Chip.tcxoSettled (c : Chip) : Chip :=
  if c.clk.tcxoEn && c.reg 0x231 == 1 then
    let c := c.put 0x231 2
    if c.ctlOn && c.reg 0x210 == 0 then c.put 0x210 1 else c
  else c

/-- TCXO_RECOVERED: 16 good checks in a row (R355). -/
def Chip.tcxoGood (c : Chip) : Chip := if c.reg 0x231 = 3 then c.put 0x231 2 else c

/-- COAST_TIMEOUT (R359). -/
def Chip.coastTimeout (c : Chip) (l : Nat) : Chip := if c.reg (loopA l 0) = 3 then c.stopLoop l else c

/-- LOOP_SLEW_END (R362) and STEP_ALIGNMENT_END (R361): COAST stops being set. -/
def Chip.slewLocked (c : Chip) (l : Nat) : Chip :=
  if c.reg (loopA l 0) = 5 then (c.syncTime.rebase.put (loopA l 0) 2).modLoop l fun x => { x with coastedAt := some c.time.now } else c

def Chip.aligned (c : Chip) (l : Nat) : Chip := c.modLoop l fun x => if x.aligning then { x with aligning := false, coastedAt := some c.time.now } else x

/-- TICK_PULSE_END (R370). -/
def Chip.tickFall (c : Chip) : Chip := { c with time := { c.time with tickHigh := none } }

/-- SECOND_BOUNDARY: the full-time record and TICK, the aligned measurement intervals, and the time frame of the link (R31, R302, R370, R512). -/
def Chip.second (keys : Tbl Key) (c : Chip) : Chip :=
  let counts := !c.power.deep && c.power.resetN && c.secondCounts
  let c := c.secondBoundary
  if counts && c.tickPulses && c.ctlOn then (c.swtSecond c.utcSeconds).timeFrame keys else c

/-! The ports. -/

/-- STR_CLK runs; the port wakes at every CTL-only wake (R375). -/
def Chip.strClk (c : Chip) : Bool :=
  let st := c.reg 0x210
  c.ctlOn && !c.asleep && c.reg 0x600 == 1 && (st == 2 || st == 3 || st == 5)

/-- STR_CRD_EDGE (R441). -/
def Chip.creditEdge (c : Chip) : Chip :=
  if !c.strClk then c
  else if c.reg 0x602 + 512 ≤ 32768 then c.put 0x602 (c.reg 0x602 + 512)
  else c.count 0x609

/-- The audio port is enabled as a target. -/
def Chip.audTarget (c : Chip) : Bool := c.ctlOn && c.bit 0x640 0 && !c.bit 0x640 1

/-- Frame clock events in target mode (R454); the rate error is in 0.01 ppm. -/
def Chip.audAccept (c : Chip) (e : Int) : Chip := if c.audTarget && decide (e.natAbs ≤ 50000) then (c.put 0x641 2).putInt 0x642 16 e else c
def Chip.audRange (c : Chip) (e : Int) : Chip := if c.audTarget && decide (50000 < e.natAbs) then (c.put 0x641 3).putInt 0x642 16 e else c
def Chip.audLoss (c : Chip) : Chip := if c.audTarget && c.reg 0x641 != 4 then (c.put 0x641 4).count 0x646 else c

/-- RECORD_SEND: STR_CLK carries the next record (R342, R441). -/
def Chip.sendNext (c : Chip) : Chip := if c.strClk then c.sendHead else c

/-! Event records (R570, R571). -/

/-- Records of an event are enabled. -/
def Chip.recEnabled (c : Chip) (n : Nat) : Bool := if n < 64 then c.bit (0x106 + n / 32) (n % 32) else c.bit 0x108 (n - 64)

/-- A record of the event is due: it has raises, and its gap has passed. -/
def Chip.recDue (c : Chip) (n : Nat) : Bool :=
  (Tbl.find c.ev.recs n).isSome && match Tbl.find c.ev.last n with | some t => decide (t + c.reg 0x109 ≤ c.tick) | none => true

/-- Records emitted at this boundary. -/
def Chip.recsNow (c : Chip) : Nat := (c.ev.last.filter fun e => e.2 == c.tick).length

/-- The record's body (Table 20-4). -/
def eventBody (n : Nat) (r : EvRec) : List Byte :=
  [b8 n, if r.masked then 1 else 0] ++ le 2 r.raises ++ le 4 (if n < 64 then r.handle else 0xA0000000) ++ le 4 r.detail ++ le 6 r.first ++ [0, 0]

/-- EVENT_RECORD_EMIT: events in order of number, at most 48 at a boundary; with the enable bit clear the raises are dropped. -/
def Chip.emitEvent (c : Chip) (n : Nat) : Chip := match Tbl.find c.ev.recs n with
  | none => c
  | some r =>
    if c.reg 0x600 ≠ 1 ∨ !c.recDue n then c
    else
      let drop : Chip := { c with ev := { c.ev with recs := Tbl.del c.ev.recs n } }
      if !c.recEnabled n then drop
      else if 48 ≤ c.recsNow || (List.range n).any (fun m => c.recDue m && c.recEnabled m) then c
      else
        let c : Chip := { drop with ev := { drop.ev with last := Tbl.put drop.ev.last n c.tick } }
        c.system 0x09 0xA0000000 (32000 * c.tick) (eventBody n r)

/-! Carriers and first outputs. -/

/-- CARRIER_FOUND: event 32; an AM carrier is a Gallery entry (R142, R242). -/
def Chip.carrierFound (c : Chip) (k : Nat) : Chip :=
  if !c.foundNow k then c
  else
    let c := (c.modLane k fun l => { l with found := true }).raise 32 (c.handleLane k) 0
    if c.laneIsAm k then match c.galInsert 5 (c.laneKHz k) with
      | (some e, c) => c.galHold k e
      | (none, c) => c
    else c

/-- CARRIER_LOST: event 33; its alarm sources are lost, followers react, and a capture trigger becomes true (R96, R142, R258). -/
def Chip.carrierLost (c : Chip) (k : Nat) : Chip :=
  if !c.lostNow k then c
  else
    let c := (c.modLane k fun l => { l with found := false }).raise 33 (c.handleLane k) 0
    let c := (c.alarmSourceLost k).followCarrierLost k
    c.each ((List.range 12).filter fun w => c.laneWin k == w || (c.laneCombines k && c.laneWin2 k == w)) fun c w => c.capTrigger w (c.capCauses w 16 c.time.now) false

/-- BANK_FADE_END (R125, R127), 2^f output samples after the fade began: a linking cross-fade accepted first goes before a pending bank. -/
def Chip.bankFadeEnd (c : Chip) (k : Nat) : Chip :=
  if !(c.lane k).fading || decide (c.time.now < (c.lane k).fadeAt + 2 ^ c.laneFade k * c.lanePeriod k) then c
  else
    let c := c.completeFade k
    if (c.lane k).pendLink.isSome && (c.lane k).linkFirst then c else c.startPendingBank k

/-- LANE_FIRST_OUTPUT_SAMPLE (R111, Table 04-3): once the whole filter span lies after the restart. -/
def Chip.laneFirst (c : Chip) (k : Nat) : Chip :=
  if (c.lane k).started && !(c.lane k).suspended && !(c.lane k).filled && decide ((c.lane k).dsp.since + c.laneFill k ≤ c.time.now) then (c.modLane k fun l => { l with filled := true }).followFirstOutput k else c

/-- WINDOW_FIRST_OUTPUT_SAMPLE (R80, R78): 48 counts after the restart. -/
def Chip.winFirst (c : Chip) (w : Nat) : Chip :=
  if w < 12 && c.reg (winA w 2) == 1 && decide ((c.win w).dsp.since + 48 ≤ c.time.now) then (c.put (winA w 2) 2).modWin w fun x => { x with settled := true } else c

/-- CAPTURE_RING_FULL (R96): as many samples as the ring holds have been written. -/
def Chip.ringFull (c : Chip) (w : Nat) : Chip := if w < 12 && c.reg (winA w 0x13) == 1 && decide (c.capSamples w ≤ c.capWritten w c.time.now) then c.put (winA w 0x13) 2 else c

/-- RDS_BLOCK_RECEIVED, in glimpses too (R230, R380). -/
def Chip.rdsReceived (c : Chip) (k : Nat) : Chip :=
  let l := if c.rdsRuns k then (c.rdsNext k).2.2 else []
  (c.rdsBlock k).each l fun c b => c.glimpseBlock k b.2.ok

/-- RDS_GROUP: a group that is passed on is interpreted, and is evidence of identity for followers (R231, R276). -/
def Chip.groupReceived (c : Chip) (k : Nat) : Chip := match (c.rds k).ready with
  | [] => c
  | (_, g) :: _ =>
    let passed := c.rdsRuns k && g.b.state != 2
    let c := c.rdsGroup k
    if passed && (c.groupPi g).isSome && c.groupPi g == (c.rds k).pi then c.piEvidence k else c

/-! Between commands. -/

/-- No command waits: studio time passes, one cycle of the CPLL or one always-on edge at a time (R29). The step that reaches a tick boundary is that
boundary's own row. -/
def Chip.idle (c : Chip) : Chip :=
  if c.time.now + c.idleCounts < (c.time.now / 32000 + 1) * 32000 then { c with time := { c.time with now := c.time.now + c.idleCounts } } else c

/-! The forms of a meaning. -/

/-- The outcome of a command. -/
abbrev Res := Host.Outcome State Fault Refusal

/-- What the powered control domain does. -/
def State.onCtl (s : State) (f : Chip → Chip) : State := s.onChip fun c => c.live f

/-- The same, where generations may step that a waiting host command is tagged with (R33, R34). -/
def State.onGen (s : State) (f : Chip → Chip) : State := s.withKeys fun keys c => c.live fun c => (f c).tuneVoid keys

/-- What a block of the signal path does while it is awake, for operands that name an object. -/
def State.onDsp (s : State) (ok : Bool) (f : Chip → Chip) : State := s.onChip fun c => if ok && c.ctlOn && !c.blocksAsleep then f c else c

/-- PROFILE_SWITCH, and the commands that waited for it (R434, R477). -/
def switchFx (keys : Tbl Key) (c : Chip) : Tbl Key × Chip :=
  let (keys, c) := c.profileSwitch keys
  (keys, ((c.tuneVoid keys).tuneLate keys).profileLate keys)

end Sys2Proof.Machine
end

