-- ==== Sys2Proof/WellFormed.lean ====
section
/-! DEFINITION. Which operands name an object that the receiver has: a command or event whose operands name none changes nothing. -/

namespace Sys2Proof

/-- Front ends and converters 0 and 1. -/
def okFe (fe : Nat) : Bool := decide (fe < 2)
/-- Windows 0 to 11. -/
def okWin (w : Nat) : Bool := decide (w < 12)
/-- Lanes 0 to 159. -/
def okLane (k : Nat) : Bool := decide (k < 160)
/-- FM slots 0 to 15 and AM slots 0 to 7. -/
def okSlot (fm : Bool) (s : Nat) : Bool := decide (s < if fm then 16 else 8)
/-- Ensembles 0 to 7. -/
def okEns (e : Nat) : Bool := decide (e < 8)
/-- DRM channels 0 to 15. -/
def okChan (n : Nat) : Bool := decide (n < 16)
/-- Follow instances 0 to 7. -/
def okInst (i : Nat) : Bool := decide (i < 8)
/-- Control outputs 0 to 3. -/
def okDac (ch : Nat) : Bool := decide (ch < 4)
/-- Levels of a pair of strap pins. -/
def okPin (p : Nat) : Bool := decide (p < 4)
/-- Gallery entries. -/
def okEntry (e : Nat) : Bool := decide (e < 16384)

/-- The operands of a command name an object. Commands whose operands are bytes of a frame are well-formed whatever they hold: the
receiver refuses what its rules refuse. -/
def Instr.wf : Instr → Bool
  | .fePathEnWrite fe _ | .feAgcModeWrite fe _ | .feAttnManWrite fe _ | .agcReleaseStep fe | .overloadDeclared fe _ | .ovlReturnStep fe
  | .feInjStart fe | .feInjStop fe _ | .injectionEnd fe _ | .divOvlReturn fe | .sparePassDone fe _ _ _ | .handoverDue fe | .handoverCompareDone fe _
  | .ladderRunStart fe | .calCtrlLadderRun fe | .ladderComparisonStart fe _ | .ladderComparisonDone fe _ => okFe fe
  | .winCentreWrite w _ | .winSrcWrite w _ | .winExportWrite w _ | .winCapArm w | .winCapTriggerNow w | .winCapStartExport w | .winCapRelease w
  | .captureTrigger w _ | .captureRingFull w | .capturePostComplete w | .captureExportDone w | .windowFirstOutputSample w => okWin w
  | .divEstimateBlock k _ _ _ _ _ | .laneStart k | .laneNcoWrite k _ | .laneBankNextWrite k _ | .bankFadeEnd k | .pilotLock k | .pilotUnlock k
  | .carrierFound k | .carrierLost k | .amLoopLock k | .amLoopUnlock k | .rdsBlockReceived k _ | .rdsGroup k _ _ _ _ _ | .laneFirstOutputSample k
  | .scanVisitEnd k => okLane k
  | .fmsLaneWrite s _ | .fmsDestWrite s _ => okSlot true s
  | .amsLaneWrite s _ | .amsDestWrite s _ => okSlot false s
  | .slotAttach fm s | .slotRampInComplete fm s => okSlot fm s
  | .dabNullDetected e _ | .dabPhaseReference e _ _ _ _ _ | .dabFicDecoded e _ _ _ _ | .dabFrameJudged e _ | .dabCifDecoded e _ _ | .dabReconfiguration e
  | .dabTiiMeasurementEnd e _ => okEns e
  | .drmModeIdentified n _ | .drmTimeReference n _ | .drmFrameSearchTimeout n | .drmFacBlock n _ _ _ | .drmSdcBlock n _ _ _ _ | .drmFrameJudged n _
  | .drmMscFrame n _ _ _ | .drmReconfiguration n => okChan n
  | .galCtrlPin e | .galCtrlUnpin e | .galCtrlDelete e => okEntry e
  | .memberVisitEnd i _ _ | .memberParkEnd i _ | .verificationExpire i _ | .estimateComplete i _ _ _ _ _ _ | .reestimateDue i _ | .linkRefCommit i
  | .linkSlewEnd i | .lnkForceWrite i _ | .linkFadeStart i | .linkFadeEnd i | .hardSwitchRampIn i => okInst i
  | .dacSenseMeasure ch _ _ | .dacCodeWrite ch _ | .dacRangeWrite ch _ | .dacSineStart ch | .dacSineStop ch => okDac ch
  | .evtMaskWrite n _ => decide (n < 3)
  | .eventRecordEmit n => decide (n < 72)
  | .vddDacValid _ cs | .dacClrNFall cs => okPin cs
  | .resetNRelease a p => okPin a && okPin p
  | .tickBoundary _ | .registerWrite _ _ | .vddAoValid | .powerUpBootStart | .aoStartupTimeout | .resetNAssert _ | .railBelowWarning _ | .railBelowValid _
  | .railRecovered _ | .vddIoValid _ | .vddDacLoss | .directorWatchdogReset _ | .secondBoundary | .tickPulseEnd | .leapSecondInsert | .tcxoSettled
  | .tcxoFail | .tcxoRecovered | .xo32kFail | .loopLock _ | .loopLockLost _ | .coastDriftCheck _ _ | .coastTimeout _ | .loopRelock _ _ | .loopSlewEnd _
  | .pwrModeRun | .pwrModeSketch | .pwrModeDeepSleep | .sketchWake _ _ | .glimpseEnd _ | .ctlOnlyWake | .hostHoldExpire | .wakePinRise | .deepWakeTimer
  | .hostAddressMatchSleep | .hostAddressMatchDeep | .cnvCommit | .dabSuperframeDecoded _ _ _ _ _ _ _ | .trellisBlockDone | .galleryAgeing
  | .timeSourceTimeout | .alarmInstanceStart | .alarmInstanceEnd | .alarmSignalTimeout _ | .alarmLostHoldExpire _ | .alertRelease
  | .swatchIntervalEnd _ _ | .swtLogRdWrite _ | .jobTimedStart _ | .jobDurationEnd _ | .jobWithdrawEffect _ | .jobRenewal _ | .recordSend
  | .probeRecordShed | .strEnWrite _ | .strCrdEdge | .audCfgWrite _ | .audioFrameClockAccept _ | .audioFrameClockOutOfRange _ | .audioFrameClockLoss
  | .nvmHeaderRead _ | .journalRead _ _ | .profileReadChecked _ _ _ | .profileApply | .jobSectionApply | .bootDone | .nvmArbitrationLost
  | .nvmBusBusyTimeout | .nvmNoAckRetry _ | .nvmBusClear _ _ | .journalWriteDue | .journalReadback _ | .bootJrnlCtrlWrite _ | .profileSwitch | .scanEnd
  | .fRescanDue | .calCtrlDacRestart | .temperatureStep _ | .referenceEstimate _ | .commandFrameDiscard _ | .commandWriteBusy | .replyRead _
  | .nrdStretchTimeout | .sclTimeout _ | .sdaStuck | .attentionRequest | .attentionWaitTimeout | .attentionArbitrationLost | .hello _ _ | .paramRead _
  | .paramWrite _ | .tableRead _ _ _ | .tableWrite _ _ _ | .eventRead | .eventClear _ | .jobSubmit _ | .jobWithdraw _ | .jobStatus _ | .profile _ _ _
  | .v1Status | .v1Tune _ _ | .v1Rds | .v1Events | .lnkSetState _ _ _ | .lnkStateApply | .lnkSend _ | .lnkCancel _ | .lnkPeer _ | .lnkFreqWrite _
  | .lnkCfgWrite _ | .lnkLevelDetect _ | .lnkPreambleQualified _ _ _ _ | .lnkSyncDetected _ | .lnkSyncTimeout | .lnkCaptureRestart _ _ _ _ _
  | .lnkFrameEnd _ | .lnkTxDue | .coexGntRise | .coexWaitTimeout | .coexGntFall | .lnkTxEnd | .lnkTxLate | .lnkAlarmCopyDue | .lnkDutyMinute
  | .dacUpdateEdge | .dacClrNRise | .varKeyLoad _ | .varKeyErase _ | .varStart _ _ _ | .varUpdate _ _ | .varFinish _ _ _ | .varCtxSave _ _
  | .varCtxLoad _ _ | .varAttach _ _ _ _ _ | .varDetach _ | .verifiedMessageVerdict _ | .varnishFaultAlarm _ _ | .sealOpen _ _ | .sealCmd _ _ _ _ _ _
  | .sealClose | .sealStatus | .evtPendWrite _ _ | .satBitClear _ _ | .commandUnlistedCode _ _ | .attentionRequestCompleted | .sdaStuckEnd | .wakePinFall
  | .stepAlignmentEnd _ => true

end Sys2Proof
end

