-- ==== Sys2Proof/Machine/CmdBoot.lean ====
section
/-! DEFINITION. The meanings of the rows of start-up, the journal, profiles and the factory scan, in the table's order. -/

namespace Sys2Proof.Machine

/-- NVM_HEADER_READ (R468). -/
def execNvmHeaderRead (r : NvmRead) (s : State) : Res :=
  .next (s.onChip fun c => c.headerRead r)

/-- JOURNAL_READ (R480). -/
def execJournalRead (a : NvmRead) (b : NvmRead) (s : State) : Res :=
  .next (s.onChip fun c => c.journalRead a b)

/-- PROFILE_READ_CHECKED (R471). -/
def execProfileReadChecked (p : Nat) (first : NvmRead) (second : NvmRead) (s : State) : Res :=
  .next (s.onChip fun c => c.profileRead p first second)

/-- PROFILE_APPLY (R472). -/
def execProfileApply (s : State) : Res :=
  .next (s.both fun keys c => c.bootApply keys)

/-- JOB_SECTION_APPLY (R474). -/
def execJobSectionApply (s : State) : Res :=
  .next (s.onChip fun c => c.bootJobs)

/-- BOOT_DONE (R475). -/
def execBootDone (s : State) : Res :=
  .next (s.both fun keys c => bootDoneFx keys c)

/-- NVM_ARBITRATION_LOST (R463). -/
def execNvmArbitrationLost (s : State) : Res :=
  .next (s.withKeys fun keys c => c.nvmLost.profileLate keys)

/-- NVM_BUS_BUSY_TIMEOUT (R463). -/
def execNvmBusBusyTimeout (s : State) : Res :=
  .next (s.withKeys fun keys c => c.nvmBusy.profileLate keys)

/-- NVM_NO_ACK_RETRY (R464). -/
def execNvmNoAckRetry (waitedUs : Nat) (s : State) : Res :=
  .next (s.withKeys fun keys c => (c.nvmNoAck waitedUs).profileLate keys)

/-- NVM_BUS_CLEAR (R465). -/
def execNvmBusClear (pulses : Nat) (released : Bool) (s : State) : Res :=
  .next (s.withKeys fun keys c => (c.nvmClear pulses released).profileLate keys)

/-- JOURNAL_WRITE_DUE (R482). -/
def execJournalWriteDue (s : State) : Res :=
  .next (s.onChip fun c => c.journalDue)

/-- JOURNAL_READBACK (R483). -/
def execJournalReadback (ok : Bool) (s : State) : Res :=
  .next (s.withKeys fun keys c => (c.journalReadback ok).profileLate keys)

/-- BOOT_JRNL_CTRL_WRITE (R482). -/
def execBootJrnlCtrlWrite (value : Word) (s : State) : Res :=
  .next (s.command (.bootJrnlCtrlWrite value))

/-- PROFILE_SWITCH (R478). -/
def execProfileSwitch (s : State) : Res :=
  .next (s.both fun keys c => switchFx keys c)

/-- SCAN_VISIT_END (R485). -/
def execScanVisitEnd (lane : Nat) (s : State) : Res :=
  .next (s.onChip fun c => c.scanVisitEnd lane)

/-- SCAN_END (R486). -/
def execScanEnd (s : State) : Res :=
  .next (s.onChip fun c => c.scanEnd)

/-- F_RESCAN_DUE (R486). -/
def execFRescanDue (s : State) : Res :=
  .next (s.onTime fun c => c.rescanDue)

end Sys2Proof.Machine
end

