-- ==== Sys2Proof/Machine/CmdBroadcast.lean ====
section
/-! DEFINITION. The meanings of the rows of DAB, DRM and RDS reception, the Gallery, broadcast time and alarms, in the table's order. -/

namespace Sys2Proof.Machine

/-- DAB_NULL_DETECTED (R166). -/
def execDabNullDetected (ens : Nat) (_sample : Computed) (s : State) : Res :=
  .next (s.onDsp (okEns ens) fun c => c.dabNull ens)

/-- DAB_PHASE_REFERENCE (R167). -/
def execDabPhaseReference (ens : Nat) (_peakOk _offsetCarriers _cfo _firstPath _strongest : Computed) (s : State) : Res :=
  .next (s.onDsp (okEns ens) fun c => c.dabPhase ens)

/-- DAB_FIC_DECODED (R179). -/
def execDabFicDecoded (ens : Nat) (_refTime _cif _block _fibs : Computed) (s : State) : Res :=
  .next (s.onDsp (okEns ens) fun c => c.dabFic ens)

/-- DAB_FRAME_JUDGED (R171). -/
def execDabFrameJudged (ens : Nat) (_nullFound : Computed) (s : State) : Res :=
  .next (s.onDsp (okEns ens) fun c => c.dabJudge ens)

/-- DAB_CIF_DECODED (R185). -/
def execDabCifDecoded (ens : Nat) (_cif _frames : Computed) (s : State) : Res :=
  .next (s.onDsp (okEns ens) fun c => c.dabCif ens)

/-- DAB_RECONFIGURATION (R186). -/
def execDabReconfiguration (ens : Nat) (s : State) : Res :=
  .next (s.onDsp (okEns ens) fun c => c.dabReconf ens)

/-- DAB_SUPERFRAME_DECODED (R188). -/
def execDabSuperframeDecoded (job : Nat) (_cif _refTime _fireOk _corrected _uncorrectable _data : Computed) (s : State) : Res :=
  .next (s.onDsp true fun c => c.dabSuper job)

/-- DAB_TII_MEASUREMENT_END (R197). -/
def execDabTiiMeasurementEnd (ens : Nat) (_pairs : Computed) (s : State) : Res :=
  .next (s.onDsp (okEns ens) fun c => c.dabTii ens)

/-- TRELLIS_BLOCK_DONE (R194). -/
def execTrellisBlockDone (s : State) : Res :=
  .next (s.onDsp true fun c => c.trellisDone)

/-- DRM_MODE_IDENTIFIED (R205). -/
def execDrmModeIdentified (ch : Nat) (_mode : Computed) (s : State) : Res :=
  .next (s.onDsp (okChan ch) fun c => c.drmMode ch)

/-- DRM_TIME_REFERENCE (R206). -/
def execDrmTimeReference (ch : Nat) (_cfo : Computed) (s : State) : Res :=
  .next (s.onDsp (okChan ch) fun c => c.drmTimeRef ch)

/-- DRM_FRAME_SEARCH_TIMEOUT (R206). -/
def execDrmFrameSearchTimeout (ch : Nat) (s : State) : Res :=
  .next (s.onDsp (okChan ch) fun c => c.drmTimeout ch)

/-- DRM_FAC_BLOCK (R217). -/
def execDrmFacBlock (ch : Nat) (_refTime _crcOk _fac : Computed) (s : State) : Res :=
  .next (s.onDsp (okChan ch) fun c => c.drmFac ch)

/-- DRM_SDC_BLOCK (R217). -/
def execDrmSdcBlock (ch : Nat) (_refTime _crcOk _bytes _entities : Computed) (s : State) : Res :=
  .next (s.onDsp (okChan ch) fun c => c.drmSdc ch)

/-- DRM_FRAME_JUDGED (R209). -/
def execDrmFrameJudged (ch : Nat) (_trefFound : Computed) (s : State) : Res :=
  .next (s.onDsp (okChan ch) fun c => c.drmJudge ch)

/-- DRM_MSC_FRAME (R220). -/
def execDrmMscFrame (ch : Nat) (_refTime _corrected _streams : Computed) (s : State) : Res :=
  .next (s.onDsp (okChan ch) fun c => c.drmMsc ch)

/-- DRM_RECONFIGURATION (R220). -/
def execDrmReconfiguration (ch : Nat) (s : State) : Res :=
  .next (s.onDsp (okChan ch) fun c => c.drmReconf ch)

/-- RDS_BLOCK_RECEIVED (R230). -/
def execRdsBlockReceived (lane : Nat) (_blk : Computed) (s : State) : Res :=
  .next (s.onDsp (okLane lane) fun c => c.rdsReceived lane)

/-- RDS_GROUP (R231). -/
def execRdsGroup (lane : Nat) (_refTime _a _b _c_ _d : Computed) (s : State) : Res :=
  .next (s.onDsp (okLane lane) fun c => c.groupReceived lane)

/-- GALLERY_AGEING (R244). -/
def execGalleryAgeing (s : State) : Res :=
  .next (s.onCtl fun c => c.galAgeing)

/-- GAL_CTRL_PIN (R248). -/
def execGalCtrlPin (entry : Nat) (s : State) : Res :=
  .next (s.command (.galCtrlPin entry))

/-- GAL_CTRL_UNPIN (R248). -/
def execGalCtrlUnpin (entry : Nat) (s : State) : Res :=
  .next (s.command (.galCtrlUnpin entry))

/-- GAL_CTRL_DELETE (R248). -/
def execGalCtrlDelete (entry : Nat) (s : State) : Res :=
  .next (s.command (.galCtrlDelete entry))

/-- TIME_SOURCE_TIMEOUT (R253). -/
def execTimeSourceTimeout (s : State) : Res :=
  .next (s.onCtl fun c => c.timeTimeout)

/-- ALARM_INSTANCE_START (R257). -/
def execAlarmInstanceStart (s : State) : Res :=
  .next (s.withKeys fun keys c => c.live (Chip.almTake keys))

/-- ALARM_INSTANCE_END (R257). -/
def execAlarmInstanceEnd (s : State) : Res :=
  .next (s.withKeys fun keys c => c.live (Chip.almFinish keys))

/-- ALARM_SIGNAL_TIMEOUT (R256). -/
def execAlarmSignalTimeout (inst : Nat) (s : State) : Res :=
  .next (s.withKeys fun keys c => c.live fun c => c.almTimeout keys inst)

/-- ALARM_LOST_HOLD_EXPIRE (R258). -/
def execAlarmLostHoldExpire (inst : Nat) (s : State) : Res :=
  .next (s.withKeys fun keys c => c.live fun c => c.almLostExpire keys inst)

/-- ALERT_RELEASE (R259). -/
def execAlertRelease (s : State) : Res :=
  .next (s.onCtl fun c => c.alertRelease)

end Sys2Proof.Machine
end

