-- ==== Sys2Proof/Machine/CmdBus.lean ====
section
/-! DEFINITION. The meanings of the rows of the host bus, its commands, and events, in the table's order. -/

namespace Sys2Proof.Machine

/-- COMMAND_FRAME_DISCARD (R408). -/
def execCommandFrameDiscard (cause : Nat) (s : State) : Res :=
  .next (s.onTime fun c => c.onBus fun c => c.discardFrame cause)

/-- COMMAND_WRITE_BUSY (R412). -/
def execCommandWriteBusy (s : State) : Res :=
  .next (s.onTime fun c => c.onBus Chip.writeBusy)

/-- REPLY_READ (R410). -/
def execReplyRead (bytes : Nat) (s : State) : Res :=
  .next (s.onTime fun c => c.onBus fun c => c.readReply bytes)

/-- NRD_STRETCH_TIMEOUT (R414). -/
def execNrdStretchTimeout (s : State) : Res :=
  .next (s.onCtl fun c => c.stretchEnd)

/-- SCL_TIMEOUT (R416). -/
def execSclTimeout (_writing : Bool) (s : State) : Res :=
  .next (s.onCtl fun c => c.doSclTimeout)

/-- SDA_STUCK (R417). -/
def execSdaStuck (s : State) : Res :=
  .next (s.onChip fun c => c.doSdaStuck)

/-- ATTENTION_REQUEST (R424). -/
def execAttentionRequest (s : State) : Res :=
  .next (s.onChip fun c => c.doAttention)

/-- ATTENTION_WAIT_TIMEOUT (R426). -/
def execAttentionWaitTimeout (s : State) : Res :=
  .next (s.onCtl fun c => c.atnIgnored)

/-- ATTENTION_ARBITRATION_LOST (R427). -/
def execAttentionArbitrationLost (s : State) : Res :=
  .next (s.onCtl fun c => c.atnLost)

/-- HELLO (R422). -/
def execHello (minV : Nat) (maxV : Nat) (s : State) : Res :=
  .next (s.command (.hello minV maxV))

/-- PARAM_READ (R429). -/
def execParamRead (addrs : List Nat) (s : State) : Res :=
  .next (s.command (.paramRead addrs))

/-- PARAM_WRITE (R430). -/
def execParamWrite (entries : List PWrite) (s : State) : Res :=
  .next (s.command (.paramWrite entries))

/-- TABLE_READ (R431). -/
def execTableRead (table : Nat) (first : Nat) (n : Nat) (s : State) : Res :=
  .next (s.command (.tableRead table first n))

/-- TABLE_WRITE (R431). -/
def execTableWrite (table : Nat) (first : Nat) (words : List Word) (s : State) : Res :=
  .next (s.command (.tableWrite table first words))

/-- EVENT_READ (R569). -/
def execEventRead (s : State) : Res :=
  .next (s.command (.eventRead))

/-- EVENT_CLEAR (R432). -/
def execEventClear (bits : BitVec 64) (s : State) : Res :=
  .next (s.command (.eventClear bits))

/-- JOB_SUBMIT (R340). -/
def execJobSubmit (descriptor : List Byte) (s : State) : Res :=
  .next (s.command (.jobSubmit descriptor))

/-- JOB_WITHDRAW (R328). -/
def execJobWithdraw (job : Nat) (s : State) : Res :=
  .next (s.command (.jobWithdraw job))

/-- JOB_STATUS (R352). -/
def execJobStatus (job : Nat) (s : State) : Res :=
  .next (s.command (.jobStatus job))

/-- PROFILE (R477). -/
def execProfile (p : Nat) (first : NvmRead) (second : NvmRead) (s : State) : Res :=
  .next (s.command (.profile p first second))

/-- V1_STATUS (R435). -/
def execV1Status (s : State) : Res :=
  .next (s.command (.v1Status))

/-- V1_TUNE (R434). -/
def execV1Tune (kHz : Nat) (band : Nat) (s : State) : Res :=
  .next (s.command (.v1Tune kHz band))

/-- V1_RDS (R435). -/
def execV1Rds (s : State) : Res :=
  .next (s.command (.v1Rds))

/-- V1_EVENTS (R436). -/
def execV1Events (s : State) : Res :=
  .next (s.command (.v1Events))

/-- EVT_PEND_WRITE (R561). -/
def execEvtPendWrite (high : Bool) (value : Word) (s : State) : Res :=
  .next (s.command (.evtPendWrite high value))

/-- EVT_MASK_WRITE (R562). -/
def execEvtMaskWrite (which : Nat) (value : Word) (s : State) : Res :=
  .next (s.command (.evtMaskWrite which value))

/-- EVENT_RECORD_EMIT (R570). -/
def execEventRecordEmit (event : Nat) (s : State) : Res :=
  .next (s.onCtl fun c => c.emitEvent event)

/-- SAT_BIT_CLEAR (R565). -/
def execSatBitClear (addr : Nat) (bits : Word) (s : State) : Res :=
  .next (s.command (.satBitClear addr bits))

/-- COMMAND_UNLISTED_CODE (R409). -/
def execCommandUnlistedCode (code : Nat) (len : Nat) (s : State) : Res :=
  .next (s.command (.commandUnlistedCode code len))

/-- ATTENTION_REQUEST_COMPLETED (R425). -/
def execAttentionRequestCompleted (s : State) : Res :=
  .next (s.onCtl fun c => c.atnDone)

/-- SDA_STUCK_END (R417). -/
def execSdaStuckEnd (s : State) : Res :=
  .next (s.onChip fun c => c.sdaFree)

/-- WAKE_PIN_FALL (R376). -/
def execWakePinFall (s : State) : Res :=
  .next (s.onChip fun c => c.wakeFall)

/-- STEP_ALIGNMENT_END (R361). -/
def execStepAlignmentEnd (l : PLoop) (s : State) : Res :=
  .next (s.onCtl fun c => c.aligned (loopNum l))

end Sys2Proof.Machine
end

