-- ==== Sys2Proof/Machine/CmdCal.lean ====
section
/-! DEFINITION. The meanings of the rows of self-calibration, in the table's order. -/

namespace Sys2Proof.Machine

/-- LADDER_RUN_START (R396). -/
def execLadderRunStart (fe : Nat) (s : State) : Res :=
  .next (s.onDsp (okFe fe) fun c => c.runDue fe)

/-- CAL_CTRL_LADDER_RUN (R396). -/
def execCalCtrlLadderRun (fe : Nat) (s : State) : Res :=
  .next (s.command (.calCtrlLadderRun fe))

/-- CAL_CTRL_DAC_RESTART (R400). -/
def execCalCtrlDacRestart (s : State) : Res :=
  .next (s.command (.calCtrlDacRestart))

/-- TEMPERATURE_STEP (R396). -/
def execTemperatureStep (temp : Int) (s : State) : Res :=
  .next (s.onCtl fun c => c.tempStep temp)

/-- LADDER_COMPARISON_START (R395). -/
def execLadderComparisonStart (fe : Nat) (section_ : Nat) (s : State) : Res :=
  .next (s.onDsp (okFe fe) fun c => c.ladderStart fe section_)

/-- LADDER_COMPARISON_DONE (R394). -/
def execLadderComparisonDone (fe : Nat) (diff : Int) (s : State) : Res :=
  .next (s.onDsp (okFe fe) fun c => c.ladderDone fe diff)

/-- REFERENCE_ESTIMATE (R399). -/
def execReferenceEstimate (_sources : Computed) (s : State) : Res :=
  .next (s.onCtl fun c => c.referenceEstimate)

/-- DAC_SENSE_MEASURE (R400). -/
def execDacSenseMeasure (ch : Nat) (code : Nat) (reading : Int) (s : State) : Res :=
  .next (s.onCtl fun c => c.dacSense ch code reading)

end Sys2Proof.Machine
end

