-- ==== Sys2Proof/Machine/CmdFollow.lean ====
section
/-! DEFINITION. The meanings of the rows of following and linking, in the table's order. -/

namespace Sys2Proof.Machine

/-- MEMBER_VISIT_END (R273). -/
def execMemberVisitEnd (inst : Nat) (lane : Nat) (_score : Computed) (s : State) : Res :=
  .next (s.onDsp (okInst inst) fun c => c.visitEnd inst lane)

/-- MEMBER_PARK_END (R274). -/
def execMemberParkEnd (inst : Nat) (lane : Nat) (s : State) : Res :=
  .next (s.onDsp (okInst inst) fun c => c.parkEnd inst lane)

/-- VERIFICATION_EXPIRE (R276). -/
def execVerificationExpire (inst : Nat) (member : Nat) (s : State) : Res :=
  .next (s.onDsp (okInst inst) fun c => c.verifyExpire inst member)

/-- ESTIMATE_COMPLETE (R279). -/
def execEstimateComplete (inst : Nat) (member : Nat) (_lag _rho _psr _usable _tx : Computed) (s : State) : Res :=
  .next (s.onDsp (okInst inst) fun c => c.estimate inst member)

/-- REESTIMATE_DUE (R280). -/
def execReestimateDue (inst : Nat) (member : Nat) (s : State) : Res :=
  .next (s.onDsp (okInst inst) fun c => c.reestimate inst member)

/-- LINK_REF_COMMIT (R281). -/
def execLinkRefCommit (inst : Nat) (s : State) : Res :=
  .next (s.command (.linkRefCommit inst))

/-- LINK_SLEW_END (R285). -/
def execLinkSlewEnd (inst : Nat) (s : State) : Res :=
  .next (s.onDsp (okInst inst) fun c => c.slewEnd inst)

/-- LNK_FORCE_WRITE (R286). -/
def execLnkForceWrite (inst : Nat) (value : Word) (s : State) : Res :=
  .next (s.command (.lnkForceWrite inst value))

/-- LINK_FADE_START (R288). -/
def execLinkFadeStart (inst : Nat) (s : State) : Res :=
  .next (s.onDsp (okInst inst) fun c => c.fadeStart inst)

/-- LINK_FADE_END (R292). -/
def execLinkFadeEnd (inst : Nat) (s : State) : Res :=
  .next (s.onDsp (okInst inst) fun c => c.fadeEnd inst)

/-- HARD_SWITCH_RAMP_IN (R292). -/
def execHardSwitchRampIn (inst : Nat) (s : State) : Res :=
  .next (s.onDsp (okInst inst) fun c => c.hardRampIn inst)

end Sys2Proof.Machine
end

