-- ==== Sys2Proof/Machine/CmdFront.lean ====
section
/-! DEFINITION. The meanings of the rows of front ends, converters, windows, Canvas and captures, in the table's order. -/

namespace Sys2Proof.Machine

/-- FE_PATH_EN_WRITE (R41). -/
def execFePathEnWrite (fe : Nat) (value : Word) (s : State) : Res :=
  .next (s.command (.fePathEnWrite fe value))

/-- FE_AGC_MODE_WRITE (R47). -/
def execFeAgcModeWrite (fe : Nat) (value : Word) (s : State) : Res :=
  .next (s.command (.feAgcModeWrite fe value))

/-- FE_ATTN_MAN_WRITE (R52). -/
def execFeAttnManWrite (fe : Nat) (value : Word) (s : State) : Res :=
  .next (s.command (.feAttnManWrite fe value))

/-- AGC_RELEASE_STEP (R44). -/
def execAgcReleaseStep (fe : Nat) (s : State) : Res :=
  .next (s.onDsp (okFe fe) fun c => c.agcRelease fe)

/-- OVERLOAD_DECLARED (R50). -/
def execOverloadDeclared (fe : Nat) (clipped : Nat) (s : State) : Res :=
  .next (s.onDsp (okFe fe) fun c => c.overload fe clipped)

/-- OVL_RETURN_STEP (R52). -/
def execOvlReturnStep (fe : Nat) (s : State) : Res :=
  .next (s.onDsp (okFe fe) fun c => c.ovlReturn fe)

/-- FE_INJ_START (R66). -/
def execFeInjStart (fe : Nat) (s : State) : Res :=
  .next (s.command (.feInjStart fe))

/-- FE_INJ_STOP (R68). -/
def execFeInjStop (fe : Nat) (level : Int) (s : State) : Res :=
  .next (s.command (.feInjStop fe level))

/-- INJECTION_END (R68). -/
def execInjectionEnd (fe : Nat) (level : Int) (s : State) : Res :=
  .next (s.onDsp (okFe fe) fun c => c.injDone fe level)

/-- DIV_ESTIMATE_BLOCK (R59). -/
def execDivEstimateBlock (lane : Nat) (pa : Nat) (pb : Nat) (cRe : Int) (cIm : Int) (noise : Nat) (s : State) : Res :=
  .next (s.onDsp (okLane lane) fun c => c.divEstimate lane pa pb cRe cIm noise)

/-- DIV_OVL_RETURN (R61). -/
def execDivOvlReturn (fe : Nat) (s : State) : Res :=
  .next (s.onDsp (okFe fe) fun c => c.divReturn fe)

/-- SPARE_PASS_DONE (R389). -/
def execSparePassDone (adc : Nat) (offset : Int) (gain : Int) (skew : Int) (s : State) : Res :=
  .next (s.onDsp (okFe adc) fun c => c.spareDone adc offset gain skew)

/-- HANDOVER_DUE (R391). -/
def execHandoverDue (adc : Nat) (s : State) : Res :=
  .next (s.onDsp (okFe adc) fun c => c.handDue adc)

/-- HANDOVER_COMPARE_DONE (R64). -/
def execHandoverCompareDone (adc : Nat) (rmsMilliLsb : Nat) (s : State) : Res :=
  .next (s.onDsp (okFe adc) fun c => c.handCompared adc rmsMilliLsb)

/-- WIN_CENTRE_WRITE (R79). -/
def execWinCentreWrite (win : Nat) (value : Word) (s : State) : Res :=
  .next (s.command (.winCentreWrite win value))

/-- WIN_SRC_WRITE (R82). -/
def execWinSrcWrite (win : Nat) (value : Word) (s : State) : Res :=
  .next (s.command (.winSrcWrite win value))

/-- WIN_EXPORT_WRITE (R84). -/
def execWinExportWrite (win : Nat) (value : Word) (s : State) : Res :=
  .next (s.command (.winExportWrite win value))

/-- CNV_COMMIT (R87). -/
def execCnvCommit (s : State) : Res :=
  .next (s.command (.cnvCommit))

/-- WIN_CAP_ARM (R95). -/
def execWinCapArm (win : Nat) (s : State) : Res :=
  .next (s.command (.winCapArm win))

/-- WIN_CAP_TRIGGER_NOW (R96). -/
def execWinCapTriggerNow (win : Nat) (s : State) : Res :=
  .next (s.command (.winCapTriggerNow win))

/-- WIN_CAP_START_EXPORT (R99). -/
def execWinCapStartExport (win : Nat) (s : State) : Res :=
  .next (s.command (.winCapStartExport win))

/-- WIN_CAP_RELEASE (R99). -/
def execWinCapRelease (win : Nat) (s : State) : Res :=
  .next (s.command (.winCapRelease win))

/-- CAPTURE_TRIGGER (R96). -/
def execCaptureTrigger (win : Nat) (causes : Nat) (s : State) : Res :=
  .next (s.onDsp (okWin win) fun c => c.capTrigger win (c.capCauses win causes c.time.now) false)

/-- CAPTURE_RING_FULL (R96). -/
def execCaptureRingFull (win : Nat) (s : State) : Res :=
  .next (s.onDsp (okWin win) fun c => c.ringFull win)

/-- CAPTURE_POST_COMPLETE (R97). -/
def execCapturePostComplete (win : Nat) (s : State) : Res :=
  .next (s.onDsp (okWin win) fun c => c.capDone win)

/-- CAPTURE_EXPORT_DONE (R99). -/
def execCaptureExportDone (win : Nat) (s : State) : Res :=
  .next (s.onDsp (okWin win) fun c => c.capExportDone win)

end Sys2Proof.Machine
end

