-- ==== Sys2Proof/Machine/CmdJob.lean ====
section
/-! DEFINITION. The meanings of the rows of measurement, jobs, records and the stream and audio ports, in the table's order. -/

namespace Sys2Proof.Machine

/-- SWATCH_INTERVAL_END (R304). -/
def execSwatchIntervalEnd (job : Nat) (_data : Computed) (s : State) : Res :=
  .next (s.onCtl fun c => c.swatchEnd job)

/-- SWT_LOG_RD_WRITE (R320). -/
def execSwtLogRdWrite (value : Word) (s : State) : Res :=
  .next (s.command (.swtLogRdWrite value))

/-- JOB_TIMED_START (R327). -/
def execJobTimedStart (job : Nat) (s : State) : Res :=
  .next (s.onCtl fun c => c.timedStart job)

/-- JOB_DURATION_END (R327). -/
def execJobDurationEnd (job : Nat) (s : State) : Res :=
  .next (s.onCtl fun c => c.durationEnd job)

/-- JOB_WITHDRAW_EFFECT (R328). -/
def execJobWithdrawEffect (job : Nat) (s : State) : Res :=
  .next (s.withKeys fun keys c => c.live fun c => ((c.tuneVoid keys).withdrawEffect job).tuneLate keys)

/-- JOB_RENEWAL (R349). -/
def execJobRenewal (job : Nat) (s : State) : Res :=
  .next (s.onCtl fun c => c.renew job)

/-- RECORD_SEND (R342). -/
def execRecordSend (s : State) : Res :=
  .next (s.onChip fun c => c.sendNext)

/-- PROBE_RECORD_SHED (R344). -/
def execProbeRecordShed (s : State) : Res :=
  .next (s.onCtl fun c => c.probeShed)

/-- STR_EN_WRITE (R442). -/
def execStrEnWrite (value : Word) (s : State) : Res :=
  .next (s.command (.strEnWrite value))

/-- STR_CRD_EDGE (R441). -/
def execStrCrdEdge (s : State) : Res :=
  .next (s.onChip fun c => c.creditEdge)

/-- AUD_CFG_WRITE (R457). -/
def execAudCfgWrite (value : Word) (s : State) : Res :=
  .next (s.command (.audCfgWrite value))

/-- AUDIO_FRAME_CLOCK_ACCEPT (R454). -/
def execAudioFrameClockAccept (ppm : Int) (s : State) : Res :=
  .next (s.onChip fun c => c.audAccept ppm)

/-- AUDIO_FRAME_CLOCK_OUT_OF_RANGE (R454). -/
def execAudioFrameClockOutOfRange (ppm : Int) (s : State) : Res :=
  .next (s.onChip fun c => c.audRange ppm)

/-- AUDIO_FRAME_CLOCK_LOSS (R454). -/
def execAudioFrameClockLoss (s : State) : Res :=
  .next (s.onChip fun c => c.audLoss)

end Sys2Proof.Machine
end

