-- ==== Sys2Proof/Machine/CmdLane.lean ====
section
/-! DEFINITION. The meanings of the rows of lanes, demodulators and audio-grade slots, in the table's order. -/

namespace Sys2Proof.Machine

/-- LANE_START (R108). -/
def execLaneStart (lane : Nat) (s : State) : Res :=
  .next (s.onDsp (okLane lane) fun c => c.laneStart lane)

/-- LANE_NCO_WRITE (R110). -/
def execLaneNcoWrite (lane : Nat) (value : Word) (s : State) : Res :=
  .next (s.command (.laneNcoWrite lane value))

/-- LANE_BANK_NEXT_WRITE (R123). -/
def execLaneBankNextWrite (lane : Nat) (value : Word) (s : State) : Res :=
  .next (s.command (.laneBankNextWrite lane value))

/-- BANK_FADE_END (R127). -/
def execBankFadeEnd (lane : Nat) (s : State) : Res :=
  .next (s.onDsp (okLane lane) fun c => c.bankFadeEnd lane)

/-- PILOT_LOCK (R138). -/
def execPilotLock (lane : Nat) (s : State) : Res :=
  .next (s.onDsp (okLane lane) fun c => c.pilotLock lane)

/-- PILOT_UNLOCK (R138). -/
def execPilotUnlock (lane : Nat) (s : State) : Res :=
  .next (s.onDsp (okLane lane) fun c => c.pilotUnlock lane)

/-- CARRIER_FOUND (R142). -/
def execCarrierFound (lane : Nat) (s : State) : Res :=
  .next (s.onDsp (okLane lane) fun c => c.carrierFound lane)

/-- CARRIER_LOST (R142). -/
def execCarrierLost (lane : Nat) (s : State) : Res :=
  .next (s.onDsp (okLane lane) fun c => c.carrierLost lane)

/-- AM_LOOP_LOCK (R154). -/
def execAmLoopLock (lane : Nat) (s : State) : Res :=
  .next (s.onDsp (okLane lane) fun c => c.amLock lane true)

/-- AM_LOOP_UNLOCK (R154). -/
def execAmLoopUnlock (lane : Nat) (s : State) : Res :=
  .next (s.onDsp (okLane lane) fun c => c.amLock lane false)

/-- FMS_LANE_WRITE (R143). -/
def execFmsLaneWrite (slot : Nat) (value : Word) (s : State) : Res :=
  .next (s.command (.fmsLaneWrite slot value))

/-- FMS_DEST_WRITE (R158). -/
def execFmsDestWrite (slot : Nat) (value : Word) (s : State) : Res :=
  .next (s.command (.fmsDestWrite slot value))

/-- AMS_LANE_WRITE (R155). -/
def execAmsLaneWrite (slot : Nat) (value : Word) (s : State) : Res :=
  .next (s.command (.amsLaneWrite slot value))

/-- AMS_DEST_WRITE (R158). -/
def execAmsDestWrite (slot : Nat) (value : Word) (s : State) : Res :=
  .next (s.command (.amsDestWrite slot value))

/-- SLOT_ATTACH (R143). -/
def execSlotAttach (fm : Bool) (slot : Nat) (s : State) : Res :=
  .next (s.onDsp (okSlot fm slot) fun c => c.attachSlot fm slot)

/-- LANE_FIRST_OUTPUT_SAMPLE (R111). -/
def execLaneFirstOutputSample (lane : Nat) (s : State) : Res :=
  .next (s.onDsp (okLane lane) fun c => c.laneFirst lane)

/-- WINDOW_FIRST_OUTPUT_SAMPLE (R80). -/
def execWindowFirstOutputSample (win : Nat) (s : State) : Res :=
  .next (s.onDsp (okWin win) fun c => c.winFirst win)

/-- SLOT_RAMP_IN_COMPLETE (R152). -/
def execSlotRampInComplete (fm : Bool) (slot : Nat) (s : State) : Res :=
  .next (s.onDsp (okSlot fm slot) fun c => c.rampInSlot fm slot)

end Sys2Proof.Machine
end

