-- ==== Sys2Proof/Machine/CmdLink.lean ====
section
/-! DEFINITION. The meanings of the rows of the Studio link and the control outputs, in the table's order. -/

namespace Sys2Proof.Machine

/-- LNK_SET_STATE (R514). -/
def execLnkSetState (state : Nat) (maskPass : Bool) (maskWord : Word) (s : State) : Res :=
  .next (s.command (.lnkSetState state maskPass maskWord))

/-- LNK_STATE_APPLY (R514). -/
def execLnkStateApply (s : State) : Res :=
  .next (s.onCtl fun c => c.applyLinkState)

/-- LNK_SEND (R519). -/
def execLnkSend (payload : List Byte) (s : State) : Res :=
  .next (s.command (.lnkSend payload))

/-- LNK_CANCEL (R520). -/
def execLnkCancel (id : Nat) (s : State) : Res :=
  .next (s.command (.lnkCancel id))

/-- LNK_PEER (R518). -/
def execLnkPeer (idx : Nat) (s : State) : Res :=
  .next (s.command (.lnkPeer idx))

/-- LNK_FREQ_WRITE (R490). -/
def execLnkFreqWrite (value : Word) (s : State) : Res :=
  .next (s.command (.lnkFreqWrite value))

/-- LNK_CFG_WRITE (R515). -/
def execLnkCfgWrite (value : Word) (s : State) : Res :=
  .next (s.command (.lnkCfgWrite value))

/-- LNK_LEVEL_DETECT (R497). -/
def execLnkLevelDetect (rssi : Int) (s : State) : Res :=
  .next (s.onCtl fun c => c.rxLevel rssi)

/-- LNK_PREAMBLE_QUALIFIED (R497). -/
def execLnkPreambleQualified (quality : Nat) (afc : Int) (level : Int) (aerial : Nat) (s : State) : Res :=
  .next (s.onCtl fun c => c.rxQualify quality afc level aerial)

/-- LNK_SYNC_DETECTED (R497). -/
def execLnkSyncDetected (rssi : Int) (s : State) : Res :=
  .next (s.onCtl fun c => c.rxSync rssi)

/-- LNK_SYNC_TIMEOUT (R498). -/
def execLnkSyncTimeout (s : State) : Res :=
  .next (s.onCtl fun c => c.rxTimeout)

/-- LNK_CAPTURE_RESTART (R499). -/
def execLnkCaptureRestart (level : Int) (afc : Int) (aerial : Nat) (corrected : Nat) (n : Nat) (s : State) : Res :=
  .next (s.onCtl fun c => c.rxCapture level afc aerial corrected n)

/-- LNK_FRAME_END (R500). -/
def execLnkFrameEnd (air : List Int) (s : State) : Res :=
  .next (s.withKeys fun keys c => c.live fun c => c.rxEnd keys air)

/-- LNK_TX_DUE (R504). -/
def execLnkTxDue (s : State) : Res :=
  .next (s.onCtl fun c => c.txDue)

/-- COEX_GNT_RISE (R506). -/
def execCoexGntRise (s : State) : Res :=
  .next (s.onCtl fun c => c.gntRise)

/-- COEX_WAIT_TIMEOUT (R506). -/
def execCoexWaitTimeout (s : State) : Res :=
  .next (s.onCtl fun c => c.coexTimeout)

/-- COEX_GNT_FALL (R507). -/
def execCoexGntFall (s : State) : Res :=
  .next (s.onCtl fun c => c.gntFall)

/-- LNK_TX_END (R508). -/
def execLnkTxEnd (s : State) : Res :=
  .next (s.onCtl fun c => c.txEnd)

/-- LNK_TX_LATE (R505). -/
def execLnkTxLate (s : State) : Res :=
  .next (s.onCtl fun c => c.txLate)

/-- LNK_ALARM_COPY_DUE (R511). -/
def execLnkAlarmCopyDue (s : State) : Res :=
  .next (s.withKeys fun keys c => c.live fun c => c.alarmCopies keys)

/-- LNK_DUTY_MINUTE (R510). -/
def execLnkDutyMinute (s : State) : Res :=
  .next (s.onChip fun c => c.dutyMinute)

/-- DAC_CODE_WRITE (R529). -/
def execDacCodeWrite (ch : Nat) (value : Word) (s : State) : Res :=
  .next (s.command (.dacCodeWrite ch value))

/-- DAC_RANGE_WRITE (R532). -/
def execDacRangeWrite (ch : Nat) (value : Word) (s : State) : Res :=
  .next (s.command (.dacRangeWrite ch value))

/-- DAC_SINE_START (R533). -/
def execDacSineStart (ch : Nat) (s : State) : Res :=
  .next (s.command (.dacSineStart ch))

/-- DAC_SINE_STOP (R533). -/
def execDacSineStop (ch : Nat) (s : State) : Res :=
  .next (s.command (.dacSineStop ch))

/-- DAC_UPDATE_EDGE (R531). -/
def execDacUpdateEdge (s : State) : Res :=
  .next (s.onChip fun c => c.updateEdge)

/-- DAC_CLR_N_FALL (R526). -/
def execDacClrNFall (clrsel : Nat) (s : State) : Res :=
  .next (s.onChip fun c => if okPin clrsel then c.clrFall clrsel else c)

/-- DAC_CLR_N_RISE (R526). -/
def execDacClrNRise (s : State) : Res :=
  .next (s.onChip fun c => c.clrRise)

end Sys2Proof.Machine
end

