-- ==== Sys2Proof/Machine/CmdTime.lean ====
section
/-! DEFINITION. The meanings of the rows of clocks, power, reset and wake rows, and the plain register write, in the table's order. -/

namespace Sys2Proof.Machine

/-- TICK_BOUNDARY (R32). -/
def execTickBoundary (m : TickMeas) (s : State) : Res :=
  .next (s.both fun keys c => (keys, (if c.passed then c.tickBoundary m else (c.tickBoundary m).scanTick).tuneVoid keys))

/-- REGISTER_WRITE (R11). -/
def execRegisterWrite (addr : Nat) (value : Word) (s : State) : Res :=
  .next (s.command (.registerWrite addr value))

/-- VDD_AO_VALID (R28). -/
def execVddAoValid (s : State) : Res :=
  .next (s.both fun _ c => ([], c.aoValid))

/-- POWER_UP_BOOT_START (R581). -/
def execPowerUpBootStart (s : State) : Res :=
  .next (s.onChip fun c => c.edgesPassed)

/-- AO_STARTUP_TIMEOUT (R581). -/
def execAoStartupTimeout (s : State) : Res :=
  .next (s.onChip fun c => c.edgesMissing)

/-- RESET_N_ASSERT (R459). -/
def execResetNAssert (lowNs : Nat) (s : State) : Res :=
  .next (s.onTime fun c => c.resetAssert lowNs)

/-- RESET_N_RELEASE (R460). -/
def execResetNRelease (addrPins : Nat) (profPins : Nat) (s : State) : Res :=
  .next (s.onChip fun c => if okPin addrPins && okPin profPins then c.resetRelease addrPins profPins else c)

/-- RAIL_BELOW_WARNING (R580). -/
def execRailBelowWarning (r : Rail) (s : State) : Res :=
  .next (s.onChip fun c => c.railWarning (railNum r))

/-- RAIL_BELOW_VALID (R580). -/
def execRailBelowValid (r : Rail) (s : State) : Res :=
  .next (s.onTime fun c => c.railInvalid (railNum r))

/-- RAIL_RECOVERED (R580). -/
def execRailRecovered (r : Rail) (s : State) : Res :=
  .next (s.onChip fun c => c.railBack (railNum r))

/-- VDD_IO_VALID (R579). -/
def execVddIoValid (mv : Nat) (s : State) : Res :=
  .next (s.onChip fun c => c.ioValid mv)

/-- VDD_DAC_VALID (R528). -/
def execVddDacValid (mv : Nat) (clrsel : Nat) (s : State) : Res :=
  .next (s.onChip fun c => if okPin clrsel then c.dacRailValid mv clrsel else c)

/-- VDD_DAC_LOSS (R528). -/
def execVddDacLoss (s : State) : Res :=
  .next (s.onChip fun c => c.dacRailLost)

/-- DIRECTOR_WATCHDOG_RESET (R575). -/
def execDirectorWatchdogReset (tick : Nat) (s : State) : Res :=
  .next (s.both fun keys c => (if c.ctlOn then [] else keys, c.watchdog tick))

/-- SECOND_BOUNDARY (R31). -/
def execSecondBoundary (s : State) : Res :=
  .next (s.withKeys fun keys c => c.second keys)

/-- TICK_PULSE_END (R370). -/
def execTickPulseEnd (s : State) : Res :=
  .next (s.onChip fun c => c.tickFall)

/-- LEAP_SECOND_INSERT (R255). -/
def execLeapSecondInsert (s : State) : Res :=
  .next (s.onCtl fun c => c.leapInsert)

/-- TCXO_SETTLED (R354). -/
def execTcxoSettled (s : State) : Res :=
  .next (s.onChip fun c => c.tcxoSettled)

/-- TCXO_FAIL (R355). -/
def execTcxoFail (s : State) : Res :=
  .next (s.onGen fun c => c.tcxoFail)

/-- TCXO_RECOVERED (R355). -/
def execTcxoRecovered (s : State) : Res :=
  .next (s.onCtl fun c => c.tcxoGood)

/-- XO32K_FAIL (R356). -/
def execXo32kFail (s : State) : Res :=
  .next (s.onCtl fun c => c.xo32kFail)

/-- LOOP_LOCK (R357). -/
def execLoopLock (l : PLoop) (s : State) : Res :=
  .next (s.onCtl fun c => c.lock (loopNum l))

/-- LOOP_LOCK_LOST (R358). -/
def execLoopLockLost (l : PLoop) (s : State) : Res :=
  .next (s.onGen fun c => c.loseLock (loopNum l))

/-- COAST_DRIFT_CHECK (R359). -/
def execCoastDriftCheck (l : PLoop) (drift : Int) (s : State) : Res :=
  .next (s.onGen fun c => c.driftCheck (loopNum l) drift)

/-- COAST_TIMEOUT (R359). -/
def execCoastTimeout (l : PLoop) (s : State) : Res :=
  .next (s.onGen fun c => c.coastTimeout (loopNum l))

/-- LOOP_RELOCK (R360). -/
def execLoopRelock (l : PLoop) (phiPs : Int) (s : State) : Res :=
  .next (s.both fun keys c => (keys, (c.relockLoop (loopNum l) phiPs).tuneVoid keys))

/-- LOOP_SLEW_END (R362). -/
def execLoopSlewEnd (l : PLoop) (s : State) : Res :=
  .next (s.onCtl fun c => c.slewLocked (loopNum l))

/-- PWR_MODE_RUN (R385). -/
def execPwrModeRun (s : State) : Res :=
  .next (s.command (.pwrModeRun))

/-- PWR_MODE_SKETCH (R378). -/
def execPwrModeSketch (s : State) : Res :=
  .next (s.command (.pwrModeSketch))

/-- PWR_MODE_DEEP_SLEEP (R377). -/
def execPwrModeDeepSleep (s : State) : Res :=
  .next (s.command (.pwrModeDeepSleep))

/-- SKETCH_WAKE (R382). -/
def execSketchWake (entry : Nat) (firstSampleAt : Nat) (s : State) : Res :=
  .next (s.onTime fun c => c.sketchWake entry firstSampleAt)

/-- GLIMPSE_END (R383). -/
def execGlimpseEnd (entry : Nat) (s : State) : Res :=
  .next (s.onChip fun c => c.glimpseEnd entry)

/-- CTL_ONLY_WAKE (R375). -/
def execCtlOnlyWake (s : State) : Res :=
  .next (s.onTime fun c => c.ctlOnlyWake)

/-- HOST_HOLD_EXPIRE (R376). -/
def execHostHoldExpire (s : State) : Res :=
  .next (s.onChip fun c => c.holdExpire)

/-- WAKE_PIN_RISE (R377). -/
def execWakePinRise (s : State) : Res :=
  .next (s.onTime fun c => c.wakeRise)

/-- DEEP_WAKE_TIMER (R377). -/
def execDeepWakeTimer (s : State) : Res :=
  .next (s.onChip fun c => c.deepTimer)

/-- HOST_ADDRESS_MATCH_SLEEP (R419). -/
def execHostAddressMatchSleep (s : State) : Res :=
  .next (s.onTime fun c => c.addressSleep)

/-- HOST_ADDRESS_MATCH_DEEP (R420). -/
def execHostAddressMatchDeep (s : State) : Res :=
  .next (s.onChip fun c => c.deepWake)

end Sys2Proof.Machine
end

