-- ==== Sys2Proof/Machine/CmdVarnish.lean ====
section
/-! DEFINITION. The meanings of the rows of Varnish and sealed sessions, in the table's order. -/

namespace Sys2Proof.Machine

/-- VAR_KEY_LOAD (R540). -/
def execVarKeyLoad (blob : List Byte) (s : State) : Res :=
  .next (s.command (.varKeyLoad blob))

/-- VAR_KEY_ERASE (R541). -/
def execVarKeyErase (slots : Nat) (s : State) : Res :=
  .next (s.command (.varKeyErase slots))

/-- VAR_START (R544). -/
def execVarStart (ctx : Nat) (slot : Nat) (kind : Nat) (s : State) : Res :=
  .next (s.command (.varStart ctx slot kind))

/-- VAR_UPDATE (R544). -/
def execVarUpdate (ctx : Nat) (msg : List Byte) (s : State) : Res :=
  .next (s.command (.varUpdate ctx msg))

/-- VAR_FINISH (R544). -/
def execVarFinish (ctx : Nat) (t : Nat) (tag : List Byte) (s : State) : Res :=
  .next (s.command (.varFinish ctx t tag))

/-- VAR_CTX_SAVE (R545). -/
def execVarCtxSave (ctx : Nat) (wrapped : Nat) (s : State) : Res :=
  .next (s.command (.varCtxSave ctx wrapped))

/-- VAR_CTX_LOAD (R545). -/
def execVarCtxLoad (ctx : Nat) (image : List Byte) (s : State) : Res :=
  .next (s.command (.varCtxLoad ctx image))

/-- VAR_ATTACH (R546). -/
def execVarAttach (job : Nat) (slot : Nat) (mode : Nat) (t : Nat) (stream : Nat) (s : State) : Res :=
  .next (s.command (.varAttach job slot mode t stream))

/-- VAR_DETACH (R546). -/
def execVarDetach (job : Nat) (s : State) : Res :=
  .next (s.command (.varDetach job))

/-- VERIFIED_MESSAGE_VERDICT (R548). -/
def execVerifiedMessageVerdict (job : Nat) (s : State) : Res :=
  .next (s.withKeys fun keys c => c.live fun c => c.verdict keys job)

/-- VARNISH_FAULT_ALARM (R552). -/
def execVarnishFaultAlarm (use : Nat) (job : Nat) (s : State) : Res :=
  .next (s.both fun keys c => c.faultAlarm keys use job)

/-- SEAL_OPEN (R554). -/
def execSealOpen (slot : Nat) (nonce : List Byte) (s : State) : Res :=
  .next (s.command (.sealOpen slot nonce))

/-- SEAL_CMD (R555). -/
def execSealCmd (counter : Word) (inner : Nat) (payload : List Byte) (tag : List Byte) (first : NvmRead) (second : NvmRead) (s : State) : Res :=
  .next (s.command (.sealCmd counter inner payload tag first second))

/-- SEAL_CLOSE (R554). -/
def execSealClose (s : State) : Res :=
  .next (s.command (.sealClose))

/-- SEAL_STATUS (R555). -/
def execSealStatus (s : State) : Res :=
  .next (s.command (.sealStatus))

end Sys2Proof.Machine
end

