-- ==== Sys2Proof/Machine/Dispatch.lean ====
section
/-! DEFINITION. One arm per command: a direct call of its meaning. -/

namespace Sys2Proof.Machine

/-- The effect of one command or event on everything but the queue. -/
def exec (i : Instr) (s : State) : Host.Outcome State Fault Refusal :=
  match i with
  | .tickBoundary m => Sys2Proof.Machine.execTickBoundary m s
  | .registerWrite addr value => Sys2Proof.Machine.execRegisterWrite addr value s
  | .vddAoValid => Sys2Proof.Machine.execVddAoValid s
  | .powerUpBootStart => Sys2Proof.Machine.execPowerUpBootStart s
  | .aoStartupTimeout => Sys2Proof.Machine.execAoStartupTimeout s
  | .resetNAssert lowNs => Sys2Proof.Machine.execResetNAssert lowNs s
  | .resetNRelease addrPins profPins => Sys2Proof.Machine.execResetNRelease addrPins profPins s
  | .railBelowWarning r => Sys2Proof.Machine.execRailBelowWarning r s
  | .railBelowValid r => Sys2Proof.Machine.execRailBelowValid r s
  | .railRecovered r => Sys2Proof.Machine.execRailRecovered r s
  | .vddIoValid mv => Sys2Proof.Machine.execVddIoValid mv s
  | .vddDacValid mv clrsel => Sys2Proof.Machine.execVddDacValid mv clrsel s
  | .vddDacLoss => Sys2Proof.Machine.execVddDacLoss s
  | .directorWatchdogReset tick => Sys2Proof.Machine.execDirectorWatchdogReset tick s
  | .secondBoundary => Sys2Proof.Machine.execSecondBoundary s
  | .tickPulseEnd => Sys2Proof.Machine.execTickPulseEnd s
  | .leapSecondInsert => Sys2Proof.Machine.execLeapSecondInsert s
  | .tcxoSettled => Sys2Proof.Machine.execTcxoSettled s
  | .tcxoFail => Sys2Proof.Machine.execTcxoFail s
  | .tcxoRecovered => Sys2Proof.Machine.execTcxoRecovered s
  | .xo32kFail => Sys2Proof.Machine.execXo32kFail s
  | .loopLock l => Sys2Proof.Machine.execLoopLock l s
  | .loopLockLost l => Sys2Proof.Machine.execLoopLockLost l s
  | .coastDriftCheck l drift => Sys2Proof.Machine.execCoastDriftCheck l drift s
  | .coastTimeout l => Sys2Proof.Machine.execCoastTimeout l s
  | .loopRelock l phiPs => Sys2Proof.Machine.execLoopRelock l phiPs s
  | .loopSlewEnd l => Sys2Proof.Machine.execLoopSlewEnd l s
  | .pwrModeRun => Sys2Proof.Machine.execPwrModeRun s
  | .pwrModeSketch => Sys2Proof.Machine.execPwrModeSketch s
  | .pwrModeDeepSleep => Sys2Proof.Machine.execPwrModeDeepSleep s
  | .sketchWake entry firstSampleAt => Sys2Proof.Machine.execSketchWake entry firstSampleAt s
  | .glimpseEnd entry => Sys2Proof.Machine.execGlimpseEnd entry s
  | .ctlOnlyWake => Sys2Proof.Machine.execCtlOnlyWake s
  | .hostHoldExpire => Sys2Proof.Machine.execHostHoldExpire s
  | .wakePinRise => Sys2Proof.Machine.execWakePinRise s
  | .deepWakeTimer => Sys2Proof.Machine.execDeepWakeTimer s
  | .hostAddressMatchSleep => Sys2Proof.Machine.execHostAddressMatchSleep s
  | .hostAddressMatchDeep => Sys2Proof.Machine.execHostAddressMatchDeep s
  | .fePathEnWrite fe value => Sys2Proof.Machine.execFePathEnWrite fe value s
  | .feAgcModeWrite fe value => Sys2Proof.Machine.execFeAgcModeWrite fe value s
  | .feAttnManWrite fe value => Sys2Proof.Machine.execFeAttnManWrite fe value s
  | .agcReleaseStep fe => Sys2Proof.Machine.execAgcReleaseStep fe s
  | .overloadDeclared fe clipped => Sys2Proof.Machine.execOverloadDeclared fe clipped s
  | .ovlReturnStep fe => Sys2Proof.Machine.execOvlReturnStep fe s
  | .feInjStart fe => Sys2Proof.Machine.execFeInjStart fe s
  | .feInjStop fe level => Sys2Proof.Machine.execFeInjStop fe level s
  | .injectionEnd fe level => Sys2Proof.Machine.execInjectionEnd fe level s
  | .divEstimateBlock lane pa pb cRe cIm noise => Sys2Proof.Machine.execDivEstimateBlock lane pa pb cRe cIm noise s
  | .divOvlReturn fe => Sys2Proof.Machine.execDivOvlReturn fe s
  | .sparePassDone adc offset gain skew => Sys2Proof.Machine.execSparePassDone adc offset gain skew s
  | .handoverDue adc => Sys2Proof.Machine.execHandoverDue adc s
  | .handoverCompareDone adc rmsMilliLsb => Sys2Proof.Machine.execHandoverCompareDone adc rmsMilliLsb s
  | .winCentreWrite win value => Sys2Proof.Machine.execWinCentreWrite win value s
  | .winSrcWrite win value => Sys2Proof.Machine.execWinSrcWrite win value s
  | .winExportWrite win value => Sys2Proof.Machine.execWinExportWrite win value s
  | .cnvCommit => Sys2Proof.Machine.execCnvCommit s
  | .winCapArm win => Sys2Proof.Machine.execWinCapArm win s
  | .winCapTriggerNow win => Sys2Proof.Machine.execWinCapTriggerNow win s
  | .winCapStartExport win => Sys2Proof.Machine.execWinCapStartExport win s
  | .winCapRelease win => Sys2Proof.Machine.execWinCapRelease win s
  | .captureTrigger win causes => Sys2Proof.Machine.execCaptureTrigger win causes s
  | .captureRingFull win => Sys2Proof.Machine.execCaptureRingFull win s
  | .capturePostComplete win => Sys2Proof.Machine.execCapturePostComplete win s
  | .captureExportDone win => Sys2Proof.Machine.execCaptureExportDone win s
  | .laneStart lane => Sys2Proof.Machine.execLaneStart lane s
  | .laneNcoWrite lane value => Sys2Proof.Machine.execLaneNcoWrite lane value s
  | .laneBankNextWrite lane value => Sys2Proof.Machine.execLaneBankNextWrite lane value s
  | .bankFadeEnd lane => Sys2Proof.Machine.execBankFadeEnd lane s
  | .pilotLock lane => Sys2Proof.Machine.execPilotLock lane s
  | .pilotUnlock lane => Sys2Proof.Machine.execPilotUnlock lane s
  | .carrierFound lane => Sys2Proof.Machine.execCarrierFound lane s
  | .carrierLost lane => Sys2Proof.Machine.execCarrierLost lane s
  | .amLoopLock lane => Sys2Proof.Machine.execAmLoopLock lane s
  | .amLoopUnlock lane => Sys2Proof.Machine.execAmLoopUnlock lane s
  | .fmsLaneWrite slot value => Sys2Proof.Machine.execFmsLaneWrite slot value s
  | .fmsDestWrite slot value => Sys2Proof.Machine.execFmsDestWrite slot value s
  | .amsLaneWrite slot value => Sys2Proof.Machine.execAmsLaneWrite slot value s
  | .amsDestWrite slot value => Sys2Proof.Machine.execAmsDestWrite slot value s
  | .slotAttach fm slot => Sys2Proof.Machine.execSlotAttach fm slot s
  | .dabNullDetected ens sample => Sys2Proof.Machine.execDabNullDetected ens sample s
  | .dabPhaseReference ens peakOk offsetCarriers cfo firstPath strongest => Sys2Proof.Machine.execDabPhaseReference ens peakOk offsetCarriers cfo firstPath strongest s
  | .dabFicDecoded ens refTime cif block fibs => Sys2Proof.Machine.execDabFicDecoded ens refTime cif block fibs s
  | .dabFrameJudged ens nullFound => Sys2Proof.Machine.execDabFrameJudged ens nullFound s
  | .dabCifDecoded ens cif frames => Sys2Proof.Machine.execDabCifDecoded ens cif frames s
  | .dabReconfiguration ens => Sys2Proof.Machine.execDabReconfiguration ens s
  | .dabSuperframeDecoded job cif refTime fireOk corrected uncorrectable data => Sys2Proof.Machine.execDabSuperframeDecoded job cif refTime fireOk corrected uncorrectable data s
  | .dabTiiMeasurementEnd ens pairs => Sys2Proof.Machine.execDabTiiMeasurementEnd ens pairs s
  | .trellisBlockDone => Sys2Proof.Machine.execTrellisBlockDone s
  | .drmModeIdentified ch mode => Sys2Proof.Machine.execDrmModeIdentified ch mode s
  | .drmTimeReference ch cfo => Sys2Proof.Machine.execDrmTimeReference ch cfo s
  | .drmFrameSearchTimeout ch => Sys2Proof.Machine.execDrmFrameSearchTimeout ch s
  | .drmFacBlock ch refTime crcOk fac => Sys2Proof.Machine.execDrmFacBlock ch refTime crcOk fac s
  | .drmSdcBlock ch refTime crcOk bytes entities => Sys2Proof.Machine.execDrmSdcBlock ch refTime crcOk bytes entities s
  | .drmFrameJudged ch trefFound => Sys2Proof.Machine.execDrmFrameJudged ch trefFound s
  | .drmMscFrame ch refTime corrected streams => Sys2Proof.Machine.execDrmMscFrame ch refTime corrected streams s
  | .drmReconfiguration ch => Sys2Proof.Machine.execDrmReconfiguration ch s
  | .rdsBlockReceived lane blk => Sys2Proof.Machine.execRdsBlockReceived lane blk s
  | .rdsGroup lane refTime a b c_ d => Sys2Proof.Machine.execRdsGroup lane refTime a b c_ d s
  | .galleryAgeing => Sys2Proof.Machine.execGalleryAgeing s
  | .galCtrlPin entry => Sys2Proof.Machine.execGalCtrlPin entry s
  | .galCtrlUnpin entry => Sys2Proof.Machine.execGalCtrlUnpin entry s
  | .galCtrlDelete entry => Sys2Proof.Machine.execGalCtrlDelete entry s
  | .timeSourceTimeout => Sys2Proof.Machine.execTimeSourceTimeout s
  | .alarmInstanceStart => Sys2Proof.Machine.execAlarmInstanceStart s
  | .alarmInstanceEnd => Sys2Proof.Machine.execAlarmInstanceEnd s
  | .alarmSignalTimeout inst => Sys2Proof.Machine.execAlarmSignalTimeout inst s
  | .alarmLostHoldExpire inst => Sys2Proof.Machine.execAlarmLostHoldExpire inst s
  | .alertRelease => Sys2Proof.Machine.execAlertRelease s
  | .memberVisitEnd inst lane score => Sys2Proof.Machine.execMemberVisitEnd inst lane score s
  | .memberParkEnd inst lane => Sys2Proof.Machine.execMemberParkEnd inst lane s
  | .verificationExpire inst member => Sys2Proof.Machine.execVerificationExpire inst member s
  | .estimateComplete inst member lag rho psr usable tx => Sys2Proof.Machine.execEstimateComplete inst member lag rho psr usable tx s
  | .reestimateDue inst member => Sys2Proof.Machine.execReestimateDue inst member s
  | .linkRefCommit inst => Sys2Proof.Machine.execLinkRefCommit inst s
  | .linkSlewEnd inst => Sys2Proof.Machine.execLinkSlewEnd inst s
  | .lnkForceWrite inst value => Sys2Proof.Machine.execLnkForceWrite inst value s
  | .linkFadeStart inst => Sys2Proof.Machine.execLinkFadeStart inst s
  | .linkFadeEnd inst => Sys2Proof.Machine.execLinkFadeEnd inst s
  | .hardSwitchRampIn inst => Sys2Proof.Machine.execHardSwitchRampIn inst s
  | .swatchIntervalEnd job data => Sys2Proof.Machine.execSwatchIntervalEnd job data s
  | .swtLogRdWrite value => Sys2Proof.Machine.execSwtLogRdWrite value s
  | .jobTimedStart job => Sys2Proof.Machine.execJobTimedStart job s
  | .jobDurationEnd job => Sys2Proof.Machine.execJobDurationEnd job s
  | .jobWithdrawEffect job => Sys2Proof.Machine.execJobWithdrawEffect job s
  | .jobRenewal job => Sys2Proof.Machine.execJobRenewal job s
  | .recordSend => Sys2Proof.Machine.execRecordSend s
  | .probeRecordShed => Sys2Proof.Machine.execProbeRecordShed s
  | .strEnWrite value => Sys2Proof.Machine.execStrEnWrite value s
  | .strCrdEdge => Sys2Proof.Machine.execStrCrdEdge s
  | .audCfgWrite value => Sys2Proof.Machine.execAudCfgWrite value s
  | .audioFrameClockAccept ppm => Sys2Proof.Machine.execAudioFrameClockAccept ppm s
  | .audioFrameClockOutOfRange ppm => Sys2Proof.Machine.execAudioFrameClockOutOfRange ppm s
  | .audioFrameClockLoss => Sys2Proof.Machine.execAudioFrameClockLoss s
  | .nvmHeaderRead r => Sys2Proof.Machine.execNvmHeaderRead r s
  | .journalRead a b => Sys2Proof.Machine.execJournalRead a b s
  | .profileReadChecked p first second => Sys2Proof.Machine.execProfileReadChecked p first second s
  | .profileApply => Sys2Proof.Machine.execProfileApply s
  | .jobSectionApply => Sys2Proof.Machine.execJobSectionApply s
  | .bootDone => Sys2Proof.Machine.execBootDone s
  | .nvmArbitrationLost => Sys2Proof.Machine.execNvmArbitrationLost s
  | .nvmBusBusyTimeout => Sys2Proof.Machine.execNvmBusBusyTimeout s
  | .nvmNoAckRetry waitedUs => Sys2Proof.Machine.execNvmNoAckRetry waitedUs s
  | .nvmBusClear pulses released => Sys2Proof.Machine.execNvmBusClear pulses released s
  | .journalWriteDue => Sys2Proof.Machine.execJournalWriteDue s
  | .journalReadback ok => Sys2Proof.Machine.execJournalReadback ok s
  | .bootJrnlCtrlWrite value => Sys2Proof.Machine.execBootJrnlCtrlWrite value s
  | .profileSwitch => Sys2Proof.Machine.execProfileSwitch s
  | .scanVisitEnd lane => Sys2Proof.Machine.execScanVisitEnd lane s
  | .scanEnd => Sys2Proof.Machine.execScanEnd s
  | .fRescanDue => Sys2Proof.Machine.execFRescanDue s
  | .ladderRunStart fe => Sys2Proof.Machine.execLadderRunStart fe s
  | .calCtrlLadderRun fe => Sys2Proof.Machine.execCalCtrlLadderRun fe s
  | .calCtrlDacRestart => Sys2Proof.Machine.execCalCtrlDacRestart s
  | .temperatureStep temp => Sys2Proof.Machine.execTemperatureStep temp s
  | .ladderComparisonStart fe section_ => Sys2Proof.Machine.execLadderComparisonStart fe section_ s
  | .ladderComparisonDone fe diff => Sys2Proof.Machine.execLadderComparisonDone fe diff s
  | .referenceEstimate sources => Sys2Proof.Machine.execReferenceEstimate sources s
  | .dacSenseMeasure ch code reading => Sys2Proof.Machine.execDacSenseMeasure ch code reading s
  | .commandFrameDiscard cause => Sys2Proof.Machine.execCommandFrameDiscard cause s
  | .commandWriteBusy => Sys2Proof.Machine.execCommandWriteBusy s
  | .replyRead bytes => Sys2Proof.Machine.execReplyRead bytes s
  | .nrdStretchTimeout => Sys2Proof.Machine.execNrdStretchTimeout s
  | .sclTimeout writing => Sys2Proof.Machine.execSclTimeout writing s
  | .sdaStuck => Sys2Proof.Machine.execSdaStuck s
  | .attentionRequest => Sys2Proof.Machine.execAttentionRequest s
  | .attentionWaitTimeout => Sys2Proof.Machine.execAttentionWaitTimeout s
  | .attentionArbitrationLost => Sys2Proof.Machine.execAttentionArbitrationLost s
  | .hello minV maxV => Sys2Proof.Machine.execHello minV maxV s
  | .paramRead addrs => Sys2Proof.Machine.execParamRead addrs s
  | .paramWrite entries => Sys2Proof.Machine.execParamWrite entries s
  | .tableRead table first n => Sys2Proof.Machine.execTableRead table first n s
  | .tableWrite table first words => Sys2Proof.Machine.execTableWrite table first words s
  | .eventRead => Sys2Proof.Machine.execEventRead s
  | .eventClear bits => Sys2Proof.Machine.execEventClear bits s
  | .jobSubmit descriptor => Sys2Proof.Machine.execJobSubmit descriptor s
  | .jobWithdraw job => Sys2Proof.Machine.execJobWithdraw job s
  | .jobStatus job => Sys2Proof.Machine.execJobStatus job s
  | .profile p first second => Sys2Proof.Machine.execProfile p first second s
  | .v1Status => Sys2Proof.Machine.execV1Status s
  | .v1Tune kHz band => Sys2Proof.Machine.execV1Tune kHz band s
  | .v1Rds => Sys2Proof.Machine.execV1Rds s
  | .v1Events => Sys2Proof.Machine.execV1Events s
  | .lnkSetState state maskPass maskWord => Sys2Proof.Machine.execLnkSetState state maskPass maskWord s
  | .lnkStateApply => Sys2Proof.Machine.execLnkStateApply s
  | .lnkSend payload => Sys2Proof.Machine.execLnkSend payload s
  | .lnkCancel id => Sys2Proof.Machine.execLnkCancel id s
  | .lnkPeer idx => Sys2Proof.Machine.execLnkPeer idx s
  | .lnkFreqWrite value => Sys2Proof.Machine.execLnkFreqWrite value s
  | .lnkCfgWrite value => Sys2Proof.Machine.execLnkCfgWrite value s
  | .lnkLevelDetect rssi => Sys2Proof.Machine.execLnkLevelDetect rssi s
  | .lnkPreambleQualified quality afc level aerial => Sys2Proof.Machine.execLnkPreambleQualified quality afc level aerial s
  | .lnkSyncDetected rssi => Sys2Proof.Machine.execLnkSyncDetected rssi s
  | .lnkSyncTimeout => Sys2Proof.Machine.execLnkSyncTimeout s
  | .lnkCaptureRestart level afc aerial corrected n => Sys2Proof.Machine.execLnkCaptureRestart level afc aerial corrected n s
  | .lnkFrameEnd air => Sys2Proof.Machine.execLnkFrameEnd air s
  | .lnkTxDue => Sys2Proof.Machine.execLnkTxDue s
  | .coexGntRise => Sys2Proof.Machine.execCoexGntRise s
  | .coexWaitTimeout => Sys2Proof.Machine.execCoexWaitTimeout s
  | .coexGntFall => Sys2Proof.Machine.execCoexGntFall s
  | .lnkTxEnd => Sys2Proof.Machine.execLnkTxEnd s
  | .lnkTxLate => Sys2Proof.Machine.execLnkTxLate s
  | .lnkAlarmCopyDue => Sys2Proof.Machine.execLnkAlarmCopyDue s
  | .lnkDutyMinute => Sys2Proof.Machine.execLnkDutyMinute s
  | .dacCodeWrite ch value => Sys2Proof.Machine.execDacCodeWrite ch value s
  | .dacRangeWrite ch value => Sys2Proof.Machine.execDacRangeWrite ch value s
  | .dacSineStart ch => Sys2Proof.Machine.execDacSineStart ch s
  | .dacSineStop ch => Sys2Proof.Machine.execDacSineStop ch s
  | .dacUpdateEdge => Sys2Proof.Machine.execDacUpdateEdge s
  | .dacClrNFall clrsel => Sys2Proof.Machine.execDacClrNFall clrsel s
  | .dacClrNRise => Sys2Proof.Machine.execDacClrNRise s
  | .varKeyLoad blob => Sys2Proof.Machine.execVarKeyLoad blob s
  | .varKeyErase slots => Sys2Proof.Machine.execVarKeyErase slots s
  | .varStart ctx slot kind => Sys2Proof.Machine.execVarStart ctx slot kind s
  | .varUpdate ctx msg => Sys2Proof.Machine.execVarUpdate ctx msg s
  | .varFinish ctx t tag => Sys2Proof.Machine.execVarFinish ctx t tag s
  | .varCtxSave ctx wrapped => Sys2Proof.Machine.execVarCtxSave ctx wrapped s
  | .varCtxLoad ctx image => Sys2Proof.Machine.execVarCtxLoad ctx image s
  | .varAttach job slot mode t stream => Sys2Proof.Machine.execVarAttach job slot mode t stream s
  | .varDetach job => Sys2Proof.Machine.execVarDetach job s
  | .verifiedMessageVerdict job => Sys2Proof.Machine.execVerifiedMessageVerdict job s
  | .varnishFaultAlarm use job => Sys2Proof.Machine.execVarnishFaultAlarm use job s
  | .sealOpen slot nonce => Sys2Proof.Machine.execSealOpen slot nonce s
  | .sealCmd counter inner payload tag first second => Sys2Proof.Machine.execSealCmd counter inner payload tag first second s
  | .sealClose => Sys2Proof.Machine.execSealClose s
  | .sealStatus => Sys2Proof.Machine.execSealStatus s
  | .evtPendWrite high value => Sys2Proof.Machine.execEvtPendWrite high value s
  | .evtMaskWrite which value => Sys2Proof.Machine.execEvtMaskWrite which value s
  | .eventRecordEmit event => Sys2Proof.Machine.execEventRecordEmit event s
  | .satBitClear addr bits => Sys2Proof.Machine.execSatBitClear addr bits s
  | .commandUnlistedCode code len => Sys2Proof.Machine.execCommandUnlistedCode code len s
  | .attentionRequestCompleted => Sys2Proof.Machine.execAttentionRequestCompleted s
  | .sdaStuckEnd => Sys2Proof.Machine.execSdaStuckEnd s
  | .wakePinFall => Sys2Proof.Machine.execWakePinFall s
  | .stepAlignmentEnd l => Sys2Proof.Machine.execStepAlignmentEnd l s
  | .laneFirstOutputSample lane => Sys2Proof.Machine.execLaneFirstOutputSample lane s
  | .windowFirstOutputSample win => Sys2Proof.Machine.execWindowFirstOutputSample win s
  | .slotRampInComplete fm slot => Sys2Proof.Machine.execSlotRampInComplete fm slot s

end Sys2Proof.Machine
end

