-- ==== Sys2Proof/Machine/Step.lean ====
section
/-! DEFINITION. One step: the command at the front of the queue. -/

namespace Sys2Proof.Machine

/-- Take the command at the front and run it with the queue's rest; with no command waiting, studio time passes. -/
def step (s : State) : Host.Outcome State Fault Refusal := match s.pending with
  | [] => .next (s.onChip Chip.idle)
  | i :: r => exec i { s with pending := r }

/-- `s` with the command that a table word spells at the front of its queue. -/
def State.withFetchWord (s : State) (nbits w : Nat) : State := match decodeTableWord nbits w with
  | some i => { s with pending := i :: s.pending }
  | none => s

end Sys2Proof.Machine
end

