-- ==== Sys2Proof/Safety.lean ====
section
/-! DEFINITION. What statements about the receiver are made in: how a step ends, what it leaves alone, when a block is at work, and what holds of the key slots in every safe run. -/

namespace Sys2Proof.Machine

/-! How a step ends. -/

/-- The command ends with the chip `c`; the key slots and the waiting commands are those before it. -/
def Becomes (i : Instr) (s : State) (c : Chip) : Prop := exec i s = .next { s with chip := c }

/-- The command ends with a chip of which `P` holds; the key slots and the waiting commands are those before it. -/
def Ends (i : Instr) (s : State) (P : Chip → Prop) : Prop := ∃ c, Becomes i s c ∧ P c

/-- As `Becomes`, where the key slots lose their contents if their supply ends with the command (R542). -/
def BecomesPowered (i : Instr) (s : State) (c : Chip) : Prop := exec i s = .next { s with keys := keysLeft s.keys c, chip := c }

/-- As `Ends`, where the key slots lose their contents if their supply ends with the command (R542). -/
def EndsPowered (i : Instr) (s : State) (P : Chip → Prop) : Prop := ∃ c, BecomesPowered i s c ∧ P c

/-- No parameter outside page 0x01 (the events) and outside `ex` has changed. -/
def SameRegs (ex : List Nat) (c d : Chip) : Prop := ∀ a, a / 256 ≠ 1 → a ∉ ex → d.reg a = c.reg a

/-- No parameter has changed outside `ex` and the pages of events, the stream port and the scheduler (0x01, 0x06, 0x07), which every record moves. -/
def SameButRecords (ex : List Nat) (c d : Chip) : Prop := ∀ a, a / 256 ∉ [1, 6, 7] → a ∉ ex → d.reg a = c.reg a

/-! When blocks are at work. -/

/-- The signal path is clocked: CTL is powered and out of reset, and the receiver does not sleep. -/
def Chip.dspOn (c : Chip) : Bool := c.ctlOn && !c.blocksAsleep

/-- No tick boundary waits to be processed. -/
def Chip.upToDate (c : Chip) : Bool := decide (c.time.now < 32000 * c.time.tick)

/-- A parameter that no reset keeps, outside the events and the control outputs. -/
def resetHere (a : Nat) : Bool := !keptAt false a && decide (a / 256 ≠ 0x01) && decide (a / 256 ≠ 0x0E)

/-- The host bus takes a command at once: CTL is awake, boot is done, the bus is not ignored, no command is being carried out, no read stretches
SCL, no value of page 0x05 waits for the next STOP, and the version in force is one of `vs`. -/
def Chip.hostReady (c : Chip) (vs : List Nat) : Bool :=
  c.ctlOn && !c.asleep && !c.bus.stuck && !c.replyPending && c.boot.done && c.bus.stretch.isNone && !c.bus.atStop && vs.contains (c.reg 0x501)

/-- The chip as a command finds it: the host hold restarts and HB_CMD_CNT counts the command (R376, R411). -/
def Chip.taken (c : Chip) : Chip := c.holdHost.count 0x510

/-- The chip holds the complete reply `body`, and the host may read it (HB_STATE 3, R411). -/
def Chip.replied (c : Chip) (body : List Byte) : Prop := c.bus.reply = body ∧ c.bus.complete = true ∧ c.reg 0x508 = 3

/-- The parameters that every host command moves: HB_STATE, HB_CMD_CNT and its SAT parameter. -/
def hostRegs : List Nat := [0x508, 0x510, 0x518]

/-- The reply of an accepted PARAM_WRITE of one entry (Table 14-4). -/
def writeDone : List Byte := [0x00, 0x01, 0xFF, 0xFF]

/-- The command is accepted as a write that waits for the next tick boundary: the bits of `v` that its table gives the field wait for `a`, and every parameter
in force stays as it is. -/
def Waits (i : Instr) (s : State) (a v : Nat) : Prop :=
  Ends i s fun c => c.view a = v &&& maskAt a ∧ c.replied writeDone ∧ SameRegs hostRegs s.chip c

/-- The command is accepted as a write that is in force at once: `a` holds the bits of `v` that its table gives the field, and every other parameter
stays as it is. -/
def Acts (i : Instr) (s : State) (a v : Nat) : Prop :=
  Ends i s fun c => c.reg a = v &&& maskAt a ∧ c.replied writeDone ∧ SameRegs (a :: hostRegs) s.chip c

/-- The command is answered with `body`, and no parameter but those of the bus has changed. -/
def Answers (i : Instr) (s : State) (body : List Byte) : Prop :=
  Ends i s fun c => c.replied body ∧ SameRegs hostRegs s.chip c

/-- The command is refused: the reply carries the reason, and no parameter but those of the bus has changed. -/
abbrev Refuses (i : Instr) (s : State) (body : List Byte) : Prop := Answers i s body

/-- The write is accepted and changes nothing. -/
abbrev Accepts (i : Instr) (s : State) : Prop := Answers i s writeDone

/-- The entries of a PARAM_WRITE applied in order, where every one is accepted. -/
def Chip.writeAll (c : Chip) : List PWrite → Option Chip
  | [] => some c
  | e :: r => match c.writeParam e.addr e.value.toNat with
    | (0, d) => d.writeAll r
    | _ => none

/-- The rows that write one parameter: the address and the value of the PARAM_WRITE that each stands for. -/
def rowWrite : Instr → Option (Nat × Word)
  | .registerWrite a v => some (a, v)
  | .pwrModeRun => some (0x300, 0)
  | .pwrModeSketch => some (0x300, 1)
  | .pwrModeDeepSleep => some (0x300, 2)
  | .fePathEnWrite fe v => if fe < 2 then some (feA fe 0, v) else none
  | .feAgcModeWrite fe v => if fe < 2 then some (feA fe 2, v) else none
  | .feAttnManWrite fe v => if fe < 2 then some (feA fe 4, v) else none
  | .feInjStart fe => if fe < 2 then some (feA fe 0x20, 1) else none
  | .winCentreWrite w v => if w < 12 then some (winA w 0, v) else none
  | .winSrcWrite w v => if w < 12 then some (winA w 1, v) else none
  | .winExportWrite w v => if w < 12 then some (winA w 8, v) else none
  | .cnvCommit => some (0x7B0, 1)
  | .winCapArm w => if w < 12 then some (winA w 0x10, 1) else none
  | .winCapTriggerNow w => if w < 12 then some (winA w 0x10, 2) else none
  | .winCapStartExport w => if w < 12 then some (winA w 0x10, 4) else none
  | .winCapRelease w => if w < 12 then some (winA w 0x10, 8) else none
  | .laneNcoWrite k v => if k < 160 then some (laneA k 1, v) else none
  | .laneBankNextWrite k v => if k < 160 then some (laneA k 4, v) else none
  | .fmsLaneWrite s v => if s < 16 then some (fmsA s 0, v) else none
  | .fmsDestWrite s v => if s < 16 then some (fmsA s 1, v) else none
  | .amsLaneWrite s v => if s < 8 then some (amsA s 0, v) else none
  | .amsDestWrite s v => if s < 8 then some (amsA s 1, v) else none
  | .galCtrlPin e => if e < 16384 then some (0xC05, w32 (e + 0x10000)) else none
  | .galCtrlUnpin e => if e < 16384 then some (0xC05, w32 (e + 0x20000)) else none
  | .galCtrlDelete e => if e < 16384 then some (0xC05, w32 (e + 0x30000)) else none
  | .lnkForceWrite i v => if i < 8 then some (lnkA i 15, v) else none
  | .swtLogRdWrite v => some (0xB09, v)
  | .strEnWrite v => some (0x600, v)
  | .audCfgWrite v => some (0x640, v)
  | .bootJrnlCtrlWrite v => some (0x40B, v)
  | .calCtrlLadderRun fe => if fe < 2 then some (0xA00, w32 (2 ^ fe)) else none
  | .calCtrlDacRestart => some (0xA00, 4)
  | .lnkFreqWrite v => some (0xD02, v)
  | .lnkCfgWrite v => some (0xD01, v)
  | .dacCodeWrite ch v => if ch < 4 then some (dacA ch 0, v) else none
  | .dacRangeWrite ch v => if ch < 4 then some (dacA ch 1, v) else none
  | .dacSineStart ch => if ch < 4 then some (dacA ch 5, 1) else none
  | .dacSineStop ch => if ch < 4 then some (dacA ch 5, 2) else none
  | .evtPendWrite high v => some (if high then 0x101 else 0x100, v)
  | .evtMaskWrite n v => if n < 3 then some (if n < 2 then 0x102 + n else 0x105, v) else none
  | _ => none

/-! The key slots (R540). -/

/-- A key of Table 19-2: 16 bytes for AES-128, 32 for AES-256, and the attribute bits of VAR_KEY_ATTR. -/
def Key.ok (k : Key) : Bool := decide (k.attr / 256 ≤ 1) && decide (k.attr % 256 < 16) && k.bytes.length == 16 + 16 * (k.attr / 256)

/-- The key slots hold keys of Table 19-2 in slots 0 to 7, each once. -/
def KeysOk (t : Tbl Key) : Bool := Tbl.sorted t && t.all fun e => decide (e.1 < 8) && e.2.ok

/-- The key bytes of a blob that unwraps under the root key with its header sealed behind them (R541). -/
def blobKey (b : List Byte) : Option (List Byte) :=
  let n := 16 + 16 * leAt b 1 1
  match keyUnwrap Config.rootKey (b.drop 8) with
  | some d => if d.drop n = b.take 8 then some (d.take n) else none
  | none => none

/-- The rows whose effect may put a key into a slot or take one out while the receiver stays powered: the two key commands, the profile rows that load
blobs, BOOT_DONE (which carries out a command held since reset), and the fault alarm of Varnish. VDD_AO_VALID and the watchdog empty every slot. -/
def movesKeys : Instr → Bool
  | .varKeyLoad _ | .varKeyErase _ | .profileApply | .profileSwitch | .bootDone | .varnishFaultAlarm _ _ | .vddAoValid | .directorWatchdogReset _ => true
  | _ => false

/-- What every step keeps. -/
def State.Safe (s : State) : Prop := KeysOk s.keys = true

end Sys2Proof.Machine
end

