-- ==== Sys2Proof/Certificates/Slice0/Obligations.lean ====
section
/-! DEFINITION. The statements about the receiver. -/

open Sys2Proof Sys2Proof.Machine

/-! The step and the queue. -/

/-- The command at the front of the queue is taken, and its effect is that of the command on the state with the queue's rest. -/
def Obligations.StepRunsFrontCommand : Prop :=
  ∀ (s : State) (i : Instr) (r : List Instr), s.pending = i :: r → step s = exec i { s with pending := r }

/-- With no command waiting only studio time passes, and never past a tick boundary, which has a row of its own (the model's choice, log entry 20). -/
def Obligations.EmptyQueueLetsTimePass : Prop :=
  ∀ s : State, s.pending = [] →
    ∃ n, step s = .next { s with chip := { s.chip with time := { s.chip.time with now := n } } } ∧
      s.chip.time.now ≤ n ∧ n / 32000 = s.chip.time.now / 32000

/-- Every command and event completes, whatever the state, and none touches the queue. -/
def Obligations.EveryCommandCompletes : Prop :=
  ∀ (i : Instr) (s : State), ∃ t, exec i s = .next t ∧ t.pending = s.pending

/-! Reset. -/

/-- After reset every parameter holds its Reset column (the value of the model's table, which names the model's own choice where the spec gives none),
and none has a value that waits; every key slot is empty and no command waits. Values the spec leaves open are the model's choices (log entries 2 and 3).
(R12, R542) -/
def Obligations.ResetValues : Prop :=
  (∀ a, State.reset.chip.reg a = resetAt a % 2 ^ 32) ∧ (∀ a, State.reset.chip.view a = resetAt a % 2 ^ 32) ∧
    State.reset.keys = [] ∧ State.reset.pending = []

/-! The key slots. -/

/-- The key slots are well formed after reset. -/
def Obligations.ResetIsSafe : Prop := State.reset.Safe

/-- From every state whose key slots are well formed, every step leaves them well formed: slots 0 to 7, each at most once, with a key of the length
and the attribute bits of Table 19-2. -/
def Obligations.KeySlotsStayWellFormed : Prop :=
  ∀ s t : State, s.Safe → step s = .next t → t.Safe

/-- Only the rows for which movesKeys is true put a key into a slot or take one out. Under every other command or event, in every state, the slots stay
as they are, or all of them are emptied and the CTL domain is then off. (R540, R541, R542) -/
def Obligations.KeysMoveOnlyByKeyRows : Prop :=
  ∀ (i : Instr) (s t : State), movesKeys i = false → exec i s = .next t →
    t.keys = s.keys ∨ (t.keys = [] ∧ t.chip.ctlOn = false)

/-! Events and counters. -/

/-- Raising event n sets its pending bit, counts it (up to the largest count), toggles CHG where the bit was clear, and touches no parameter outside
page 0x01; a mask does not matter to it (R559). -/
def Obligations.RaisingAnEvent : Prop :=
  ∀ (c : Chip) (n h d : Nat), n < 64 →
    (c.raise n h d).isPending n = true ∧
    (c.reg (0x140 + n) < 0xFFFF → (c.raise n h d).reg (0x140 + n) = c.reg (0x140 + n) + 1) ∧
    (c.reg (0x140 + n) < 0xFFFF → (c.raise n h d).ev.chg = (if c.isPending n then c.ev.chg else !c.ev.chg)) ∧
    SameRegs [] c (c.raise n h d)

/-- ATN is set exactly while an unmasked event or an unmasked group saturation event is pending. -/
def Obligations.AttentionFollowsUnmaskedPending : Prop :=
  ∀ c : Chip, c.atn = true ↔
    (∃ n, n < 64 ∧ c.isPending n = true ∧ c.masked n = false) ∨
    (∃ g, g < 8 ∧ c.isPending (64 + g) = true ∧ c.masked (64 + g) = false)

/-- A counter stops at the largest value of its field: an increment below it adds one and leaves the SAT bits alone; an increment that finds the counter
there leaves the value and sets its SAT bit (R565). -/
def Obligations.CountersSaturate : Prop :=
  ∀ (c : Chip) (a sa b w : Nat), 1 ≤ w → w ≤ 32 → maskAt a = 2 ^ w - 1 → satOf a = some (sa, b) → sa ≠ a → (maskAt sa).testBit b = true → b < 32 →
    a ≠ 0x104 → sa ≠ 0x104 →
    (c.reg a < 2 ^ w - 1 → (c.count a).reg a = c.reg a + 1 ∧ (c.count a).bit sa b = c.bit sa b) ∧
    (2 ^ w - 1 ≤ c.reg a → (c.count a).reg a = 2 ^ w - 1 ∧ (c.count a).bit sa b = true)

/-! Host commands. -/

/-- Between RESET_N and boot done one command is held; while a command is held or being carried out a further one is lost and counted; a command that the
version in force does not permit is refused with NOT_NEGOTIATED (R409, R412, R421). It holds of every row that is a host command. -/
def Obligations.CommandsHeldBusyOrNotNegotiated : Prop :=
  ∀ (i : Instr) (vs : List Nat) (fx : HostFx) (s : State), hostFx i = some (vs, fx) →
    s.chip.ctlOn = true → s.chip.asleep = false → s.chip.bus.stuck = false →
    (s.chip.replyPending = true → Becomes i s (s.chip.count 0x512)) ∧
    (s.chip.replyPending = false → s.chip.boot.done = false →
      Becomes i s { s.chip with bus := { s.chip.bus with held := some i } }) ∧
    (s.chip.replyPending = false → s.chip.boot.done = true → vs.contains (s.chip.reg 0x501) = false →
      Becomes i s (s.chip.taken.setReply [0x07]))

/-- Every row that writes one parameter does what the PARAM_WRITE of that one entry does. -/
def Obligations.WriteRowsAreParamWrites : Prop :=
  ∀ (i : Instr) (a : Nat) (v : Word) (s : State), s.chip.hostReady [2, 3] = true → rowWrite i = some (a, v) →
    exec i s = exec (.paramWrite [{ addr := a, value := v }]) s

/-- PARAM_WRITE applies its entries in order and stops at the first one refused: those before it have taken effect, the reply carries its reason, how many
were applied, and its address. A list of none or of more than 42 entries is refused whole. -/
def Obligations.ParamWriteStopsAtTheRefusedEntry : Prop :=
  ∀ (s : State), s.chip.hostReady [2, 3] = true →
    (∀ (l : List PWrite) (d : Chip), l ≠ [] → l.length ≤ 42 → s.chip.taken.writeAll l = some d →
      EndsPowered (.paramWrite l) s fun c => c = d.answer ([0x00, b8 l.length] ++ [0xFF, 0xFF])) ∧
    (∀ (l r : List PWrite) (e : PWrite) (d d' : Chip) (reason : Nat), (l ++ e :: r).length ≤ 42 → s.chip.taken.writeAll l = some d →
      d.writeParam e.addr e.value.toNat = (reason, d') → reason ≠ 0 →
      EndsPowered (.paramWrite (l ++ e :: r)) s fun c => c = d'.answer ([b8 reason, b8 l.length] ++ le 2 e.addr)) ∧
    (∀ (l : List PWrite), l = [] ∨ 42 < l.length → Refuses (.paramWrite l) s [0x0A])

/-- PARAM_READ returns the fields of its parameters as they stand when the command is carried out, a WO parameter as zero; a reserved offset among its
addresses refuses the whole command, and no data is returned. It changes nothing but the bus. -/
def Obligations.ParamReadIsOneSnapshot : Prop :=
  ∀ (s : State) (l : List Nat), s.chip.hostReady [2, 3] = true → l ≠ [] → l.length ≤ 63 →
    ((∀ a ∈ l, (rowAt a).isSome) → Ends (.paramRead l) s fun c =>
      c.replied (0x00 :: l.flatMap fun a => le 4 ((s.chip.taken.readParam a).getD 0).toNat) ∧ SameRegs hostRegs s.chip c) ∧
    ((∃ a ∈ l, rowAt a = none) → Refuses (.paramRead l) s [0x0A]) ∧
    (∀ a r, rowAt a = some r → r.acc = .wo → s.chip.taken.readParam a = some 0)

/-- HELLO chooses the highest version that the host, HB_VERSION_CAP and the receiver allow: it is in force, HB_VERSION reads it, event 53 is raised and the
reply is Table 14-3. When none qualifies HELLO is refused with NOT_NEGOTIATED and the version stays. -/
def Obligations.HelloChoosesTheHighestVersion : Prop :=
  ∀ (s : State) (lo hi : Nat), s.chip.hostReady [1, 2, 3] = true →
    (∀ v, 1 ≤ v ∧ v ≤ 3 ∧ lo ≤ v ∧ v ≤ hi ∧ v ≤ s.chip.reg 0x502 →
      (∀ u, 1 ≤ u ∧ u ≤ 3 ∧ lo ≤ u ∧ u ≤ hi ∧ u ≤ s.chip.reg 0x502 → u ≤ v) →
      Ends (.hello lo hi) s fun c => c.reg 0x501 = v ∧ c.isPending 53 = true ∧
        c.replied [0x00, b8 v, 0x80, 0x41, Config.siliconStep, Config.romVersion, b8 (s.chip.reg 0x401), 0x00]) ∧
    ((¬ ∃ v, 1 ≤ v ∧ v ≤ 3 ∧ lo ≤ v ∧ v ≤ hi ∧ v ≤ s.chip.reg 0x502) →
      Refuses (.hello lo hi) s [0x07] ∧ Ends (.hello lo hi) s fun c => c.reg 0x501 = s.chip.reg 0x501)

/-- A write to a reserved address, to a read-only parameter, or of a value other than 0 (in the field's bits) to a parameter that only a write of 0
clears is refused with BAD_PARAMETER and changes nothing but the bus; a write of 0 in the field's bits to one that it clears makes it read 0. (R10,
R11, R572, R573) -/
def Obligations.AccessCodesAreEnforced : Prop :=
  ∀ (s : State) (a : Nat) (v : Word), s.chip.hostReady [2, 3] = true →
    ((rowAt a = none ∨ ∃ r, rowAt a = some r ∧ (r.acc = .ro ∨ (r.acc = .rs ∧ (r.clr = false ∨ v.toNat &&& r.mask ≠ 0)))) →
      Refuses (.registerWrite a v) s ([0x0A, 0x00] ++ le 2 a)) ∧
    (∀ r, rowAt a = some r → r.acc = .rs → r.clr = true → v.toNat &&& r.mask = 0 → Acts (.registerWrite a v) s a 0)

/-- Writes that wait for the next tick boundary: the value in force stays and the new one is staged. Each is stated under the conditions its own table
gives, and some of the refusals beside them: the clocks' plain parameters, PWR_MODE, the front ends' path, gain mode and manual attenuation, a
window's centre and source, STR_EN, AUD_CFG, BOOT_JRNL_CTRL, SWT_LOG_RD, the pin, unpin and delete operations of GAL_CTRL, CAL_CTRL, the Studio
link's channel and configuration, and a slot's lane. (R11, R32, R41, R47, R80, R320, R396, R482, R514) -/
def Obligations.WaitingWrites : Prop :=
  (∀ (s : State) (v : Word), s.chip.hostReady [2, 3] = true →
    (∀ a r, rowAt a = some r → r.acc = .rw → a / 256 = 0x02 → clkBad (a % 256) (v.toNat &&& r.mask) = false → Waits (.registerWrite a v) s a v.toNat) ∧
    Waits .pwrModeRun s 0x300 0 ∧ Waits .pwrModeDeepSleep s 0x300 2 ∧
    (s.chip.sketchBad = false → Waits .pwrModeSketch s 0x300 1) ∧ (s.chip.sketchBad = true → Refuses .pwrModeSketch s ([0x0A, 0x00] ++ le 2 0x300)) ∧
    (∀ fe, fe < 2 → Waits (.fePathEnWrite fe v) s (feA fe 0) v.toNat) ∧
    (∀ fe, fe < 2 → v.toNat % 4 ≠ 3 → Waits (.feAgcModeWrite fe v) s (feA fe 2) v.toNat) ∧
    (∀ fe, fe < 2 → v.toNat % 32 ≠ 31 → Waits (.feAttnManWrite fe v) s (feA fe 4) v.toNat) ∧
    (∀ w, w < 12 → v.toNat ≤ 0x80000000 → Waits (.winCentreWrite w v) s (winA w 0) v.toNat) ∧
    (∀ w, w < 12 → v.toNat % 4 = 2 → Refuses (.winSrcWrite w v) s ([0x0A, 0x00] ++ le 2 (winA w 1))) ∧
    (∀ w, w < 12 → v.toNat % 4 < 2 → s.chip.lanesOn w false = [] → Waits (.winSrcWrite w v) s (winA w 1) v.toNat) ∧
    (∀ w, w < 12 → v.toNat % 4 = 3 → s.chip.lanesOn w false = [] → (s.chip.win w).expJob = none → (s.chip.win w).capJob = none →
      Waits (.winSrcWrite w v) s (winA w 1) v.toNat)) ∧
  (∀ (s : State) (v : Word), s.chip.hostReady [2, 3] = true →
    (v.toNat % 2 = 1 → Waits (.strEnWrite v) s 0x600 v.toNat) ∧
    (v.toNat % 2 = 0 → (s.chip.jobs.any fun e => emits e.2.desc) = false → Waits (.strEnWrite v) s 0x600 v.toNat) ∧
    (v.toNat % 2 = 0 → (s.chip.jobs.any fun e => emits e.2.desc) = true → Refuses (.strEnWrite v) s ([0x0A, 0x00] ++ le 2 0x600)) ∧
    Waits (.audCfgWrite v) s 0x640 v.toNat ∧ Waits (.bootJrnlCtrlWrite v) s 0x40B v.toNat ∧
    (s.chip.logRdOk (v.toNat &&& maskAt 0xB09) = true → Waits (.swtLogRdWrite v) s 0xB09 v.toNat) ∧
    (∀ e, e < 16384 → Waits (.galCtrlPin e) s 0xC05 (e + 0x10000) ∧ Waits (.galCtrlUnpin e) s 0xC05 (e + 0x20000) ∧ Waits (.galCtrlDelete e) s 0xC05 (e + 0x30000)) ∧
    (Tbl.find s.chip.staged 0xA00 = none → (∀ fe, fe < 2 → Waits (.calCtrlLadderRun fe) s 0xA00 (2 ^ fe)) ∧ Waits .calCtrlDacRestart s 0xA00 4) ∧
    (channelOk (s.chip.view 0xD01) v.toNat = true → Waits (.lnkFreqWrite v) s 0xD02 v.toNat) ∧
    (channelOk (s.chip.view 0xD01) v.toNat = false → Refuses (.lnkFreqWrite v) s ([0x0A, 0x00] ++ le 2 0xD02)) ∧
    (s.chip.reg 0xD00 = 0 → lnkCfgBad (v.toNat &&& maskAt 0xD01) = false → channelOk (v.toNat &&& maskAt 0xD01) (s.chip.view 0xD02) = true →
      preambleOk (v.toNat &&& maskAt 0xD01) (s.chip.view 0xD04) = true → Waits (.lnkCfgWrite v) s 0xD01 v.toNat) ∧
    (s.chip.reg 0xD00 ≠ 0 → Refuses (.lnkCfgWrite v) s ([0x0A, 0x00] ++ le 2 0xD01)) ∧
    (∀ k, k < 16 → s.chip.fmsLaneBad k (v.toNat % 256) = false → Waits (.fmsLaneWrite k v) s (fmsA k 0) v.toNat) ∧
    (∀ k, k < 8 → s.chip.amsLaneBad k (v.toNat % 256) = false → Waits (.amsLaneWrite k v) s (amsA k 0) v.toNat))

/-- Writes in force at once: event masks, a slot's destination, a stopped lane's NCO word, a control output's code (which also asks for the TCXO); on a
running lane the NCO word waits for the tick. A destination in use, an NCO word beyond 0x66580000 and a range the supply does not allow are refused
and change nothing; a range write waits for the tick, or is accepted as it stands where nothing changes. (R11, R109, R110, R523, R525) -/
def Obligations.MaskDestinationAndCodeWritesAct : Prop :=
  ∀ (s : State) (v : Word), s.chip.hostReady [2, 3] = true →
    (∀ n, n < 3 → Acts (.evtMaskWrite n v) s (if n < 2 then 0x102 + n else 0x105) v.toNat) ∧
    (∀ k, k < 16 → s.chip.destBad true k (v.toNat % 16) = false → Acts (.fmsDestWrite k v) s (fmsA k 1) v.toNat) ∧
    (∀ k, k < 16 → s.chip.destBad true k (v.toNat % 16) = true → Refuses (.fmsDestWrite k v) s ([0x0A, 0x00] ++ le 2 (fmsA k 1))) ∧
    (∀ k, k < 8 → s.chip.destBad false k (v.toNat % 16) = false → Acts (.amsDestWrite k v) s (amsA k 1) v.toNat) ∧
    (∀ k, k < 160 → (toSigned 32 v.toNat).natAbs ≤ 0x66580000 → s.chip.laneSecond k = false → s.chip.followLane k = false →
      (((s.chip.lane k).job = none ∨ (s.chip.lane k).started = false) → Acts (.laneNcoWrite k v) s (laneA k 1) v.toNat) ∧
      ((s.chip.lane k).job ≠ none → (s.chip.lane k).started = true → Waits (.laneNcoWrite k v) s (laneA k 1) v.toNat)) ∧
    (∀ k, k < 160 → 0x66580000 < (toSigned 32 v.toNat).natAbs → Refuses (.laneNcoWrite k v) s ([0x0A, 0x00] ++ le 2 (laneA k 1))) ∧
    (∀ ch, ch < 4 → Acts (.dacCodeWrite ch v) s (dacA ch 0) v.toNat ∧
      Ends (.dacCodeWrite ch v) s fun c => (c.dac ch).pend = true ∧ (c.dac ch).hold = false ∧ (s.chip.reg 0x231 ≠ 2 → c.clk.tcxoEn = true)) ∧
    (∀ ch, ch < 4 → v.toNat % 2 = 1 → s.chip.bit 0xE40 3 = false → Refuses (.dacRangeWrite ch v) s ([0x0A, 0x00] ++ le 2 (dacA ch 1))) ∧
    (∀ ch, ch < 4 → (v.toNat % 2 = 1 → s.chip.bit 0xE40 3 = true) → v.toNat % 2 ≠ s.chip.view (dacA ch 1) → s.chip.dacAlarm ch = false →
      (s.chip.dac ch).sine = false → s.chip.dacInjects ch = false → Waits (.dacRangeWrite ch v) s (dacA ch 1) v.toNat) ∧
    (∀ ch, ch < 4 → (v.toNat % 2 = 1 → s.chip.bit 0xE40 3 = true) → v.toNat % 2 = s.chip.view (dacA ch 1) →
      Accepts (.dacRangeWrite ch v) s)

/-- Commands written to a block's control parameter: the capture of a window, the staged map, the sine generator, test injection, a lane's bank, a forced
change of a follow instance, the commit of a link reference. -/
def Obligations.ControlWrites : Prop :=
  ∀ (s : State), s.chip.hostReady [2, 3] = true →
    (∀ w, w < 12 → s.chip.reg (winA w 0x13) = 0 → s.chip.reg (winA w 0x12) * 1024 < s.chip.capSamples w →
      Ends (.winCapArm w) s fun c => c.reg (winA w 0x13) = 1 ∧ (c.win w).capSince = s.chip.time.now ∧ c.replied writeDone ∧ SameRegs (winA w 0x13 :: hostRegs) s.chip c) ∧
    (∀ w, w < 12 → s.chip.reg (winA w 0x13) = 0 → s.chip.capSamples w ≤ s.chip.reg (winA w 0x12) * 1024 →
      Refuses (.winCapArm w) s ([0x0A, 0x00] ++ le 2 (winA w 0x10))) ∧
    (∀ w, w < 12 → s.chip.winSamples w = true → s.chip.reg (winA w 0x13) = 1 ∨ s.chip.reg (winA w 0x13) = 2 →
      Ends (.winCapTriggerNow w) s fun c => c.reg (winA w 0x13) = 3 ∧ c.reg (winA w 0x14) = s.chip.time.now % 2 ^ 32 ∧ c.reg (winA w 0x16) = s.chip.capCauses w 0 s.chip.time.now ∧
        c.replied writeDone ∧ SameRegs ([winA w 0x13, winA w 0x14, winA w 0x15, winA w 0x16] ++ hostRegs) s.chip c) ∧
    (∀ w, w < 12 → s.chip.reg (winA w 0x13) = 4 →
      Ends (.winCapRelease w) s fun c => c.reg (winA w 0x13) = 0 ∧ c.replied writeDone ∧ SameRegs (winA w 0x13 :: hostRegs) s.chip c) ∧
    (∀ w, w < 12 → s.chip.reg (winA w 0x13) ≠ 4 → Refuses (.winCapStartExport w) s ([0x0A, 0x00] ++ le 2 (winA w 0x10))) ∧
    (mapOk s.chip.stagedMap = true → Ends .cnvCommit s fun c => c.reg 0x7B1 = 1 ∧ c.canvas.pending.isSome = true ∧ c.replied writeDone) ∧
    (mapOk s.chip.stagedMap = false → Ends .cnvCommit s fun c => c.reg 0x7B1 = 2 ∧ c.canvas = s.chip.canvas ∧ c.replied ([0x0A, 0x00] ++ le 2 0x7B0)) ∧
    (∀ ch, ch < 4 → s.chip.dacAlarm ch = false → Ends (.dacSineStart ch) s fun c => (c.dac ch).sineReq = some true ∧ c.replied writeDone) ∧
    (∀ ch, ch < 4 → s.chip.dacAlarm ch = true → Refuses (.dacSineStart ch) s ([0x0A, 0x00] ++ le 2 (dacA ch 5))) ∧
    (∀ ch, ch < 4 → Ends (.dacSineStop ch) s fun c => (c.dac ch).sineReq = some false ∧ c.replied writeDone) ∧
    (∀ fe, fe < 2 → s.chip.injBad fe = false → Waits (.feInjStart fe) s (feA fe 0x20) 1) ∧
    (∀ fe, fe < 2 → s.chip.injBad fe = true → Ends (.feInjStart fe) s fun c => c.reg (feA fe 0x23) = 4 ∧ c.replied ([0x0A, 0x00] ++ le 2 (feA fe 0x20))) ∧
    (∀ fe l, fe < 2 → s.chip.injecting fe = true → Ends (.feInjStop fe l) s fun c =>
      (c.fe fe).injLevel = some l ∧ Tbl.find c.staged (feA fe 0x20) = none ∧ c.replied writeDone ∧ SameRegs hostRegs s.chip c) ∧
    (∀ k (v : Word), k < 160 → s.chip.bankBad k v.toNat = true → Refuses (.laneBankNextWrite k v) s ([0x0A, 0x00] ++ le 2 (laneA k 4))) ∧
    (∀ k (v : Word), k < 160 → s.chip.bankBad k v.toNat = false → s.chip.laneRuns k = false →
      Ends (.laneBankNextWrite k v) s fun c => c.laneBank k = v.toNat % 64 ∧ c.replied writeDone ∧ SameRegs (laneA k 3 :: hostRegs) s.chip c) ∧
    (∀ i (v : Word) m, i < 8 → s.chip.member i (forceKey (v.toNat &&& maskAt (lnkA i 15))) = some m → m.verified = true → (s.chip.follow i).change = none →
      Ends (.lnkForceWrite i v) s fun c => (c.follow i).force = some (forceKey (v.toNat &&& maskAt (lnkA i 15))) ∧ c.replied writeDone ∧ SameRegs hostRegs s.chip c) ∧
    (∀ i, i < 8 → s.chip.refStatus i = 1 → Refuses (.linkRefCommit i) s [0x0A]) ∧
    (∀ i, i < 8 → s.chip.refStatus i ≠ 1 → Ends (.linkRefCommit i) s fun c =>
      (c.refStatus i = 1 ∨ c.refStatus i = 3) ∧ c.replied [0x00] ∧ SameRegs hostRegs s.chip c)

/-- A write of 1s to EVT_PEND_L or EVT_PEND_H clears those pending bits and leaves the counts and every parameter outside the event page and the host
bus as they are; a write of 1 to a SAT bit clears it and sets its counter to zero (pages 0x20 to 0x27 above offset 0x7F excepted); EVENT_CLEAR
clears the pending bits it names and no count; EVENT_READ returns the four event words. (R11, R432, R561, R565) -/
def Obligations.ClearingEventsAndSatBits : Prop :=
  ∀ (s : State), s.chip.hostReady [2, 3] = true →
    (∀ (high : Bool) (v : Word), Ends (.evtPendWrite high v) s fun c =>
      c.reg (if high then 0x101 else 0x100) = s.chip.taken.reg (if high then 0x101 else 0x100) &&& (0xFFFFFFFF - v.toNat) ∧
        (∀ n, n < 64 → c.reg (0x140 + n) = s.chip.taken.reg (0x140 + n)) ∧ c.replied writeDone ∧ SameRegs hostRegs s.chip c) ∧
    (∀ (x a b : Nat) (v : Word), satOf x = some (a, b) → (x / 256 < 0x20 ∨ 0x27 < x / 256 ∨ x % 256 < 0x80) → v.getLsbD b = true → Ends (.satBitClear a v) s fun c =>
      c.reg x = 0 ∧ c.bit a b = false ∧ c.replied writeDone) ∧
    (∀ v : BitVec 64, Ends (.eventClear v) s fun c =>
      (∀ n, n < 64 → c.isPending n = (s.chip.taken.isPending n && !v.getLsbD n)) ∧ (∀ n, n < 64 → c.reg (0x140 + n) = s.chip.taken.reg (0x140 + n)) ∧
        c.replied [0x00] ∧ SameRegs hostRegs s.chip c) ∧
    Ends .eventRead s (fun c => c.replied (0x00 :: [0x100, 0x101, 0x102, 0x103].flatMap fun a => le 4 (s.chip.taken.reg a)) ∧ SameRegs hostRegs s.chip c)

/-! Time, power and clocks. -/

/-- TCXO_SETTLED moves CLK_TCXO_STATE from 1 to 2 and a stopped CPLL to acquiring; TCXO_RECOVERED moves it from 3 to 2; TCXO_FAIL moves it to 3 with
event 12, and takes their lock from the loops that hold it; XO32K_FAIL sets CLK_AO_FAIL with event 13. TICK falls at the end of its pulse. Where
seconds count and the timebase and TICK mode allow a pulse, a second boundary raises TICK for CLK_TICK_WIDTH and ends the leap second, and with the
stream port on it is the boundary of the full-time record; where seconds do not count it changes nothing. A leap second that is due is inserted
once, and a known TIM_TAI_UTC goes up by one. (R354, R355, R356, R31, R370, R371) -/
def Obligations.OscillatorsSecondsAndTicks : Prop :=
  (∀ s : State,
    (s.chip.clk.tcxoEn = true → s.chip.reg 0x231 = 1 → Ends .tcxoSettled s fun c =>
      c.reg 0x231 = 2 ∧ (s.chip.ctlOn = true → s.chip.reg 0x210 = 0 → c.reg 0x210 = 1) ∧ SameRegs [0x231, 0x210] s.chip c) ∧
    (s.chip.ctlOn = true → s.chip.reg 0x231 = 3 → Becomes .tcxoRecovered s (s.chip.put 0x231 2)) ∧
    (s.chip.ctlOn = true → s.chip.bus.v1Wait = none → s.chip.reg 0x231 ≠ 3 → (∀ l, l < 3 → s.chip.reg (loopA l 0) ≠ 2 ∧ s.chip.reg (loopA l 0) ≠ 5) →
      Ends .tcxoFail s fun c => c.reg 0x231 = 3 ∧ c.isPending 12 = true ∧ SameRegs [0x231] s.chip c) ∧
    (s.chip.ctlOn = true → s.chip.bus.v1Wait = none → s.chip.reg 0x231 ≠ 3 →
      Becomes .tcxoFail s (((((s.chip.put 0x231 3).raise 12 (handleBlock 0x0C) 0).loseLock 0).loseLock 1).loseLock 2)) ∧
    (s.chip.ctlOn = true → s.chip.reg 0x23C ≠ 1 → Ends .xo32kFail s fun c => c.reg 0x23C = 1 ∧ c.isPending 13 = true ∧ SameRegs [0x23C] s.chip c)) ∧
  (∀ s : State,
    Becomes .tickPulseEnd s { s.chip with time := { s.chip.time with tickHigh := none } } ∧
    (s.chip.power.deep = false → s.chip.power.resetN = true → s.chip.secondCounts = true → s.chip.reg 0x233 < 2 → s.chip.reg 0x600 ≠ 1 →
      s.chip.tickPulses = true → Ends .secondBoundary s fun c =>
        c.time.tickHigh = some (s.chip.time.now + s.chip.reg 0x237 * 32768) ∧ c.time.leaping = false ∧ SameRegs [0x234, 0x605] s.chip c) ∧
    (s.chip.power.deep = false → s.chip.power.resetN = true → s.chip.secondCounts = true → s.chip.reg 0x233 < 2 → s.chip.reg 0x600 = 1 →
      s.chip.tickPulses = true → Ends .secondBoundary s fun c =>
        c.time.tickHigh = some (s.chip.time.now + s.chip.reg 0x237 * 32768) ∧ c.time.lastSec = some s.chip.time.now ∧ c.time.leaping = false) ∧
    (s.chip.secondCounts = false → Becomes .secondBoundary s s.chip) ∧
    (s.chip.ctlOn = true → s.chip.time.leapDue = true → Ends .leapSecondInsert s fun c =>
      c.time.leaping = true ∧ c.time.leapDue = false ∧ c.reg 0xC23 = (if s.chip.reg 0xC23 = 0 then 0 else (s.chip.reg 0xC23 + 1) &&& maskAt 0xC23) ∧
        SameRegs [0xC23, 0x234, 0x605] s.chip c))

/-- With CTL on: a loop that acquires locks into CLK_STATE 2, and the SPLL resumes the jobs and steps the blocks it feeds; a loop that is locked or
slewing and whose coasting is enabled loses lock into CLK_STATE 3 with its drift and coast time at zero and events 8 and 9; a drift check within
CLK_DRIFT_MAX reports the drift and the time of the coast; a coast that ends stops the loop (the LPLL into state 4 with event 10); the end of a slew
gives state 2; the end of an alignment step ends the alignment. Each leaves every other parameter outside the event page as it is. A V1_TUNE that
waits while the generation of its lane has stepped is answered GENERATION_VOID. (R34, R433, R357, R358,
R359, R361, R362, R363) -/
def Obligations.LoopEvents : Prop :=
  ∀ (s : State) (l : PLoop), s.chip.ctlOn = true →
    (l ≠ .spll → s.chip.reg (loopA (loopNum l) 0) = 1 → Ends (.loopLock l) s fun c =>
      c.reg (loopA (loopNum l) 0) = 2 ∧ SameRegs [loopA (loopNum l) 0, 0x234, 0x605] s.chip c) ∧
    (s.chip.reg 0x200 = 1 → Becomes (.loopLock .spll) s (((s.chip.syncTime.rebase.put 0x200 2).refreshWins 2 true false false).resumeAll)) ∧
    (s.chip.bus.v1Wait = none → s.chip.reg (loopA (loopNum l) 0) = 2 ∨ s.chip.reg (loopA (loopNum l) 0) = 5 → s.chip.reg (loopA (loopNum l) 5) ≠ 0 → Ends (.loopLockLost l) s fun c =>
      c.reg (loopA (loopNum l) 0) = 3 ∧ c.reg (loopA (loopNum l) 7) = 0 ∧ c.reg (loopA (loopNum l) 8) = 0 ∧ c.isPending 8 = true ∧ c.isPending 9 = true ∧
        (c.loop (loopNum l)).since = s.chip.time.now ∧
        SameRegs [loopA (loopNum l) 0, loopA (loopNum l) 7, loopA (loopNum l) 8, loopA (loopNum l) 0x0A, loopA (loopNum l) 0x0C, 0x234, 0x605] s.chip c) ∧
    (∀ drift : Int, s.chip.reg (loopA (loopNum l) 0) = 3 → s.chip.reg 0x23C ≠ 1 → drift.natAbs ≤ 10 * s.chip.reg (loopA (loopNum l) 6) → drift.natAbs ≤ 32767 →
      (s.chip.bus.v1Wait = none → Ends (.coastDriftCheck l drift) s fun c => c.int (loopA (loopNum l) 7) 16 = drift ∧
        c.reg (loopA (loopNum l) 8) = min 0xFFFFFFFF (usBetween (s.chip.loop (loopNum l)).since s.chip.time.now) ∧
        SameRegs [loopA (loopNum l) 7, loopA (loopNum l) 8] s.chip c) ∧
      (∀ w, s.chip.bus.v1Wait = some w → w.sealedBy = none → s.chip.bus.stretch = none → s.chip.reg (laneA (s.chip.reg 0x509) 6) ≠ w.gen →
        Ends (.coastDriftCheck l drift) s fun c => c.bus.v1Wait = none ∧ c.isPending 4 = true ∧ c.replied [0x04])) ∧
    (s.chip.bus.v1Wait = none → s.chip.reg 0x220 = 3 → Ends (.coastTimeout .lpll) s fun c =>
      c.reg 0x220 = 4 ∧ c.isPending 10 = true ∧ c.reg 0x228 = min 0xFFFFFFFF (usBetween (s.chip.loop 2).since s.chip.time.now) ∧
        SameRegs [0x220, 0x228, 0x22B, 0x22C, 0x234, 0x605] s.chip c) ∧
    (s.chip.bus.v1Wait = none → s.chip.reg (loopA (loopNum l) 0) = 3 → Becomes (.coastTimeout l) s (s.chip.stopLoop (loopNum l))) ∧
    (s.chip.reg (loopA (loopNum l) 0) = 5 → Ends (.loopSlewEnd l) s fun c => c.reg (loopA (loopNum l) 0) = 2 ∧
      (c.loop (loopNum l)).coastedAt = some s.chip.time.now ∧ SameRegs [loopA (loopNum l) 0, 0x234, 0x605] s.chip c) ∧
    ((s.chip.loop (loopNum l)).aligning = true → Ends (.stepAlignmentEnd l) s fun c =>
      (c.loop (loopNum l)).aligning = false ∧ (c.loop (loopNum l)).coastedAt = some s.chip.time.now ∧ SameRegs [] s.chip c)

/-- A coasting loop in SLEW mode that locks again moves its phase from CLK_STATE 5 on, with event 10, the phase error in CLK_LAST_STEP and event 11 for
an error beyond the lock window, and studio time unchanged; the SPLL or LPLL in STEP mode is locked and aligns its output. (R360, R361, R362) -/
def Obligations.RelockAfterACoast : Prop :=
  ∀ (s : State) (l : PLoop) (phi : Int), s.chip.ctlOn = true → s.chip.upToDate = true → s.chip.bus.v1Wait = none → s.chip.reg (loopA (loopNum l) 0) = 3 →
    (s.chip.reg (loopA (loopNum l) 3) ≠ 0 → Ends (.loopRelock l phi) s fun c =>
      c.reg (loopA (loopNum l) 0) = 5 ∧ c.reg (loopA (loopNum l) 9) = ofSigned 32 phi ∧ c.isPending 10 = true ∧
        (s.chip.reg (loopA (loopNum l) 1) * 100 < phi.natAbs → c.isPending 11 = true) ∧ c.time.now = s.chip.time.now ∧
        SameRegs [loopA (loopNum l) 0, loopA (loopNum l) 8, loopA (loopNum l) 9, 0x234, 0x605] s.chip c) ∧
    (s.chip.reg (loopA (loopNum l) 3) = 0 → l ≠ .cpll → Ends (.loopRelock l phi) s fun c =>
      c.reg (loopA (loopNum l) 0) = 2 ∧ (c.loop (loopNum l)).aligning = true ∧ c.time.now = s.chip.time.now)

/-- In a Sketch sleep a CTL wake or an address match starts the wake: PWR_STATE 3, TCXO on and settling; awake, both change nothing. The end of the host
hold puts a receiver that may sleep into PWR_STATE 2 with the loops stopped, and changes nothing otherwise. The WAKE pin is followed, with its fall
holding the wake to the end of the tick. An address match or the wake timer ends deep sleep (the timer at the moment that is due, the match with the
address pins sampled). The end of an active glimpse ends it without misses and counts it; a planned glimpse starts when the wake leads it in time,
and is missed with event 30 when it cannot. (R373, R374, R375, R376, R377, R382, R383, R384) -/
def Obligations.SleepAndWakes : Prop :=
  ∀ s : State,
    (s.chip.ctlOn = true → s.chip.asleep = true → s.chip.upToDate = true → ∀ i, (i = .ctlOnlyWake ∨ (i = .hostAddressMatchSleep ∧ s.chip.bus.stuck = false)) →
      Ends i s fun c => c.reg 0x301 = 3 ∧ c.clk.tcxoEn = true ∧ (s.chip.reg 0x231 = 0 → c.reg 0x231 = 1) ∧ SameRegs [0x301, 0x231, 0x210] s.chip c) ∧
    (s.chip.ctlOn = true → s.chip.asleep = false → Becomes .ctlOnlyWake s s.chip ∧ Becomes .hostAddressMatchSleep s s.chip) ∧
    (s.chip.ctlOn = true → s.chip.power.hostHold ≤ s.chip.tick → s.chip.maySleep = true → Ends .hostHoldExpire s fun c =>
      c.reg 0x301 = 2 ∧ c.reg 0x210 = (if s.chip.reg 0x210 = 4 then 4 else 0) ∧ c.reg 0x200 = (if s.chip.reg 0x200 = 4 then 4 else 0) ∧
        c.reg 0x220 = (if s.chip.reg 0x220 = 4 then 4 else 0)) ∧
    (s.chip.tick < s.chip.power.hostHold ∨ s.chip.maySleep = false → Becomes .hostHoldExpire s s.chip) ∧
    (s.chip.power.wake = false → s.chip.power.deep = false → s.chip.blocksAsleep = false →
      Becomes .wakePinRise s { s.chip with power := { s.chip.power with wake := true, wakeUntil := none } }) ∧
    (s.chip.power.wake = true → Becomes .wakePinFall s { s.chip with power := { s.chip.power with wake := false, wakeUntil := some (s.chip.tick + 1) } }) ∧
    (s.chip.power.deep = true → s.chip.power.addrPins < 4 → Ends .hostAddressMatchDeep s fun c =>
      c.power.deep = false ∧ c.reg 0x500 = 0x58 + s.chip.power.addrPins) ∧
    (∀ t, s.chip.power.deep = true → s.chip.power.deepWakeAt = some t → Ends .deepWakeTimer s fun c =>
      c.power.deep = false ∧ c.time.now = max s.chip.time.now t) ∧
    (∀ n g, s.chip.ctlOn = true → s.chip.asleep = false → (s.chip.glimpseStop n).maySleep = false → Tbl.find s.chip.glimpses n = some g → g.active = true →
      s.chip.reg 0x30C < 0xFFFFFFFF → Ends (.glimpseEnd n) s fun c =>
        Tbl.find c.glimpses n = some { g with active := false, misses := 0 } ∧ c.reg 0x30C = s.chip.reg 0x30C + 1) ∧
    (∀ n g first, s.chip.ctlOn = true → s.chip.reg 0x300 = 1 → s.chip.blocksAsleep = false → Tbl.find s.chip.glimpses n = some g → g.active = false →
      (s.chip.reg 0x231 ≠ 3 → s.chip.reg 0x210 ≠ 4 → s.chip.reg 0x200 ≠ 4 → first ≤ g.nextG → Ends (.sketchWake n first) s fun c =>
        Tbl.find c.glimpses n = some { g with active := true, blocks := 0, failed := false }) ∧
      (g.nextG < first → Ends (.sketchWake n first) s fun c =>
        Tbl.find c.glimpses n = some { g with active := false, misses := min 0xFFFF (g.misses + 1) } ∧ c.isPending 30 = true))

/-- A valid VDD_AO clears everything but the level of RESET_N; the start of the boot (or the always-on start-up timeout, which declares XO32K failed)
reports the cause of the reset, raises event 3 and turns the TCXO on; RESET_N low for 1 µs or longer resets (parameters to their Reset columns, jobs
and keys gone), up to 200 ns it changes nothing; its release samples the address and profile pins. A rail below its warning level sets its
SYS_SUPPLY bit, counts and raises event 6; below its valid level the core and always-on rails turn CTL off and empty the keys, a converter rail is
marked and timed, the I/O and PA rails are marked; a recovered rail clears its bit. VDD_IO and VDD_DAC becoming valid set their class and the
control outputs' clear code; VDD_DAC lost is marked. A watchdog reset boots again with event 3, parameters at their Reset columns and no keys. (R28,
R459, R460, R461, R579, R580, R581, R528) -/
def Obligations.SupplyAndResetEvents : Prop :=
  ∀ s : State,
    (∃ t, exec .vddAoValid s = .next t ∧ t.keys = [] ∧ t.pending = s.pending ∧ (∀ a, t.chip.reg a = resetAt a % 2 ^ 32) ∧
      t.chip.power.invalid.testBit 3 = false ∧ t.chip.power.resetN = s.chip.power.resetN ∧ t.chip.power.cause = some 0) ∧
    (s.chip.power.invalid.testBit 3 = false → s.chip.power.aoReady = false → ∀ n, s.chip.power.cause = some n → n < 16 → s.chip.ctlOn = true → s.chip.boot.phase = 0 →
      ∀ i, (i = .powerUpBootStart ∨ (i = .aoStartupTimeout ∧ s.chip.reg 0x23C ≠ 1)) → Ends i s fun c =>
        c.power.aoReady = true ∧ c.boot.phase = 1 ∧ c.reg 0x400 = n &&& maskAt 0x400 ∧ c.isPending 3 = true ∧ c.reg 0x231 = 1 ∧ c.clk.tcxoEn = true ∧
          (i = .aoStartupTimeout → c.reg 0x23C = 1 ∧ c.isPending 13 = true) ∧ SameRegs [0x400, 0x231, 0x23C] s.chip c) ∧
    (∀ ns, 1000 ≤ ns → s.chip.power.invalid.testBit 3 = false → ∃ t, exec (.resetNAssert ns) s = .next t ∧ t.keys = [] ∧ t.pending = s.pending ∧
      t.chip.power.resetN = false ∧ t.chip.boot.done = false ∧ t.chip.jobs = [] ∧ ∀ a, resetHere a = true → t.chip.reg a = resetAt a % 2 ^ 32) ∧
    (∀ ns, ns ≤ 200 → s.chip.ctlOn = true → Becomes (.resetNAssert ns) s s.chip) ∧
    (∀ a p, a < 4 → p < 4 → s.chip.power.resetN = false → Ends (.resetNRelease a p) s fun c =>
      c.power.resetN = true ∧ c.reg 0x500 = 0x58 + a ∧ c.reg 0x402 = p) ∧
    (∀ a p, s.chip.power.resetN = true → Becomes (.resetNRelease a p) s s.chip) ∧
    (∀ r, s.chip.power.invalid.testBit 3 = false → s.chip.bit 0x001 (railNum r) = false → s.chip.reg 0x002 < 0xFFFFFFFF → Ends (.railBelowWarning r) s fun c =>
      c.bit 0x001 (railNum r) = true ∧ c.isPending 6 = true ∧ c.reg 0x002 = s.chip.reg 0x002 + 1 ∧ SameRegs [0x001, 0x002] s.chip c) ∧
    (∀ r, r = .core ∨ r = .ao → s.chip.power.invalid.testBit (railNum r) = false → s.chip.power.invalid.testBit 3 = false →
      ∃ t, exec (.railBelowValid r) s = .next t ∧ t.keys = [] ∧ t.pending = s.pending ∧ t.chip.ctlOn = false ∧ t.chip.boot.done = false) ∧
    (∀ r, r = .adc ∨ r = .an → s.chip.power.invalid.testBit (railNum r) = false → s.chip.power.invalid.testBit 3 = false → s.chip.convRails = true →
      s.chip.ctlOn = true → EndsPowered (.railBelowValid r) s fun c => c.power.invalid.testBit (railNum r) = true ∧ c.power.convAt = some s.chip.time.now) ∧
    (s.chip.power.invalid.testBit 4 = false → s.chip.ctlOn = true → Becomes (.railBelowValid .io) s (s.chip.setInvalid 4 true)) ∧
    (s.chip.power.invalid.testBit 5 = false → s.chip.ctlOn = true → s.chip.reg 0xD00 = 0 → Becomes (.railBelowValid .pa) s (s.chip.setInvalid 5 true)) ∧
    (∀ r, s.chip.power.invalid.testBit 3 = false → s.chip.power.invalid.testBit (railNum r) = false →
      Becomes (.railRecovered r) s (s.chip.putBit 0x001 (railNum r) false)) ∧
    (∀ mv, Becomes (.vddIoValid mv) s { s.chip with power := { s.chip.power with invalid := setBits s.chip.power.invalid 4 1 0, ioClass := if 2500 ≤ mv then 2 else 1 } }) ∧
    (∀ mv cs, cs < 3 → Ends (.vddDacValid mv cs) s fun c => c.power.invalid.testBit 6 = false ∧ c.reg 0xE41 = (s.chip.reg 0xE41 + 1) % 65536 ∧
      ∀ ch, ch < 4 → c.reg (dacA ch 9) = 1 ∧ c.reg (dacA ch 0x0A) = (if cs = 0 then 0 else if cs = 1 then 0x8000 else 0xFFFF) ∧ c.reg (dacA ch 1) = (if 4500 ≤ mv then 1 else 0)) ∧
    Ends .vddDacLoss s (fun c => c.power.invalid.testBit 6 = true ∧ SameRegs [0xE0A, 0xE1A, 0xE2A, 0xE3A] s.chip c) ∧
    (∀ n, s.chip.ctlOn = true → s.chip.power.aoReady = true → ∃ t, exec (.directorWatchdogReset n) s = .next t ∧ t.keys = [] ∧ t.pending = s.pending ∧
      t.chip.boot.phase = 1 ∧ t.chip.isPending 3 = true ∧ ∀ a, resetHere a = true → a ∉ [0x231, 0x400, 0x402, 0x500] → t.chip.reg a = resetAt a % 2 ^ 32)

/-! Front ends, converters, windows and captures. -/

/-- Gain control in AUTO: a release step of 1 dB with event 18, or the step it owes to a running ladder comparison, and none where its conditions fail.
An overload of at least FE_OVL_COUNT samples attacks by FE_OVL_STEP up to 30 dB, raises its event, opens an episode and holds the branch out of
combining; a smaller one only adds to the clip count; the episode's end returns the attenuation by a step. An injection that is over ends with its
level and event 22. Combining: the weight pair of a block, its phase held where c is below the noise, the other branch in SELECT where its power
exceeds the current one's by DIV_SEL_HYST; and the branch that overload held at zero returns DIV_OVL_HOLD ticks after the last declaration. (R44,
R48, R50, R51, R52, R53, R59, R60, R61, R70) -/
def Obligations.FrontEndGainAndCombining : Prop :=
  (∀ (s : State) (fe : Nat), s.chip.dspOn = true → fe < 2 → s.chip.reg (feA fe 3) ≤ 30 →
    (s.chip.reg (feA fe 2) = 0 → s.chip.reg (feA fe 7) ≤ (s.chip.fe fe).below → (∀ t, (s.chip.fe fe).lastOvl = some t → t + s.chip.reg (feA fe 0x0C) ≤ s.chip.tick) →
      s.chip.reg (feA fe 8) < s.chip.reg (feA fe 3) →
      (s.chip.ladderBusy fe = false → Ends (.agcReleaseStep fe) s fun c =>
        c.reg (feA fe 3) = s.chip.reg (feA fe 3) - 1 ∧ c.isPending 18 = true ∧ (c.fe fe).below = 0 ∧ SameRegs [feA fe 3, feA fe 0x11, feA fe 0x13] s.chip c) ∧
      (s.chip.ladderBusy fe = true → Ends (.agcReleaseStep fe) s fun c => (c.fe fe).owedStep = true ∧ SameRegs [] s.chip c)) ∧
    (s.chip.reg (feA fe 3) ≤ s.chip.reg (feA fe 8) ∨ s.chip.reg (feA fe 2) ≠ 0 ∨ (s.chip.fe fe).below < s.chip.reg (feA fe 7) →
      Becomes (.agcReleaseStep fe) s s.chip) ∧
    (∀ n, s.chip.reg (feA fe 0x0A) ≤ n → Ends (.overloadDeclared fe n) s fun c =>
      c.reg (feA fe 3) = min 30 (s.chip.reg (feA fe 3) + s.chip.reg (feA fe 0x0B)) ∧ c.reg (feA fe 0x0D) = (if s.chip.reg (feA fe 3) = 30 then 2 else 1) ∧
        c.isPending (16 + fe) = true ∧ (c.fe fe).lastOvl = some s.chip.tick ∧ (c.fe fe).divOff = true ∧
        (s.chip.reg (feA fe 2) = 1 → (s.chip.fe fe).base = none → (c.fe fe).base = some (s.chip.reg (feA fe 3))) ∧
        (s.chip.reg (feA fe 2) = 2 → (s.chip.fe fe).base = none → (c.fe fe).base = some (s.chip.reg (feA fe 4))) ∧
        ∀ a, a / 256 ≠ 1 → a < 0x1000 → a ∉ [feA fe 3, feA fe 0x0D, feA fe 0x10, feA fe 0x11, feA fe 0x12, feA fe 0x13, 0xA17 + 16 * fe, 0xA18 + 16 * fe, 0xA19 + 16 * fe, 0xA38, 0xA48] →
          c.reg a = s.chip.reg a) ∧
    (∀ n, n < s.chip.reg (feA fe 0x0A) → s.chip.reg (feA fe 0x12) + n ≤ 0xFFFFFFFF → Ends (.overloadDeclared fe n) s fun c =>
      c.reg (feA fe 0x12) = s.chip.reg (feA fe 0x12) + n ∧ SameRegs [feA fe 0x12] s.chip c) ∧
    (∀ t, (s.chip.fe fe).lastOvl = some t → t + s.chip.reg (feA fe 0x0C) ≤ s.chip.tick →
      ((s.chip.fe fe).base = none → Becomes (.ovlReturnStep fe) s (s.chip.put (feA fe 0x0D) 0)) ∧
      (∀ b, (s.chip.fe fe).base = some b → s.chip.reg (feA fe 3) ≤ b ∨ s.chip.reg (feA fe 2) = 0 → Ends (.ovlReturnStep fe) s fun c =>
        (c.fe fe).base = none ∧ c.reg (feA fe 0x0D) = 0 ∧ SameRegs [feA fe 0x0D] s.chip c) ∧
      (∀ b, (s.chip.fe fe).base = some b → b < s.chip.reg (feA fe 3) → s.chip.reg (feA fe 2) ≠ 0 → (s.chip.fe fe).lastReturn = none → s.chip.ladderBusy fe = false →
        Ends (.ovlReturnStep fe) s fun c => c.reg (feA fe 3) = s.chip.reg (feA fe 3) - 1 ∧ c.reg (feA fe 0x0D) = 0 ∧ c.isPending 18 = true ∧
          (c.fe fe).lastReturn = (if s.chip.reg (feA fe 3) - 1 ≤ b then none else some s.chip.tick) ∧
          SameRegs [feA fe 3, feA fe 0x0D, feA fe 0x11, feA fe 0x13] s.chip c)) ∧
    (∀ (level : Int) t, -32768 ≤ level → level ≤ 32767 → s.chip.injecting fe = true → (s.chip.fe fe).injEnd = some t → t ≤ s.chip.tick →
      Ends (.injectionEnd fe level) s fun c =>
        c.reg (feA fe 0x23) = 2 ∧ c.int (feA fe 0x24) 16 = level ∧ c.isPending 22 = true ∧ (c.fe fe).injAt = some s.chip.time.now ∧
          SameRegs [feA fe 0x23, feA fe 0x24] s.chip c)) ∧
  (∀ (s : State), s.chip.dspOn = true →
    (∀ k pa pb (cRe cIm : Int) noise, k < 160 → s.chip.laneRuns k = true → s.chip.laneCombines k = true → Ends (.divEstimateBlock k pa pb cRe cIm noise) s fun c =>
      (c.lane k).pa = pa ∧ (c.lane k).pb = pb ∧ (c.lane k).cRe = cRe ∧ (c.lane k).cIm = cIm ∧
        (cRe.natAbs * cRe.natAbs + cIm.natAbs * cIm.natAbs < noise * noise → (c.lane k).rotRe = (s.chip.lane k).rotRe ∧ (c.lane k).rotIm = (s.chip.lane k).rotIm) ∧
        (noise * noise ≤ cRe.natAbs * cRe.natAbs + cIm.natAbs * cIm.natAbs → cRe ≠ 0 → (c.lane k).rotRe = cRe ∧ (c.lane k).rotIm = cIm) ∧
        (s.chip.reg 0x8E0 ≠ 1 → (c.lane k).selB = (s.chip.lane k).selB) ∧
        (s.chip.reg 0x8E0 = 1 → (s.chip.lane k).selB = false → (c.lane k).selB = decide (pa ^ 20 * 10 ^ s.chip.reg 0x8E2 < pb ^ 20)) ∧ SameRegs [] s.chip c) ∧
    (∀ fe t, fe < 2 → (s.chip.fe fe).lastOvl = some t →
      (t + s.chip.reg 0x8E3 ≤ s.chip.tick → Ends (.divOvlReturn fe) s fun c => (c.fe fe).divOff = false ∧ SameRegs [] s.chip c) ∧
      (s.chip.tick < t + s.chip.reg 0x8E3 → Becomes (.divOvlReturn fe) s s.chip)))

/-- Two agreeing passes make the spare's corrections (their mean, in CAL_ADC words), a first pass is kept for the second; the spare starts to shadow the
slot that has been active longest, and takes it over where the comparison stays within 1.5 LSB, the slot's old sub-converter becoming the spare; a
comparison beyond that raises event 21 and counts, and the third one in a row takes the sub-converter out of use. (R64, R388, R389, R390, R391) -/
def Obligations.SubConverterRotation : Prop :=
  ∀ (s : State) (a : Nat), s.chip.dspOn = true → a < 2 →
    (∀ (off gain skew o g k : Int), s.chip.reg (feA a 0x40) < 5 → (s.chip.adc a).accepted = false → s.chip.adcRuns a = true → s.chip.calLoops = true →
      s.chip.calGlimpse = false → s.chip.reg 0x600 = 0 → (s.chip.adc a).prevPass = some (o, g, k) →
      (off - o).natAbs ≤ 250 → (gain - g).natAbs ≤ 100 → (skew - k).natAbs ≤ 20 → Ends (.sparePassDone a off gain skew) s fun c =>
        (c.adc a).accepted = true ∧ (c.adc a).prevPass = none ∧ (c.adc a).okSubs.testBit (s.chip.reg (feA a 0x40)) = true ∧
          c.reg (calAdcA a (1 + s.chip.reg (feA a 0x40))) = coefWord ((off + o) / 2) ((gain + g) / 2) ((skew + k) / 2) ∧
          SameRegs [calAdcA a (1 + s.chip.reg (feA a 0x40)), calAdcA a 0, calAdcA a 6, calAdcA a 7, 0xA38, 0xA48] s.chip c) ∧
    (∀ (off gain skew : Int), s.chip.reg (feA a 0x40) ≠ 7 → (s.chip.adc a).accepted = false → s.chip.adcRuns a = true → s.chip.calLoops = true →
      (s.chip.adc a).prevPass = none → Ends (.sparePassDone a off gain skew) s fun c => (c.adc a).prevPass = some (off, gain, skew) ∧ SameRegs [] s.chip c) ∧
    (∀ slot r, (s.chip.adc a).accepted = true → (s.chip.adc a).shadow = none → s.chip.reg (feA a 0x40) ≠ 7 → s.chip.calLoops = true → s.chip.adcRuns a = true →
      s.chip.calGlimpseUsed = false → (s.chip.adc a).lastHand + s.chip.reg 0xA01 ≤ s.chip.tick → (s.chip.adc a).ages = slot :: r → Ends (.handoverDue a) s fun c =>
        (c.adc a).shadow = some slot ∧ SameRegs [] s.chip c) ∧
    (∀ slot rms, (s.chip.adc a).shadow = some slot → slot < 4 → s.chip.reg (feA a 0x40) < 5 → rms ≤ 1500 → Ends (.handoverCompareDone a rms) s fun c =>
      c.reg (feA a 0x40) = s.chip.subOf a slot ∧ c.subOf a slot = s.chip.reg (feA a 0x40) ∧ (∀ t, t < 4 → t ≠ slot → c.subOf a t = s.chip.subOf a t) ∧
        (c.adc a).shadow = none ∧ (c.adc a).accepted = false ∧ (c.adc a).lastHand = s.chip.tick ∧
        SameRegs [feA a 0x40, feA a 0x41, feA a 0x43, feA a 0x45, calAdcA a 0] s.chip c) ∧
    (∀ slot rms, (s.chip.adc a).shadow = some slot → s.chip.reg (feA a 0x40) ≠ 7 → s.chip.reg (feA a 0x42) = 0 → Tbl.get 0 (s.chip.adc a).fails (s.chip.reg (feA a 0x40)) < 2 → 1500 < rms →
      Ends (.handoverCompareDone a rms) s fun c => c.isPending 21 = true ∧ (c.adc a).shadow = none ∧ (c.adc a).accepted = false ∧
        Tbl.get 0 (c.adc a).fails (s.chip.reg (feA a 0x40)) = Tbl.get 0 (s.chip.adc a).fails (s.chip.reg (feA a 0x40)) + 1 ∧
        SameRegs [feA a 0x44, feA a 0x45, calAdcA a 0] s.chip c) ∧
    (∀ slot rms, (s.chip.adc a).shadow = some slot → s.chip.reg (feA a 0x42) = 0 → Tbl.get 0 (s.chip.adc a).fails (s.chip.reg (feA a 0x40)) = 2 → s.chip.reg (feA a 0x40) < 5 →
      1500 < rms → Ends (.handoverCompareDone a rms) s fun c => c.isPending 21 = true ∧ c.bit (feA a 0x42) (s.chip.reg (feA a 0x40)) = true ∧ c.reg (feA a 0x40) = 7)

/-- A ladder run that is due starts; a die temperature is reported, and one that has moved by CAL_TEMP_STEP since a run raises event 5 and starts runs
on both aerial inputs; a comparison starts where section, gap and state allow, keeps its first measurement, and after a second one within
CAL_LADDER_AGREE stages the section's value (their mean, at setting 0) and marks it accepted, while one beyond it raises event 20 and drops both. A
reference estimate with enough agreeing sources gives their median to the rate, which comes into force at the tick; without them it changes nothing.
A sense reading is kept as a pair; the 64th makes the fit, which is refused as not spanning a quarter of the range or accepted. (R393, R394, R395,
R396, R398, R399, R400, R401) -/
def Obligations.Calibration : Prop :=
  ∀ (s : State),
    (∀ fe, fe < 2 → s.chip.dspOn = true → (s.chip.fe fe).runDue = true → Ends (.ladderRunStart fe) s fun c =>
      c.bit (calFeA fe 0) 10 = true ∧ (c.fe fe).runDue = false ∧ (c.fe fe).ladDone = 0 ∧ (c.fe fe).ladSection = none ∧ SameRegs [calFeA fe 0] s.chip c) ∧
    (∀ t : Int, s.chip.ctlOn = true → -32768 ≤ t → t ≤ 32767 →
      ((∃ fe t0, fe < 2 ∧ (s.chip.fe fe).runTemp = some t0 ∧ s.chip.reg 0xA04 ≤ (t - t0).natAbs) → Ends (.temperatureStep t) s fun c =>
        c.int 0xA05 16 = t ∧ c.isPending 5 = true ∧ c.bit (calFeA 0 0) 10 = true ∧ c.bit (calFeA 1 0) 10 = true ∧ SameRegs [0xA05, calFeA 0 0, calFeA 1 0] s.chip c) ∧
      ((∀ fe t0, fe < 2 → (s.chip.fe fe).runTemp = some t0 → (t - t0).natAbs < s.chip.reg 0xA04) → Becomes (.temperatureStep t) s (s.chip.putInt 0xA05 16 t))) ∧
    (∀ fe i, fe < 2 → i < 5 → s.chip.dspOn = true → s.chip.bit (calFeA fe 0) 10 = true → (s.chip.fe fe).ladSection = none → (s.chip.fe fe).ladDone.testBit i = false →
      s.chip.injecting fe = false → s.chip.calLoops = true → (s.chip.fe fe).lastOvl = none → (isolate (s.chip.reg (feA fe 3)) i).isSome = true → s.chip.ladderGap fe = true →
      Ends (.ladderComparisonStart fe i) s fun c => (c.fe fe).ladSection = some i ∧ (c.fe fe).calAt = some s.chip.time.now ∧ SameRegs [] s.chip c) ∧
    (∀ fe i (diff : Int), fe < 2 → s.chip.dspOn = true → (s.chip.fe fe).ladSection = some i → (s.chip.fe fe).ladFirst = none → (s.chip.fe fe).owedStep = false →
      (isolate (s.chip.reg (feA fe 3)) i).isSome = true → Ends (.ladderComparisonDone fe diff) s fun c =>
        (c.fe fe).ladFirst = some (s.chip.reg (feA fe 3) * 8 + i, diff) ∧ (c.fe fe).ladSection = none ∧ SameRegs [] s.chip c) ∧
    (∀ fe i (diff d : Int), fe < 2 → i < 5 → s.chip.dspOn = true → (s.chip.fe fe).ladSection = some i → (s.chip.fe fe).ladFirst = some (s.chip.reg (feA fe 3) * 8 + i, d) →
      (s.chip.fe fe).owedStep = false → s.chip.reg 0x600 = 0 → (diff - d).natAbs ≤ 10 * s.chip.reg 0xA02 → s.chip.reg (feA fe 3) = 0 → 0 ≤ diff + d → diff + d < 131072 →
      Ends (.ladderComparisonDone fe diff) s fun c =>
        Tbl.find (c.fe fe).ladStaged i = some ((diff + d) / 2).toNat ∧ c.bit (calFeA fe 0) i = true ∧ c.reg (calFeA fe 8) = s.chip.tick % 2 ^ 32 ∧ (c.fe fe).ladFirst = none ∧
          SameRegs [calFeA fe 0, calFeA fe 7, calFeA fe 8, 0xA38, 0xA48] s.chip c) ∧
    (∀ fe i (diff d : Int), fe < 2 → s.chip.dspOn = true → (s.chip.fe fe).ladSection = some i → (s.chip.fe fe).ladFirst = some (s.chip.reg (feA fe 3) * 8 + i, d) →
      (s.chip.fe fe).owedStep = false → s.chip.reg 0x600 = 0 → 10 * s.chip.reg 0xA02 < (diff - d).natAbs → (isolate (s.chip.reg (feA fe 3)) i).isSome = true →
      Ends (.ladderComparisonDone fe diff) s fun c => c.isPending 20 = true ∧ (c.fe fe).ladFirst = none ∧ (c.fe fe).ladSection = none ∧ SameRegs [0xA0A, 0xA0B] s.chip c) ∧
    (∀ (m : Int), s.chip.ctlOn = true → median s.chip.rateSources = some m → s.chip.reg 0x600 = 0 →
      (s.chip.reg 0xA06 ≤ (s.chip.rateSources.filter fun x => decide ((x - m).natAbs ≤ 10 * s.chip.reg 0xA07)).length → Ends .referenceEstimate s fun c =>
        c.view 0x235 = ofSigned 32 m ∧ c.reg 0x235 = s.chip.reg 0x235 ∧ c.reg 0xA08 = 1 ∧ c.reg 0xA09 = s.chip.tick % 2 ^ 32 ∧ SameRegs [0xA08, 0xA09] s.chip c) ∧
      ((s.chip.rateSources.filter fun x => decide ((x - m).natAbs ≤ 10 * s.chip.reg 0xA07)).length < s.chip.reg 0xA06 → Becomes .referenceEstimate s s.chip)) ∧
    (∀ ch code (reading : Int), ch < 4 → s.chip.ctlOn = true → s.chip.dacValid = true → s.chip.updateClock = true → (s.chip.dac ch).pairs.length < 63 →
      Ends (.dacSenseMeasure ch code reading) s fun c => (c.dac ch).pairs = (code % 65536, reading) :: (s.chip.dac ch).pairs ∧ SameRegs [] s.chip c) ∧
    (∀ ch code (reading : Int), ch < 4 → s.chip.ctlOn = true → s.chip.dacValid = true → s.chip.updateClock = true → (s.chip.dac ch).pairs.length = 63 →
      Ends (.dacSenseMeasure ch code reading) s fun c => SameRegs [0xA50 + ch, 0xA54] s.chip c ∧
        c.field 0xA54 (2 * ch) 2 = (if spansQuarter ((code % 65536, reading) :: (s.chip.dac ch).pairs) then 2 else 1))

/-- The first output of a restarted window, the full ring, a trigger named in WIN_CAP_SRC (time, cause, state 3), one that finds no armed capture
(counted) and one that is not named (nothing), the end of the post-trigger length, the end of a capture export once its records are out, and the
WIN_EXPORT and WIN_CAP_CTRL writes that start and end export jobs. (R80, R84, R96, R97, R98, R99) -/
def Obligations.CapturesAndExports : Prop :=
  ∀ (s : State) (w : Nat), w < 12 →
    (s.chip.dspOn = true →
      (s.chip.reg (winA w 2) = 1 → (s.chip.win w).dsp.since + 48 ≤ s.chip.time.now → Ends (.windowFirstOutputSample w) s fun c => c.reg (winA w 2) = 2 ∧ (c.win w).settled = true ∧ SameRegs [winA w 2] s.chip c) ∧
      (s.chip.reg (winA w 0x13) = 1 → s.chip.capSamples w ≤ s.chip.capWritten w s.chip.time.now → Becomes (.captureRingFull w) s (s.chip.put (winA w 0x13) 2)) ∧
      (∀ cs, s.chip.capCauses w cs s.chip.time.now &&& s.chip.reg (winA w 0x11) ≠ 0 → s.chip.winSamples w = true →
        s.chip.reg (winA w 0x13) = 1 ∨ s.chip.reg (winA w 0x13) = 2 → Ends (.captureTrigger w cs) s fun c =>
        c.reg (winA w 0x13) = 3 ∧ c.reg (winA w 0x14) = s.chip.time.now % 2 ^ 32 ∧ c.reg (winA w 0x15) = s.chip.time.now / 2 ^ 32 % 2 ^ 32 ∧
          c.reg (winA w 0x16) = s.chip.capCauses w cs s.chip.time.now &&& maskAt (winA w 0x16) ∧ (c.win w).capTrig = s.chip.time.now ∧
          SameRegs [winA w 0x13, winA w 0x14, winA w 0x15, winA w 0x16] s.chip c) ∧
      (∀ cs, s.chip.capCauses w cs s.chip.time.now &&& s.chip.reg (winA w 0x11) = 0 → Becomes (.captureTrigger w cs) s s.chip) ∧
      (∀ cs, s.chip.capCauses w cs s.chip.time.now &&& s.chip.reg (winA w 0x11) ≠ 0 →
        s.chip.reg (winA w 0x13) ∈ [0, 4, 5] ∨ s.chip.reg (winA w 0x13) = 3 ∧ (s.chip.win w).capTrig ≠ s.chip.time.now → Becomes (.captureTrigger w cs) s (s.chip.count (winA w 0x1A))) ∧
      (s.chip.reg (winA w 0x13) = 3 → (s.chip.win w).capTrig + (s.chip.win w).capPost ≤ s.chip.time.now → Ends (.capturePostComplete w) s fun c => c.reg (winA w 0x13) = 4 ∧
        (s.chip.reg (winA w 0x1B) < 0xFFFFFFFF → c.reg (winA w 0x1B) = s.chip.reg (winA w 0x1B) + 1)) ∧
      (∀ j, s.chip.reg (winA w 0x13) = 5 → (s.chip.win w).capJob = some j → (s.chip.win w).dsp.ring.length ≤ (s.chip.win w).capSent → (s.chip.out.queue.any fun q => q.job == some j) = false →
        (∃ x, s.chip.job? j = some x ∧ dKind x.desc = 8 ∧ hWin (dHandle x.desc) = w) →
        Ends (.captureExportDone w) s fun c => c.reg (winA w 0x13) = 4 ∧ (c.win w).capJob = none ∧ c.job? j = none) ∧
      (∀ j, (s.chip.win w).capJob = some j → (s.chip.out.queue.any fun q => q.job == some j) = true → Becomes (.captureExportDone w) s s.chip)) ∧
    (s.chip.hostReady [2, 3] = true →
      (∀ v : Word, v.toNat % 2 = 1 → (s.chip.win w).expJob.isSome = true → Accepts (.winExportWrite w v) s) ∧
      (∀ v : Word, v.toNat % 2 = 0 → (s.chip.win w).expJob = none → Accepts (.winExportWrite w v) s) ∧
      (∀ (v : Word) j x, v.toNat % 2 = 0 → (s.chip.win w).expJob = some j → s.chip.job? j = some x → dKind x.desc = 7 → x.ending = none →
        Ends (.winExportWrite w v) s fun c => c.job? j = some { x with ending := some (s.chip.tick + 1) } ∧ c.replied writeDone ∧ SameRegs hostRegs s.chip c) ∧
      (∀ v : Word, v.toNat % 2 = 1 → (s.chip.win w).expJob = none → (s.chip.taken.admission (mkDesc 7 0 0 (handleWin w) (s.chip.reg 0x703))).reason = 0 →
        ∀ j, s.chip.freeJob = some j → Ends (.winExportWrite w v) s fun c => c.reg (winA w 8) = 1 ∧ (c.win w).expJob = some j ∧
          (∃ x, c.job? j = some x ∧ x.desc = mkDesc 7 0 0 (handleWin w) (s.chip.reg 0x703) ∧ x.state = 1 ∧ x.start = s.chip.tick + 1) ∧ c.replied writeDone) ∧
      (s.chip.reg (winA w 0x13) = 4 → (s.chip.taken.admission (mkDesc 8 1 0 (handleWin w) 0)).reason = 0 → ∀ j, s.chip.freeJob = some j →
        Ends (.winCapStartExport w) s fun c => c.reg (winA w 0x13) = 5 ∧ (c.win w).capJob = some j ∧
          (∃ x, c.job? j = some x ∧ x.desc = mkDesc 8 1 0 (handleWin w) 0 ∧ x.start = s.chip.tick + 1) ∧ c.replied writeDone) ∧
      (∀ j x, s.chip.reg (winA w 0x13) = 5 → (s.chip.win w).capJob = some j → s.chip.job? j = some x → dKind x.desc = 8 → x.ending = none →
        Ends (.winCapRelease w) s fun c => c.reg (winA w 0x13) = 0 ∧ c.job? j = some { x with ending := some (s.chip.tick + 1) } ∧ c.replied writeDone ∧
          SameRegs (winA w 0x13 :: hostRegs) s.chip c))

/-! Lanes, demodulators and slots. -/

/-- A lane starts when its job runs: its generation steps, its state is new, and a DAB or DRM lane takes the lowest free demodulator (R108). The end of a bank
fade makes its bank the active one, and a pending bank starts its own (R127). -/
def Obligations.LaneStartAndFades : Prop :=
  ∀ (s : State) (k : Nat), s.chip.dspOn = true → k < 160 →
    (∀ j x, (s.chip.lane k).job = some j → s.chip.job? j = some x → x.state = 2 → (s.chip.lane k).started = false → (s.chip.lane k).suspended = false →
      s.chip.winRuns (s.chip.laneWin k) = true → s.chip.followOf j = none → s.chip.bankOk (s.chip.laneBank k) = true →
      (Ends (.laneStart k) s fun c => (c.lane k).started = true ∧ (c.lane k).job = some j ∧ (c.lane k).filled = false ∧ (c.lane k).phaseAt = s.chip.tick ∧
        (c.lane k).actB = (s.chip.lane k).actB ∧ c.reg (laneA k 6) = (s.chip.reg (laneA k 6) + 1) % 65536 ∧
        ((s.chip.lane k).option ∈ [1, 2, 3, 4] → SameRegs [laneA k 6] s.chip c)) ∧
      (∀ e, (s.chip.lane k).option = 0x10 → s.chip.ensOf k = none → e < 8 → s.chip.reg (dabA e 0) = 0xFF → (∀ d, d < e → s.chip.reg (dabA d 0) ≠ 0xFF) →
        Ends (.laneStart k) s fun c => c.reg (dabA e 0) = k ∧ c.reg (dabA e 1) = 1 ∧ SameRegs [laneA k 6, dabA e 0, dabA e 1] s.chip c) ∧
      (∀ n, (s.chip.lane k).option ∈ [0x20, 0x21, 0x22] → s.chip.drmOf k = none → n < 16 → s.chip.reg (drmA n 0) = 0xFF → (∀ m, m < n → s.chip.reg (drmA m 0) ≠ 0xFF) →
        Ends (.laneStart k) s fun c => c.reg (drmA n 0) = k ∧ c.reg (drmA n 1) = 1 ∧ SameRegs [laneA k 6, drmA n 0, drmA n 1, drmA n 3] s.chip c)) ∧
    ((s.chip.lane k).job = none → Becomes (.laneStart k) s s.chip) ∧
    ((s.chip.lane k).fading = true → (s.chip.lane k).fadeAt + 2 ^ s.chip.laneFade k * s.chip.lanePeriod k ≤ s.chip.time.now → (s.chip.lane k).pend = none → Ends (.bankFadeEnd k) s fun c =>
      (c.lane k).fading = false ∧ (c.lane k).actB = !(s.chip.lane k).actB ∧ SameRegs [] s.chip c) ∧
    ((s.chip.lane k).fading = true → s.chip.time.now < (s.chip.lane k).fadeAt + 2 ^ s.chip.laneFade k * s.chip.lanePeriod k → Becomes (.bankFadeEnd k) s s.chip) ∧
    (∀ b, (s.chip.lane k).fading = true → (s.chip.lane k).fadeAt + 2 ^ s.chip.laneFade k * s.chip.lanePeriod k ≤ s.chip.time.now → (s.chip.lane k).pend = some b → (s.chip.lane k).pendLink = none → b < 64 →
      b ≠ s.chip.laneBankOf k (!(s.chip.lane k).actB) → Ends (.bankFadeEnd k) s fun c =>
        (c.lane k).fading = true ∧ (c.lane k).pend = none ∧ (c.lane k).actB = !(s.chip.lane k).actB ∧ c.laneBankOf k (s.chip.lane k).actB = b ∧
          SameRegs [laneA k 3] s.chip c)

/-- On a running lane: the pilot is locked after 16 ticks above and lost after 4 ticks below, the carrier is found after 4 good ticks with event 32 and
lost after the lost count with event 33, the AM loop's lock follows its detector, and the first output sample after a start fills the lane; pilot
and carrier events before their counts are full change nothing. (R111, R138, R142, R154) -/
def Obligations.CarrierPilotAndLoopLock : Prop :=
  ∀ (s : State) (k : Nat), s.chip.dspOn = true → k < 160 →
    (s.chip.laneRuns k = true → s.chip.laneIsFm k = true → 16 ≤ (s.chip.lane k).pilotOn → Ends (.pilotLock k) s fun c => (c.lane k).pilot = true ∧ SameRegs [] s.chip c) ∧
    (s.chip.laneRuns k = true → s.chip.laneIsFm k = true → 4 ≤ (s.chip.lane k).pilotOff → Ends (.pilotUnlock k) s fun c =>
      (c.lane k).pilot = false ∧ (c.lane k).pilotTicks = 0 ∧ SameRegs [] s.chip c) ∧
    ((s.chip.lane k).pilotOn < 16 → Becomes (.pilotLock k) s s.chip) ∧ ((s.chip.lane k).pilotOff < 4 → Becomes (.pilotUnlock k) s s.chip) ∧
    (s.chip.laneRuns k = true → s.chip.demodulates k = true → (s.chip.lane k).found = false → 4 ≤ (s.chip.lane k).foundRun → Ends (.carrierFound k) s fun c =>
      (c.lane k).found = true ∧ c.isPending 32 = true ∧ (s.chip.laneIsFm k = true → SameRegs [] s.chip c) ∧
        ∀ a, a / 256 ≠ 1 → a / 256 ≠ 0x0C → c.reg a = s.chip.reg a) ∧
    ((s.chip.lane k).foundRun < 4 → Becomes (.carrierFound k) s s.chip) ∧
    (s.chip.laneRuns k = true → s.chip.demodulates k = true → (s.chip.lane k).found = true → s.chip.reg 0x5182 ≤ (s.chip.lane k).lostRun → Ends (.carrierLost k) s fun c =>
      (c.lane k).found = false ∧ c.isPending 33 = true ∧ ∀ a, a / 256 ≠ 1 → a < 0x1000 ∨ 0x2000 ≤ a → c.reg a = s.chip.reg a) ∧
    (s.chip.laneRuns k = true → s.chip.laneOption k = 0x03 ∨ s.chip.laneOption k = 0x04 →
      (16 ≤ (s.chip.lane k).amGood → Ends (.amLoopLock k) s fun c => (c.lane k).amLock = true ∧ SameRegs [] s.chip c) ∧
        (4 ≤ (s.chip.lane k).amBad → Ends (.amLoopUnlock k) s fun c => (c.lane k).amLock = false ∧ SameRegs [] s.chip c)) ∧
    ((s.chip.lane k).amGood < 16 → Becomes (.amLoopLock k) s s.chip) ∧ ((s.chip.lane k).amBad < 4 → Becomes (.amLoopUnlock k) s s.chip) ∧
    ((s.chip.lane k).started = true → (s.chip.lane k).suspended = false → (s.chip.lane k).filled = false → (s.chip.lane k).dsp.since + s.chip.laneFill k ≤ s.chip.time.now → Ends (.laneFirstOutputSample k) s fun c =>
      (c.lane k).filled = true ∧ SameRegs [] s.chip c)

/-- A slot attaches to the running lane its parameter names, with its quality at its start; it has ramped in once that lane gives output, and neither
happens before nor twice. (R143, R152, R155) -/
def Obligations.SlotsAttachAndRampIn : Prop :=
  ∀ (s : State) (fm : Bool) (i k : Nat), s.chip.dspOn = true → i < (if fm then 16 else 8) → s.chip.slotLaneRuns fm k = true →
    (s.chip.reg (if fm then fmsA i 0 else amsA i 0) = k → k ≠ 0xFF → (s.chip.slot fm i).lane = none → s.chip.time.now % 32000 = 0 → Ends (.slotAttach fm i) s fun c =>
      (c.slot fm i).lane = some k ∧ (c.slot fm i).ramped = false ∧ (c.slot fm i).qSet = false ∧
        (fm = true → c.reg (fmsA i 0x0A) = 150 * 2 ^ 24 ∧ SameRegs [fmsA i 0x0A] s.chip c) ∧ (fm = false → SameRegs [] s.chip c)) ∧
    ((s.chip.slot fm i).lane = some k → (s.chip.lane k).filled = true →
      (s.chip.lane k).dsp.since + s.chip.laneFill k + (if fm then 8192 else 16384) + 32 * 1024 ≤ s.chip.time.now → Ends (.slotRampInComplete fm i) s fun c =>
      (c.slot fm i).ramped = true ∧ (c.slot fm i).lane = some k ∧ SameRegs [] s.chip c) ∧
    ((s.chip.slot fm i).lane = some k → (s.chip.lane k).filled = false ∨
      s.chip.time.now < (s.chip.lane k).dsp.since + s.chip.laneFill k + (if fm then 8192 else 16384) + 32 * 1024 → Becomes (.slotRampInComplete fm i) s s.chip) ∧
    ((s.chip.slot fm i).lane ≠ none → Becomes (.slotAttach fm i) s s.chip)

/-! Digital reception and RDS. -/

/-- DAB acquisition: a null with a partner one frame before it, a phase reference that gives a carrier offset or fails four times, the impulse response of the frames
after it, and the frames judged once their FIC is complete: hold, loss with event 35, the null symbol missed, and the parameters that waited for the frame (R166 to R172,
R200). Without a dip, without the samples or before the FIC is complete nothing happens. -/
def Obligations.DabAcquisition : Prop :=
  ∀ (s : State) (e : Nat), s.chip.dspOn = true → e < 8 → s.chip.ensRuns e = true →
    (∀ p, s.chip.reg (dabA e 1) = 1 → (s.chip.ens e).dsp.nextDip = some p →
      (((s.chip.ens e).dsp.dips.any fun q => near 64 (q + 196608) p) = true → Ends (.dabNullDetected e) s fun c =>
        c.reg (dabA e 1) = 2 ∧ (c.ens e).dsp.start = p ∧ SameRegs [dabA e 1] s.chip c) ∧
      (((s.chip.ens e).dsp.dips.any fun q => near 64 (q + 196608) p) = false → Ends (.dabNullDetected e) s fun c =>
        p ∈ (c.ens e).dsp.dips ∧ SameRegs [] s.chip c)) ∧
    (s.chip.reg (dabA e 1) = 1 → (s.chip.ens e).dsp.nextDip = none → Becomes (.dabNullDetected e) s s.chip) ∧
    ((s.chip.ens e).dsp.sym = 0 → (s.chip.ens e).dsp.has ((s.chip.ens e).dsp.symAt 1) 2552 = true →
      (s.chip.reg (dabA e 1) = 2 → Ends (.dabPhaseReference e) s fun c => match (s.chip.ens e).dsp.phaseOffset (s.chip.reg (dabA e 5)) with
        | some cfo => c.reg (dabA e 1) = 3 ∧ c.int (dabA e 3) 32 = clampInt (-2147483648) 2147483647 cfo ∧ (c.ens e).noGood = 0 ∧ (c.ens e).dsp.sym = 1 ∧
            SameRegs [dabA e 1, dabA e 3, dabA e 0x0E] s.chip c
        | none => SameRegs [dabA e 1] s.chip c ∧ (3 ≤ (s.chip.ens e).phaseFails → c.reg (dabA e 1) = 1 ∧ (c.ens e).phaseFails = 0) ∧
            ((s.chip.ens e).phaseFails < 3 → c.reg (dabA e 1) = 2 ∧ (c.ens e).phaseFails = (s.chip.ens e).phaseFails + 1 ∧
              (c.ens e).dsp.start = (s.chip.ens e).dsp.start + 196608)) ∧
      (3 ≤ s.chip.reg (dabA e 1) → Ends (.dabPhaseReference e) s fun c =>
        (c.ens e).dsp.sym = 1 ∧ (c.ens e).dsp.cirs.head? = some (impulse ((s.chip.ens e).dsp.symbol (s.chip.int (dabA e 3) 32) (s.chip.reg (dabA e 6)) 1)) ∧
          SameRegs [dabA e 0x0E] s.chip c)) ∧
    ((s.chip.ens e).dsp.has ((s.chip.ens e).dsp.symAt 1) 2552 = false → Becomes (.dabPhaseReference e) s s.chip) ∧
    (s.chip.staged = [] → s.chip.ficDone e = true →
      ((s.chip.ens e).good = true → 3 ≤ s.chip.reg (dabA e 1) → Ends (.dabFrameJudged e) s fun c =>
        (c.ens e).held = 0 ∧ (c.ens e).noGood = 0 ∧ (c.ens e).good = false ∧ SameRegs [dabA e 0x12, dabA e 0x14] s.chip c) ∧
      ((s.chip.ens e).good = false → s.chip.reg (dabA e 1) = 3 → (s.chip.ens e).noGood + 1 < s.chip.reg (dabA e 8) → Ends (.dabFrameJudged e) s fun c =>
        (c.ens e).noGood = (s.chip.ens e).noGood + 1 ∧ SameRegs [] s.chip c) ∧
      ((s.chip.ens e).good = false → s.chip.reg (dabA e 1) = 3 → s.chip.reg (dabA e 8) ≤ (s.chip.ens e).noGood + 1 → Ends (.dabFrameJudged e) s fun c =>
        c.reg (dabA e 1) = 1 ∧ SameRegs [dabA e 1] s.chip c) ∧
      ((s.chip.ens e).good = false → 4 ≤ s.chip.reg (dabA e 1) → (s.chip.ens e).held + 1 < s.chip.reg (dabA e 8) → Ends (.dabFrameJudged e) s fun c =>
        c.reg (dabA e 1) = 5 ∧ (c.ens e).held = (s.chip.ens e).held + 1 ∧ SameRegs [dabA e 1, dabA e 0x12, dabA e 0x14] s.chip c) ∧
      ((s.chip.ens e).good = false → 4 ≤ s.chip.reg (dabA e 1) → s.chip.reg (dabA e 8) ≤ (s.chip.ens e).held + 1 → Ends (.dabFrameJudged e) s fun c =>
        c.reg (dabA e 1) = 1 ∧ c.isPending 35 = true ∧ SameRegs [dabA e 1, dabA e 0x12, dabA e 0x14] s.chip c) ∧
      (4 ≤ s.chip.reg (dabA e 1) → s.chip.reg (dabA e 0x12) < 0xFFFFFFFF → Ends (.dabFrameJudged e) s fun c =>
        c.reg (dabA e 0x12) = s.chip.reg (dabA e 0x12) + (if (s.chip.ens e).dsp.nullOk then 0 else 1))) ∧
    (s.chip.ficDone e = false → Becomes (.dabFrameJudged e) s s.chip) ∧
    (∀ w : Word, s.chip.staged = [(dabA e 5, w)] → s.chip.ficDone e = true → 3 ≤ s.chip.reg (dabA e 1) → Ends (.dabFrameJudged e) s fun c =>
      c.staged = [] ∧ c.reg (dabA e 5) = w.toNat &&& maskAt (dabA e 5))

/-- The FIBs of a decoded FIC block, by their CRC: bad ones only count, good ones give sync with event 34 and count; FIG 0/1 gives the next organisation of a
subchannel, which comes into force at a CIF where none was announced, at the announced CIF and at the announced reconfiguration; a superframe whose fire code passes adds
its corrections to the count and clears the failures, and the fourth that fails ends the sync; the pairs of a complete measurement fill DAB_TII, strongest first; and a
block of the Trellis engine that the tick has steps for is counted, a FIC block delivered as the bytes decoded (R171, R178, R179, R183, R184, R186 to R188, R193, R194,
R197). -/
def Obligations.DabDecoding : Prop :=
  ∀ (s : State) (e : Nat), s.chip.dspOn = true → e < 8 → s.chip.ensRuns e = true →
    (∀ (b : FicBlock) (r : List FicBlock), 3 ≤ s.chip.reg (dabA e 1) → (s.chip.ens e).fic = b :: r →
      ((∀ l ∈ groupsOf 32 3 b.bytes, fibOk l = false) → s.chip.reg (dabA e 0x11) + (groupsOf 32 3 b.bytes).length ≤ 0xFFFFFFFF → Ends (.dabFicDecoded e) s fun c =>
        c.reg (dabA e 0x11) = s.chip.reg (dabA e 0x11) + (groupsOf 32 3 b.bytes).length ∧ (c.ens e).fic = r ∧ SameRegs [dabA e 0x11] s.chip c) ∧
      ((∀ l ∈ groupsOf 32 3 b.bytes, fibOk l = true ∧ figsOf l = []) → groupsOf 32 3 b.bytes ≠ [] →
        s.chip.reg (dabA e 0x10) + (groupsOf 32 3 b.bytes).length ≤ 0xFFFFFFFF → Ends (.dabFicDecoded e) s fun c =>
          (s.chip.reg (dabA e 1) = 3 → c.isPending 34 = true) ∧ (s.chip.reg (dabA e 1) ≤ 5 → c.reg (dabA e 1) = 4) ∧ (c.ens e).good = true ∧
            c.reg (dabA e 0x10) = s.chip.reg (dabA e 0x10) + (groupsOf 32 3 b.bytes).length ∧
            (s.chip.streamJob (s.chip.reg (dabA e 0)) 0x11 = none → SameRegs [dabA e 1, dabA e 0x10] s.chip c)) ∧
      (∀ l cn id start size prot rate, groupsOf 32 3 b.bytes = [l] → fibOk l = true → figsOf l = [.subchannel cn id start size prot rate] → Ends (.dabFicDecoded e) s fun c =>
        (cn = (s.chip.ens e).announced → Tbl.find (c.ens e).next id = some { start := start, size := size, prot := prot, rate := rate }) ∧
          (cn ≠ (s.chip.ens e).announced → (c.ens e).next = (s.chip.ens e).next) ∧ (c.ens e).subs = (s.chip.ens e).subs)) ∧
    ((s.chip.ens e).fic = [] → Becomes (.dabFicDecoded e) s s.chip) ∧
    (4 ≤ s.chip.reg (dabA e 1) → s.chip.mscOn (s.chip.reg (dabA e 0)) = [] →
      (∀ cif ref soft r, (s.chip.ens e).dsp.ready = (cif, ref, soft) :: r → cif < 5000 → Ends (.dabCifDecoded e) s fun c =>
        c.reg (dabA e 0x0D) = cif ∧ (c.ens e).dsp.ready = r ∧
          (c.ens e).subs = (if (s.chip.ens e).announced ∧ cif % 250 ≠ (s.chip.ens e).occurs then (s.chip.ens e).subs else (s.chip.ens e).next) ∧
          SameRegs [dabA e 0x0D] s.chip c) ∧
      ((s.chip.ens e).dsp.ready = [] → Becomes (.dabCifDecoded e) s s.chip)) ∧
    (4 ≤ s.chip.reg (dabA e 1) → (s.chip.ens e).announced = true →
      (∀ cif ref soft r, (s.chip.ens e).dsp.ready = (cif, ref, soft) :: r → cif % 250 = (s.chip.ens e).occurs → Ends (.dabReconfiguration e) s fun c =>
        (c.ens e).subs = (s.chip.ens e).next ∧ (c.ens e).announced = false ∧ SameRegs [] s.chip c) ∧
      (∀ cif ref soft r, (s.chip.ens e).dsp.ready = (cif, ref, soft) :: r → cif % 250 ≠ (s.chip.ens e).occurs → Becomes (.dabReconfiguration e) s s.chip)) ∧
    ((s.chip.ens e).announced = false → Becomes (.dabReconfiguration e) s s.chip) ∧
    (∀ j g data corrected bad, hLane (dHandle (s.chip.jobDesc j)) = s.chip.reg (dabA e 0) → s.chip.ensOf (s.chip.reg (dabA e 0)) = some e →
      (s.chip.msc j).decoding = true → (s.chip.msc j).sync = true → s.chip.dabPlus j = true → s.chip.jobEmits j = true → (s.chip.msc j).cfg = some g →
      5 ≤ (s.chip.msc j).sf.length → superDecode (g.rate / 8) (((s.chip.msc j).sf.take 5).map (·.bytes)).flatten = (data, corrected, bad) →
      s.chip.reg (dabA e 0x13) + corrected ≤ 0xFFFFFFFF →
      (fireOk data = true → Ends (.dabSuperframeDecoded j) s fun c =>
        c.reg (dabA e 0x13) = s.chip.reg (dabA e 0x13) + corrected ∧ (c.msc j).fails = 0 ∧ (c.msc j).sync = true ∧ (c.msc j).first = false ∧
          (c.msc j).sf = (s.chip.msc j).sf.drop 5 ∧ (c.msc j).recent = (decide (bad ≠ 0) :: (s.chip.msc j).recent).take 8) ∧
      (fireOk data = false → Ends (.dabSuperframeDecoded j) s fun c =>
        c.reg (dabA e 0x13) = s.chip.reg (dabA e 0x13) + corrected ∧ (c.msc j).sync = decide ((s.chip.msc j).fails < 3) ∧
          (c.msc j).fails = (if (s.chip.msc j).fails < 3 then (s.chip.msc j).fails + 1 else 0))) ∧
    (∀ j, (s.chip.msc j).sf.length < 5 → Becomes (.dabSuperframeDecoded j) s s.chip) ∧
    (∀ powers, 3 ≤ s.chip.reg (dabA e 1) → (s.chip.ens e).dsp.tiiDone = some powers → Ends (.dabTiiMeasurementEnd e) s fun c =>
      (∀ i, i < 8 → c.reg (dabA e (0x20 + i)) = maskAt (dabA e (0x20 + i)) &&&
        (match ((tiiFind (s.chip.reg (dabA e 0x0C)) (s.chip.ens e).dsp.mean (2 ^ s.chip.field (dabA e 0x0B) 4 3) powers).foldl (fun l x => insertTii x l) [])[i]? with
          | some (a, b, lev) => a + 128 * b + 4096 + 65536 * satSigned 16 lev
          | none => 0)) ∧
        (c.ens e).dsp.tiiDone = none ∧
        SameRegs [dabA e 0x20, dabA e 0x21, dabA e 0x22, dabA e 0x23, dabA e 0x24, dabA e 0x25, dabA e 0x26, dabA e 0x27] s.chip c) ∧
    ((s.chip.ens e).dsp.tiiDone = none → Becomes (.dabTiiMeasurementEnd e) s s.chip) ∧
    (∀ b, nextBlock s.chip.trl = some b →
      (s.chip.trlUsed + (b.steps - s.chip.trlPart) ≤ 62500 → s.chip.reg 0x7A2 < 0xFFFFFFFF → Ends .trellisBlockDone s fun c =>
        c.reg 0x7A2 = s.chip.reg 0x7A2 + 1 ∧ c.trlUsed = s.chip.trlUsed + (b.steps - s.chip.trlPart) ∧
          ((∀ i k l, b.client ≠ .drm i k l) → c.trl = s.chip.trl.filter fun x => x.order != b.order) ∧
          (∀ j i ref cif, b.client = .msc j i ref cif → (s.chip.msc j).decoding = true → (c.msc j).out = (s.chip.msc j).out ++
            [{ cif := cif, ref := ref, corrected := trlCorrected b.soft (viterbi b.soft), bytes := bitsBytes (descramble (viterbi b.soft)) }]) ∧
          (∀ i ref block, b.client = .fic i ref block →
            (c.ens i).fic = (s.chip.ens i).fic ++ [{ ref := ref, block := block, bytes := bitsBytes (descramble (viterbi b.soft)) }]) ∧
          SameRegs [0x7A2] s.chip c) ∧
      (62500 < s.chip.trlUsed + (b.steps - s.chip.trlPart) → Becomes .trellisBlockDone s s.chip)) ∧
    (s.chip.trl = [] → Becomes .trellisBlockDone s s.chip)

/-- DRM acquisition and decoding: the mode and the time reference that the samples show, the timeout, FAC and SDC blocks with their CRC, the frames judged after them,
the multiplex frames delivered, and the multiplex that comes into force at a reconfiguration (R205 to R210, R217 to R220). -/
def Obligations.DrmReception : Prop :=
  ∀ (s : State) (n : Nat), s.chip.dspOn = true → n < 16 → s.chip.chRuns n = true →
    (s.chip.reg (drmA n 1) = 1 → Ends (.drmModeIdentified n) s fun c =>
      match (s.chip.drm n).dsp.modeFound (if s.chip.chPlus n then [4] else [0, 1, 2, 3]) with
      | some (m, a) => c.reg (drmA n 1) = 2 ∧ (c.drm n).mode = m ∧ (c.drm n).dsp.from_ = a ∧ SameRegs [drmA n 1] s.chip c
      | none => c = s.chip) ∧
    (s.chip.reg (drmA n 1) = 2 → Ends (.drmTimeReference n) s fun c =>
      match (s.chip.drm n).dsp.timeRef (s.chip.drm n).mode (s.chip.reg (drmA n 6)) with
      | some (a, cfo) =>
        (cfo.natAbs ≤ 2560 * s.chip.reg (drmA n 6) → c.reg (drmA n 1) = 3 ∧ c.int (drmA n 4) 32 = clampInt (-2147483648) 2147483647 (rnd 8 cfo) ∧
          (c.drm n).dsp.start = a ∧ SameRegs [drmA n 1, drmA n 4] s.chip c) ∧
        (2560 * s.chip.reg (drmA n 6) < cfo.natAbs → c = s.chip)
      | none => c = s.chip) ∧
    (s.chip.reg (drmA n 1) = 2 → (s.chip.drm n).dsp.from_ + 57600 ≤ (s.chip.drm n).dsp.last + 1 → Ends (.drmFrameSearchTimeout n) s fun c =>
      c.reg (drmA n 1) = 1 ∧ SameRegs [drmA n 1] s.chip c) ∧
    ((s.chip.drm n).dsp.last + 1 < (s.chip.drm n).dsp.from_ + 57600 → Becomes (.drmFrameSearchTimeout n) s s.chip) ∧
    (∀ ref frame corrected l r, 3 ≤ s.chip.reg (drmA n 1) → (s.chip.drm n).facs = (ref, frame, corrected, l) :: r →
      (facOk l = false → s.chip.reg (drmA n 0x11) < 0xFFFFFFFF → Ends (.drmFacBlock n) s fun c =>
        c.reg (drmA n 0x11) = s.chip.reg (drmA n 0x11) + 1 ∧ (c.drm n).facs = r ∧ SameRegs [drmA n 0x11] s.chip c) ∧
      (facOk l = true → s.chip.reg (drmA n 1) = 3 → s.chip.reg (drmA n 0x10) < 0xFFFFFFFF → Ends (.drmFacBlock n) s fun c =>
        c.reg (drmA n 1) = 4 ∧ c.isPending 36 = true ∧ (c.drm n).good = true ∧ (c.drm n).frames = 0 ∧ c.reg (drmA n 0x10) = s.chip.reg (drmA n 0x10) + 1 ∧
          ((s.chip.drm n).mode ≤ 4 → c.field (drmA n 3) 7 2 = (facParse (s.chip.chPlus n) l).mapping ∧ c.bit (drmA n 3) 6 = (facParse (s.chip.chPlus n) l).long ∧
            c.bit (drmA n 3) 9 = (facParse (s.chip.chPlus n) l).sdc16 ∧ c.bit (drmA n 3) 10 = (facParse (s.chip.chPlus n) l).hierarchical) ∧
          ∀ a, a / 256 ∉ [1, 2, 6, 7, 0x0C] → a ∉ [drmA n 1, drmA n 3, drmA n 0x0C, drmA n 0x10] → c.reg a = s.chip.reg a)) ∧
    ((s.chip.drm n).facs = [] → Becomes (.drmFacBlock n) s s.chip) ∧
    (∀ ref frame corrected l r, 4 ≤ s.chip.reg (drmA n 1) → s.chip.bit (drmA n 3) 11 = false → (s.chip.drm n).sdcs = (ref, frame, corrected, l) :: r →
      (sdcOk l = false → s.chip.reg (drmA n 0x13) < 0xFFFFFFFF → Ends (.drmSdcBlock n) s fun c =>
        c.reg (drmA n 0x13) = s.chip.reg (drmA n 0x13) + 1 ∧ (c.drm n).sdcs = r ∧ SameRegs [drmA n 0x13] s.chip c) ∧
      (sdcOk l = true → sdcParse l = [] → (s.chip.drm n).mux.isSome = true → s.chip.reg (drmA n 0x12) < 0xFFFFFFFF → Ends (.drmSdcBlock n) s fun c =>
        (c.drm n).sdcOk = true ∧ c.reg (drmA n 0x12) = s.chip.reg (drmA n 0x12) + 1 ∧ SameButRecords [drmA n 0x12] s.chip c) ∧
      (∀ prot streams, sdcOk l = true → sdcParse l = [.multiplex prot streams] → Ends (.drmSdcBlock n) s fun c =>
        (c.drm n).sdcOk = true ∧ (c.drm n).next = some (prot, streams) ∧
          ((s.chip.drm n).mux = none → (c.drm n).mux = some (prot % 16 + 16 * s.chip.field (drmA n 3) 7 2, streams)))) ∧
    ((s.chip.drm n).sdcs = [] → Becomes (.drmSdcBlock n) s s.chip) ∧
    (s.chip.staged = [] → s.chip.facDone n = true →
      (s.chip.reg (drmA n 1) = 3 → Ends (.drmFrameJudged n) s fun c => (c.drm n).good = false ∧ (c.drm n).dsp.due = false ∧ SameRegs [] s.chip c) ∧
      (4 ≤ s.chip.reg (drmA n 1) →
        ((s.chip.drm n).good = true → (s.chip.drm n).dsp.trefOk = true ∨ (s.chip.drm n).held ≠ 0 → Ends (.drmFrameJudged n) s fun c =>
          (c.drm n).held = 0 ∧ c.reg (drmA n 1) = s.chip.reg (drmA n 1) ∧ (c.drm n).frames = ((s.chip.drm n).frames + 1) % 65536 ∧
            SameRegs [drmA n 3, drmA n 0x0B, drmA n 0x14, drmA n 0x15] s.chip c) ∧
        (((s.chip.drm n).good = false ∨ ((s.chip.drm n).dsp.trefOk = false ∧ (s.chip.drm n).held = 0)) →
          ((s.chip.drm n).held + 1 < s.chip.reg (drmA n 8) → Ends (.drmFrameJudged n) s fun c =>
            c.reg (drmA n 1) = 5 ∧ (c.drm n).held = (s.chip.drm n).held + 1 ∧ SameRegs [drmA n 1, drmA n 3, drmA n 0x0B, drmA n 0x14, drmA n 0x15] s.chip c) ∧
          (s.chip.reg (drmA n 8) ≤ (s.chip.drm n).held + 1 → Ends (.drmFrameJudged n) s fun c =>
            c.reg (drmA n 1) = 1 ∧ c.isPending 37 = true ∧ SameRegs [drmA n 1, drmA n 0x0B, drmA n 0x14, drmA n 0x15] s.chip c)) ∧
        (s.chip.reg (drmA n 0x14) < 0xFFFFFFFF → Ends (.drmFrameJudged n) s fun c =>
          c.reg (drmA n 0x14) = s.chip.reg (drmA n 0x14) + (if (s.chip.drm n).dsp.trefOk then 0 else 1)))) ∧
    (s.chip.facDone n = false → Becomes (.drmFrameJudged n) s s.chip) ∧
    (∀ j x r, 4 ≤ s.chip.reg (drmA n 1) → s.chip.chJob n = some j → (s.chip.drm n).mscs = x :: r → (s.chip.msc j).decoding = true → s.chip.jobEmits j = true →
      Ends (.drmMscFrame n) s fun c => (c.msc j).first = false ∧ (c.drm n).mscs = r ∧ ((∀ i, s.chip.drmUnit n i = none) → SameRegs [] s.chip c)) ∧
    ((s.chip.drm n).mscs = [] → Becomes (.drmMscFrame n) s s.chip) ∧
    (4 ≤ s.chip.reg (drmA n 1) → (s.chip.drm n).recDue = true → Ends (.drmReconfiguration n) s fun c =>
      (c.drm n).mux = s.chip.nextMux n ∧ (c.drm n).announced = false ∧ (c.drm n).recDue = false ∧ SameRegs [drmA n 3, drmA n 0x0B] s.chip c) ∧
    ((s.chip.drm n).recDue = false → Becomes (.drmReconfiguration n) s s.chip)

/-- Without a glimpse running: out of sync two blocks in a row with consecutive offsets give sync, and without them the bits that cannot begin one are dropped; in sync
the next 26 bits are a block at its place, an uncorrectable one is counted, and sync is lost at RDS_SYNC_LOSS of the last 50. A group whose block B is bad is dropped,
another is counted and kept as the lane's last, and a PI received twice in succession is the lane's PI. (R230, R231, R232) -/
def Obligations.RdsBlocksAndGroups : Prop :=
  ∀ (s : State) (k : Nat), s.chip.dspOn = true → k < 160 → s.chip.rdsRuns k = true →
    (s.chip.glimpses = [] → (s.chip.rds k).sync = false →
      (∀ i, rdsSearch (s.chip.lane k).dsp.rdsBits.bits 0 = some i → Ends (.rdsBlockReceived k) s fun c =>
        (c.rds k).sync = true ∧ (c.rds k).recent = [] ∧ (c.lane k).dsp.rdsBits.bits = (s.chip.lane k).dsp.rdsBits.bits.drop (i + 52) ∧ SameRegs [] s.chip c) ∧
      (rdsSearch (s.chip.lane k).dsp.rdsBits.bits 0 = none → Ends (.rdsBlockReceived k) s fun c =>
        (c.rds k).sync = false ∧
          (c.lane k).dsp.rdsBits.bits = (s.chip.lane k).dsp.rdsBits.bits.drop ((s.chip.lane k).dsp.rdsBits.bits.length - 51) ∧ SameRegs [] s.chip c)) ∧
    (s.chip.glimpses = [] → (s.chip.rds k).sync = true → 26 ≤ (s.chip.lane k).dsp.rdsBits.bits.length →
      rdsBreak (s.chip.rds k).lastBit 0 (((s.chip.lane k).dsp.rdsBits.bits.take 26).map (·.1)) = none → s.chip.reg 0xC13 < 0xFFFFFFFF →
      ∀ b, rdsDecode (s.chip.field 0xC10 0 3) (rdsWord (s.chip.lane k).dsp.rdsBits.bits) ((s.chip.rds k).offsets ((s.chip.rds k).expect % 4)) = b →
        Ends (.rdsBlockReceived k) s fun c =>
          c.reg 0xC13 = s.chip.reg 0xC13 + (if b.ok then 0 else 1) ∧
            (c.rds k).sync = decide (badBlocks ((b.ok :: (s.chip.rds k).recent).take 50) < s.chip.reg 0xC11) ∧
            ((c.rds k).sync = true → (c.rds k).expect = ((s.chip.rds k).expect + 1) % 4 ∧ (c.rds k).recent = (b.ok :: (s.chip.rds k).recent).take 50) ∧
            (c.lane k).dsp.rdsBits.bits = (s.chip.lane k).dsp.rdsBits.bits.drop 26 ∧ SameRegs [0xC13] s.chip c) ∧
    (∀ t g rest, (s.chip.rds k).ready = (t, g) :: rest →
      (g.b.state = 2 → Ends (.rdsGroup k) s fun c => (c.rds k).ready = rest ∧ SameRegs [] s.chip c) ∧
      (g.b.state ≠ 2 → s.chip.reg 0xC12 < 0xFFFFFFFF → Ends (.rdsGroup k) s fun c =>
        c.reg 0xC12 = s.chip.reg 0xC12 + 1 ∧ (c.rds k).last = some (g.body, s.chip.tick) ∧
          (g.a.state = 0 → Tbl.find (s.chip.rds k).seen keyPi = some g.a.bits.toNat → (c.rds k).pi = some g.a.bits.toNat) ∧
          ∀ r, r / 256 ∉ [1, 2, 6, 7, 0x0C] → c.reg r = s.chip.reg r)) ∧
    ((s.chip.rds k).ready = [] → Becomes (.rdsGroup k) s s.chip)

/-- The Gallery ages, a silent time source becomes stale, and broadcast alarms: an instance starts with event 40 and ALERT, ends with event 41 by its own signal, by
timeout or by the loss of its source, and ALERT is released ALM_PIN_MIN after the last start (R244, R253, R256 to R260). -/
def Obligations.GalleryTimeAndAlarms : Prop :=
  ∀ (s : State), s.chip.ctlOn = true →
    Ends .galleryAgeing s (fun c => (∀ e, s.chip.galUsed.count e = 1 → c.galAge e = (if Tbl.get false s.chip.gal.seen e then 0 else min 0xFFFF (s.chip.galAge e + 1))) ∧
      c.gal.seen = [] ∧ SameRegs [] s.chip c) ∧
    (∀ u src t, s.chip.timeUse = some u → Tbl.find s.chip.times u = some src → src.accepted = some t →
      (silence ≤ s.chip.time.now - t → Ends .timeSourceTimeout s fun c => c.timeStale = true ∧ c.timeUse = some u ∧ SameRegs [] s.chip c) ∧
      (s.chip.time.now - t < silence → Becomes .timeSourceTimeout s s.chip)) ∧
    (∀ p, p.start = true → s.chip.almPend = [p] → s.chip.alarms = [] → Ends .alarmInstanceStart s fun c =>
      (∃ a, c.alarms = [(0, a)] ∧ a.kind = p.kind ∧ a.source = p.source ∧ a.identity = p.identity) ∧ c.almPend = [] ∧ c.isPending 40 = true ∧
        c.reg 0xC40 = p.source % 2 ^ 32 ∧ c.field 0xC39 0 6 = 1 ∧ c.bit 0xC39 6 = true ∧ c.alertAt = s.chip.tick) ∧
    ((∀ p, p ∈ s.chip.almPend → p.start = false) → Becomes .alarmInstanceStart s s.chip) ∧
    (∀ p i a, i < 32 → p.start = false → s.chip.almPend = [p] → s.chip.alarms = [(i, a)] → a.is p.kind p.source p.identity = true → Ends .alarmInstanceEnd s fun c =>
      c.alarms = [] ∧ c.almPend = [] ∧ c.isPending 41 = true ∧ c.reg (0xC40 + i) = 0 ∧ c.field 0xC39 0 6 = 0) ∧
    (∀ i a, i < 32 → s.chip.alarms = [(i, a)] →
      (a.kind = 2 → a.lastSig + s.chip.reg 0xC32 * 32000 ≤ s.chip.time.now → Ends (.alarmSignalTimeout i) s fun c =>
        c.alarms = [] ∧ c.isPending 41 = true ∧ c.reg (0xC40 + i) = 0) ∧
      (a.kind = 1 → Becomes (.alarmSignalTimeout i) s s.chip) ∧
      (∀ t, a.lostAt = some t → s.chip.reg 0xC34 ≠ 0xFFFF → t + s.chip.reg 0xC34 * 32000 ≤ s.chip.time.now → Ends (.alarmLostHoldExpire i) s fun c =>
        c.alarms = [] ∧ c.isPending 41 = true ∧ c.reg (0xC40 + i) = 0) ∧
      (a.lostAt = none → Becomes (.alarmLostHoldExpire i) s s.chip)) ∧
    (s.chip.alarms = [] → s.chip.alertAt + s.chip.reg 0xC35 ≤ s.chip.tick → Ends .alertRelease s fun c => c.bit 0xC39 6 = false ∧ SameRegs [0xC39] s.chip c) ∧
    (s.chip.alarms ≠ [] → Becomes .alertRelease s s.chip)

/-! Following and linking. -/

/-- A member is observed: the score that the figures of the visit give, the end of a park, identity evidence that lapses, the search for its lag in the anchor's
history once that reaches far enough, its failure or its part in the alignment, and its renewal, the end of a slew (R273 to R276, R279, R280, R285). Without an
excerpt, or before the history reaches far enough, no estimate completes. -/
def Obligations.MembersAreObserved : Prop :=
  ∀ (s : State) (i : Nat), s.chip.dspOn = true → i < 8 →
    (∀ k n key t m (v : Int) (q : Nat), s.chip.bgIdx i k = some n → (s.chip.follow i).bgs[n]? = some { lane := k, member := some key, park := 0, since := some t, mnr := (v, q) } →
      0 < q → t + s.chip.field (lnkA i 5) 0 16 ≤ s.chip.tick → s.chip.member i key = some m →
      (Ends (.memberVisitEnd i k) s fun c => ∃ m', c.member i key = some m' ∧ m'.score = some (v / q - s.chip.reg 0xC61)) ∧
      (m.verified = true → m.aligned = false → (s.chip.reg 0xC61 : Int) ≤ v / q → Ends (.memberVisitEnd i k) s fun c =>
        (c.follow i).bgs[n]? = some { lane := k, member := some key, park := 2, since := some s.chip.tick } ∧ SameRegs [] s.chip c)) ∧
    (∀ k key t p r, (s.chip.follow i).bgs = { lane := k, member := some key, park := p, since := some t, mnr := (0, 0) } :: r → p ≠ 0 → t + 1049 * p ≤ s.chip.tick →
      s.chip.visitList i 0 = [] → Ends (.memberParkEnd i k) s fun c =>
        (c.follow i).bgs = { lane := k, member := none, park := 0, since := none } :: r ∧ SameRegs [] s.chip c) ∧
    (∀ key m t, s.chip.member i key = some m → m.evidence = some t →
      (t + 4096 ≤ s.chip.tick → Ends (.verificationExpire i key) s fun c =>
        c.member i key = some { m with evidence := none, verified := false } ∧ SameButRecords [] s.chip c) ∧
      (s.chip.tick < t + 4096 → Becomes (.verificationExpire i key) s s.chip)) ∧
    (∀ key m tx xs, key < 16384 → s.chip.member i key = some m → m.aligned = false → s.chip.estimating i key = true → s.chip.excerpt i key = some (tx, xs) →
      (s.chip.searchable i tx = true → Ends (.estimateComplete i key) s fun c =>
        (∃ m', c.member i key = some m' ∧
          (s.chip.searchFails i tx xs = true → m'.aligned = false ∧ m'.prev = none) ∧
          (s.chip.searchFails i tx xs = false → ∃ lag, (lag = (s.chip.search i tx xs).lag (s.chip.lagRange i) (toSigned 32 (Config.freeValue s.chip.free).toNat)) ∧
            (m.prev = none → m'.aligned = false ∧ m'.prev = some lag) ∧
            (∀ p, m.prev = some p → (p - lag).natAbs ≤ s.chip.reg 0xC66 → m'.aligned = true ∧ m'.lag = lag ∧ m'.estAt = s.chip.tick))) ∧
          (s.chip.searchFails i tx xs = false → SameButRecords [0xC6C, 0xC6E] s.chip c) ∧
          (s.chip.searchFails i tx xs = true → s.chip.reg 0xC6D < 0xFFFFFFFF → c.reg 0xC6D = s.chip.reg 0xC6D + 1 ∧ SameButRecords [0xC6C, 0xC6D, 0xC6E] s.chip c)) ∧
      (s.chip.searchable i tx = false → Becomes (.estimateComplete i key) s s.chip)) ∧
    (∀ key, s.chip.excerpt i key = none → Becomes (.estimateComplete i key) s s.chip) ∧
    (∀ key m, s.chip.member i key = some m → m.aligned = true → s.chip.onAirKey i key = false →
      (m.estAt + s.chip.reg 0xC67 ≤ s.chip.tick → Ends (.reestimateDue i key) s fun c =>
        c.member i key = some { m with wanted := true, estAt := s.chip.tick } ∧ SameRegs [] s.chip c) ∧
      (s.chip.tick < m.estAt + s.chip.reg 0xC67 → Becomes (.reestimateDue i key) s s.chip)) ∧
    ((s.chip.follow i).slew = some (s.chip.fE i) → (s.chip.follow i).slewAt ≤ s.chip.time.now → Ends (.linkSlewEnd i) s fun c =>
      (c.follow i).slew = none ∧ c.bit (lnkA i 7) 0 = false ∧ c.fE i = s.chip.fE i ∧ SameButRecords [lnkA i 7] s.chip c) ∧
    ((s.chip.follow i).slew = none → Becomes (.linkSlewEnd i) s s.chip)

/-- A change of carrier: the cross-fade occupies the fade units of its lanes, and the end of its F samples, or the ramp in after a hard switch when the incoming
sample is due, makes the member the current one, with event 38 and the counts (R288, R289, R291, R292). Before then nothing happens. -/
def Obligations.ChangesOfCarrier : Prop :=
  ∀ (s : State) (i : Nat) (x : ChangeSt), s.chip.dspOn = true → i < 8 → (s.chip.follow i).change = some x →
    (s.chip.fadeDue i x = true → ((s.chip.fadeLanes i x).any fun k => s.chip.fadeBusy k) = false → Ends (.linkFadeStart i) s fun c =>
      c.fState i = 5 ∧ (c.follow i).change = some { x with fading := true, cs := if x.cs = 0 then s.chip.time.now - s.chip.outLat i else x.cs } ∧ (∀ k, k ∈ s.chip.fadeLanes i x → (c.lane k).linkFade = true) ∧
        SameButRecords [lnkA i 6, lnkA i 7] s.chip c) ∧
    (s.chip.fadeDue i x = false → Becomes (.linkFadeStart i) s s.chip) ∧
    (s.chip.fadeOver i x = true → s.chip.reg 0xC69 < 0xFFFFFFFF → Ends (.linkFadeEnd i) s fun c =>
      (c.follow i).current = some x.dst ∧ (c.follow i).change = none ∧ (c.follow i).changedAt = s.chip.tick ∧ c.isPending 38 = true ∧
        c.reg 0xC69 = s.chip.reg 0xC69 + 1 ∧ (c.fState i = 2 ∨ c.fState i = 3)) ∧
    (s.chip.fadeOver i x = false → Becomes (.linkFadeEnd i) s s.chip) ∧
    (s.chip.hardDue i x = true → s.chip.reg 0xC69 < 0xFFFFFFFF → Ends (.hardSwitchRampIn i) s fun c =>
      (c.follow i).current = some x.dst ∧ (c.follow i).change = none ∧ c.isPending 38 = true ∧ c.reg 0xC69 = s.chip.reg 0xC69 + 1 ∧
        (isDigital x.dst = false → (c.follow i).anchor = some x.dst)) ∧
    (s.chip.hardDue i x = false → Becomes (.hardSwitchRampIn i) s s.chip)

/-! Jobs, records and the ports. -/

/-- Submission, withdrawal and status of a job by the host: an admitted descriptor takes the lowest free identifier with its start and end, a refused
one raises event 24, counts and answers with reason, resource, shortage and earliest start; a withdrawal takes effect at the next tick. At its own
moments: the timed start puts it in state 2, the end of its duration and the effect of a withdrawal free it, a renewal that passes restores it with
the current rate, and one that fails counts, raises event 24 and degrades a PROMISED job to state 4. (R323, R324, R325, R327, R328, R340, R345,
R349, R352) -/
def Obligations.Jobs : Prop :=
  (∀ (s : State), s.chip.hostReady [2, 3] = true →
    (∀ d j, d.length = 28 → (s.chip.taken.admission d).reason = 0 → s.chip.freeJob = some j → Ends (.jobSubmit d) s fun c =>
      (∃ x, c.job? j = some x ∧ x.desc = d ∧ x.state = 1 ∧ x.origin = 0 ∧ x.start = s.chip.startTick d ∧
        x.stop = (if dDuration d = 0 then none else some (s.chip.startTick d + dDuration d))) ∧
      (∀ i, i ≠ j → c.job? i = s.chip.job? i) ∧ c.replied ([0x00, 0x00] ++ le 2 j ++ le 4 0 ++ le 4 (s.chip.startTick d % 2 ^ 32))) ∧
    (∀ d, d.length = 28 → (s.chip.taken.admission d).reason ≠ 0 → Ends (.jobSubmit d) s fun c =>
      c.jobs = s.chip.jobs ∧ c.isPending 24 = true ∧
        c.replied ([b8 (s.chip.taken.admission d).reason, b8 (s.chip.taken.admission d).res] ++ le 2 0xFFFF ++ le 4 (s.chip.taken.admission d).short ++ le 4 (s.chip.taken.earliest d)) ∧
        SameRegs ([0x70A, 0x70B, 0x70C, 0x711] ++ hostRegs) s.chip c) ∧
    (∀ d, d.length ≠ 28 → Refuses (.jobSubmit d) s [0x0A]) ∧
    (∀ j x, s.chip.job? j = some x → x.ending = none → Ends (.jobWithdraw j) s fun c =>
      c.job? j = some { x with ending := some (s.chip.tick + 1) } ∧ c.replied [0x00] ∧ SameRegs hostRegs s.chip c) ∧
    (∀ j, s.chip.job? j = none → Refuses (.jobWithdraw j) s [0x0A]) ∧
    (∀ j, Answers (.jobStatus j) s (0x00 :: s.chip.taken.jobStatus j))) ∧
  (∀ (s : State) (j : Nat) (x : Job), s.chip.ctlOn = true → s.chip.job? j = some x →
    (dTimed x.desc = true → x.state = 1 → x.start ≤ s.chip.tick → dKind x.desc ≠ 8 → Ends (.jobTimedStart j) s fun c =>
      c.job? j = some { x with state := 2 } ∧ SameRegs [] s.chip c) ∧
    (s.chip.tick < x.start → Becomes (.jobTimedStart j) s s.chip) ∧
    (∀ t, x.stop = some t → t ≤ s.chip.tick → Ends (.jobDurationEnd j) s fun c => c.job? j = none ∧ c.sched.released = true) ∧
    (x.stop = none → Becomes (.jobDurationEnd j) s s.chip) ∧
    (∀ t, x.ending = some t → t ≤ s.chip.tick → s.chip.bus.v1Wait = none → Ends (.jobWithdrawEffect j) s fun c => c.job? j = none ∧ c.sched.released = true) ∧
    ((s.chip.renewTest j x.desc).reason = 0 → Ends (.jobRenewal j) s fun c =>
      ∃ y, c.job? j = some y ∧ y.state = (if x.state = 4 then 2 else x.state) ∧ y.rate = s.chip.rateOf x.desc (s.chip.costNow x.desc) ∧ y.desc = x.desc) ∧
    ((s.chip.renewTest j x.desc).reason ≠ 0 → s.chip.reg 0x70F < 0xFFFFFFFF → Ends (.jobRenewal j) s fun c =>
      c.reg 0x70F = s.chip.reg 0x70F + 1 ∧ c.isPending 24 = true ∧ (dClass x.desc = 0 → x.state = 2 →
        ∃ y, c.job? j = some y ∧ y.state = 4 ∧ y.reason = (s.chip.renewTest j x.desc).reason) ∧ SameRegs [0x70F] s.chip c))

/-- The stream port: a record leaves with its bytes and its credit; one that finds too little credit stays; a late PROBE record is shed and counted,
with event 26; a credit edge gives 512 bytes, up to 32,768, beyond which it counts as an error; without the clock nothing moves. The audio port as a
target: the frame clock accepted, out of range and lost, in AUD_STATE and AUD_FS_PPM. An event record that is due is dropped where its event is not
enabled, or leaves where fewer than 48 have left in this tick and no lower-numbered one is due. (R342, R343, R344, R441, R443, R454, R570, R571) -/
def Obligations.StreamAndAudioPorts : Prop :=
  (∀ (s : State),
    (∀ q, s.chip.strClk = true → s.chip.head = some q → q.job = none → q.cls = 0 →
      (s.chip.stream (streamKey q.rec_.ty q.rec_.handle)).shed = [] → q.rec_.size ≤ s.chip.reg 0x602 → s.chip.reg 0x602 ≤ 32768 → s.chip.reg 0x608 < 0xFFFFFFFF →
      Ends .recordSend s fun c => c.out.sent = q.rec_.bytes ∧ c.out.queue = s.chip.out.queue.filter (fun y => y.order != q.order) ∧
        c.reg 0x602 = s.chip.reg 0x602 - q.rec_.size ∧ c.reg 0x608 = s.chip.reg 0x608 + 1 ∧ SameButRecords [] s.chip c) ∧
    (∀ q, s.chip.strClk = true → s.chip.head = some q → q.cls = 0 → s.chip.reg 0x602 < q.rec_.size → Ends .recordSend s fun c =>
      c.out.queue = s.chip.out.queue ∧ c.out.sent = s.chip.out.sent ∧ SameRegs [0x605] s.chip c) ∧
    (s.chip.strClk = false → Becomes .recordSend s s.chip ∧ Becomes .strCrdEdge s s.chip) ∧
    (∀ q j x d, s.chip.ctlOn = true → s.chip.out.queue = [q] → q.cls = 2 → q.job = some j → s.chip.job? j = some x → q.deadline = some d → d < s.chip.time.now →
      x.shedRun = false → x.shed < 0xFFFFFFFF → s.chip.reg 0x70E < 0xFFFFFFFF → Ends .probeRecordShed s fun c =>
        c.out.queue = [] ∧ c.job? j = some { x with shedRun := true, shed := x.shed + 1 } ∧ c.isPending 26 = true ∧ c.reg 0x70E = s.chip.reg 0x70E + 1 ∧
          (c.stream (streamKey q.rec_.ty q.rec_.handle)).shed ≠ [] ∧ SameButRecords [] s.chip c) ∧
    (s.chip.strClk = true → s.chip.reg 0x602 + 512 ≤ 32768 → Becomes .strCrdEdge s (s.chip.put 0x602 (s.chip.reg 0x602 + 512))) ∧
    (s.chip.strClk = true → 32768 < s.chip.reg 0x602 + 512 → Becomes .strCrdEdge s (s.chip.count 0x609))) ∧
  (∀ (s : State),
    (∀ e : Int, s.chip.audTarget = true → e.natAbs ≤ 50000 → e.natAbs ≤ 32767 → Ends (.audioFrameClockAccept e) s fun c =>
      c.reg 0x641 = 2 ∧ c.int 0x642 16 = e ∧ SameRegs [0x641, 0x642] s.chip c) ∧
    (∀ e : Int, s.chip.audTarget = true → 50000 < e.natAbs → Ends (.audioFrameClockOutOfRange e) s fun c =>
      c.reg 0x641 = 3 ∧ c.int 0x642 16 = (if 0 < e then 32767 else -32768) ∧ SameRegs [0x641, 0x642] s.chip c) ∧
    (s.chip.audTarget = true → s.chip.reg 0x641 ≠ 4 → s.chip.reg 0x646 < 0xFFFFFFFF → Ends .audioFrameClockLoss s fun c =>
      c.reg 0x641 = 4 ∧ c.reg 0x646 = s.chip.reg 0x646 + 1 ∧ SameRegs [0x641, 0x646] s.chip c) ∧
    (s.chip.audTarget = false → ∀ e, Becomes (.audioFrameClockAccept e) s s.chip ∧ Becomes (.audioFrameClockOutOfRange e) s s.chip ∧ Becomes .audioFrameClockLoss s s.chip) ∧
    (∀ n r, n < 72 → s.chip.ctlOn = true → s.chip.reg 0x600 = 1 → Tbl.find s.chip.ev.recs n = some r → s.chip.recDue n = true →
      (s.chip.recEnabled n = false → Ends (.eventRecordEmit n) s fun c => Tbl.find c.ev.recs n = none ∧ c.out = s.chip.out ∧ SameRegs [] s.chip c) ∧
      (s.chip.recEnabled n = true → s.chip.recsNow < 48 → ((List.range n).any fun m => s.chip.recDue m && s.chip.recEnabled m) = false → Ends (.eventRecordEmit n) s fun c =>
        Tbl.find c.ev.last n = some s.chip.tick ∧ SameButRecords [] s.chip c)))

/-- The Swatch of the interval that ended first, once what was measured in it is complete: one is counted, one without a valid result is counted as such, and with logging
on and room in the log an entry is written (R304, R305, R319 to R321); before then it waits (the model's choice, log entry 62). -/
def Obligations.SwatchIntervals : Prop :=
  ∀ (s : State) (j : Nat) (y : Job) (e : SwtEnd) (r : List SwtEnd), s.chip.ctlOn = true → s.chip.job? j = some y → (s.chip.swt j).ended = e :: r →
    s.chip.reg 0xB01 < 0xFFFFFFFF → s.chip.reg 0xB02 < 0xFFFFFFFF →
    (s.chip.swtComplete y.desc e.stop = false → Becomes (.swatchIntervalEnd j) s s.chip) ∧
    (s.chip.swtComplete y.desc e.stop = true →
      (mLog y.desc = false → Ends (.swatchIntervalEnd j) s fun c => (c.swt j).ended = r ∧ c.reg 0xB01 = s.chip.reg 0xB01 + 1 ∧
        c.reg 0xB02 = s.chip.reg 0xB02 + (if (ticksOf (e.data.filter (SwtPoint.covers (mType y.desc)))).length ≠ 0 ∧
          (if mType y.desc = 0x48 then e.causes &&& 0x3B = 0 else e.causes = 0) then 0 else 1) ∧ SameButRecords [0xB01, 0xB02] s.chip c) ∧
      (mLog y.desc = true → mRecords y.desc = false → s.chip.logFill < 32768 → Ends (.swatchIntervalEnd j) s fun c => (c.swt j).ended = r ∧
        c.reg 0xB08 = (s.chip.reg 0xB08 + 1) % 2 ^ 32 ∧ c.logFill = s.chip.logFill + 1 ∧ c.reg 0xB0A = s.chip.logFill + 1 ∧
        (Tbl.get 0 c.swtLog (4 * (s.chip.reg 0xB08 % 32768))).toNat = e.start % 2 ^ 32 ∧ SameRegs [0xB01, 0xB02, 0xB08, 0xB0A, 0xB0E] s.chip c))

/-! Start-up, profiles and the journal. -/

/-- The checked reads of a boot: a good header goes on to the journal or the profile with its directory, revision and state, a bad one is read a second
time and then ends in profile F, as does one that cannot be read, and a profile with no entry; the newest valid journal slot gives its values,
without one the boot goes on, and without an answer it ends in F; a profile that checks goes into force, and one that fails twice makes the receiver
run F with events 1 and 2 and BOOT_LAST_ERR 0x0A. (R467, R468, R471, R476, R480) -/
def Obligations.BootReads : Prop :=
  ∀ (s : State), s.chip.ctlOn = true →
    (∀ b, s.chip.boot.phase = 1 → headerOk b = true → journalAt b ≠ none → Ends (.nvmHeaderRead (some b)) s fun c =>
      c.boot.phase = 2 ∧ c.boot.dir = directory b ∧ c.boot.jptr = journalAt b ∧ c.field 0x403 0 3 = 1 ∧ c.reg 0x405 = leAt b 48 4 ∧ c.reg 0x40C = 1 ∧
        SameRegs [0x403, 0x405, 0x408, 0x40C] s.chip c) ∧
    (∀ b, s.chip.boot.phase = 1 → headerOk b = true → journalAt b = none → ((directory b).getD (s.chip.reg 0x402) (0, 0)).2 ≠ 0 →
      Ends (.nvmHeaderRead (some b)) s fun c => c.boot.phase = 3 ∧ c.field 0x403 0 3 = 1 ∧ c.reg 0x405 = leAt b 48 4 ∧ c.boot.jptr = none ∧
        SameRegs [0x403, 0x405, 0x408, 0x410, 0x418] s.chip c) ∧
    (∀ b, s.chip.boot.phase = 1 → headerOk b = true → journalAt b = none → ((directory b).getD (s.chip.reg 0x402) (0, 0)).2 = 0 →
      Ends (.nvmHeaderRead (some b)) s fun c => c.boot.phase = 4 ∧ c.boot.prof = some (15, []) ∧ c.boot.fbk = true ∧ c.isPending 1 = true ∧ c.bit 0x403 3 = true ∧
        c.reg 0x404 = 0x0D) ∧
    (∀ b, s.chip.boot.phase = 1 → headerOk b = false → s.chip.boot.reread = false → Ends (.nvmHeaderRead (some b)) s fun c =>
      c.boot.phase = 1 ∧ c.boot.reread = true ∧ SameRegs [] s.chip c) ∧
    (∀ b, s.chip.boot.phase = 1 → headerOk b = false → s.chip.boot.reread = true → Ends (.nvmHeaderRead (some b)) s fun c =>
      c.field 0x403 0 3 = (if magicOk b then 4 else 3) ∧ c.boot.phase = 4 ∧ c.boot.prof = some (15, []) ∧ (magicOk b = true → c.boot.fbk = true)) ∧
    (s.chip.boot.phase = 1 → Ends (.nvmHeaderRead none) s fun c =>
      c.field 0x403 0 3 = 5 ∧ c.boot.phase = 4 ∧ c.boot.prof = some (15, []) ∧ c.boot.fbk = true ∧ c.reg 0x404 = 0x0E) ∧
    (∀ a b n, s.chip.boot.phase = 2 → newestSlot a b = some n → (s.chip.entryOf (s.chip.reg 0x402)).2 ≠ 0 → Ends (.journalRead (some a) (some b)) s fun c =>
      c.boot.phase = 3 ∧ c.boot.jnew = some (n, leAt (if n = 0 then a else b) 4 4) ∧ c.reg 0x235 = leAt (if n = 0 then a else b) 96 4 ∧
        c.reg 0x407 = leAt (if n = 0 then a else b) 12 1 &&& maskAt 0x407 ∧ c.reg (calFeA 0 1) = leAt (if n = 0 then a else b) 18 2 &&& maskAt (calFeA 0 1)) ∧
    (∀ a b, s.chip.boot.phase = 2 → newestSlot a b = none → (s.chip.entryOf (s.chip.reg 0x402)).2 ≠ 0 → Ends (.journalRead (some a) (some b)) s fun c =>
      c.boot.phase = 3 ∧ SameRegs [0x410, 0x418] s.chip c) ∧
    (s.chip.boot.phase = 2 → Ends (.journalRead none none) s fun c =>
      c.boot.phase = 4 ∧ c.boot.prof = some (15, []) ∧ c.boot.fbk = true ∧ c.reg 0x404 = 0x0E ∧ SameRegs [0x404, 0x410, 0x418] s.chip c) ∧
    (∀ b r, s.chip.boot.phase = 3 → profileOk s.chip.boot.fmt (s.chip.reg 0x402) (s.chip.entryOf (s.chip.reg 0x402)).2 b = true →
      s.chip.reg 0x411 < 0xFFFFFFFF → Ends (.profileReadChecked (s.chip.reg 0x402) (some b) r) s fun c =>
        c.boot.phase = 4 ∧ c.boot.prof = some (s.chip.reg 0x402, b) ∧ c.reg 0x411 = s.chip.reg 0x411 + 1 ∧ SameRegs [0x411] s.chip c) ∧
    (∀ a b, s.chip.boot.phase = 3 → profileOk s.chip.boot.fmt (s.chip.reg 0x402) (s.chip.entryOf (s.chip.reg 0x402)).2 a = false →
      profileOk s.chip.boot.fmt (s.chip.reg 0x402) (s.chip.entryOf (s.chip.reg 0x402)).2 b = false →
      Ends (.profileReadChecked (s.chip.reg 0x402) (some a) (some b)) s fun c =>
        c.boot.phase = 4 ∧ c.boot.prof = some (15, []) ∧ c.boot.fbk = true ∧ c.bit 0x403 4 = true ∧ c.isPending 1 = true ∧ c.isPending 2 = true ∧ c.reg 0x404 = 0x0A ∧
          SameRegs [0x403, 0x404, 0x411, 0x412, 0x418] s.chip c)

/-- The profile goes into force, its jobs are submitted, and boot is done; later PROFILE answers with the tick of the switch, which takes that profile into force at its
boundary (R472 to R479). -/
def Obligations.ProfilesInForce : Prop :=
  ∀ (s : State), s.chip.ctlOn = true →
    (∀ p b, s.chip.boot.phase = 4 → s.chip.boot.prof = some (p, b) → ∃ t, exec .profileApply s = .next t ∧ t.pending = s.pending ∧ t.chip.boot.phase = 5 ∧
      t.chip.boot.appliedAt = t.chip.tick ∧ t.chip.reg 0x401 = p &&& maskAt 0x401 ∧ (p ≠ 15 → t.chip.reg 0x406 = leAt b 8 4)) ∧
    (s.chip.boot.phase = 5 → s.chip.jobsReady = true → s.chip.boot.jobs = [] → s.chip.reg 0x401 ≠ 15 → Ends .jobSectionApply s fun c =>
      c.boot.phase = 6 ∧ c.boot.prof = none ∧ c.jobs = s.chip.jobs ∧ SameRegs [] s.chip c) ∧
    (s.chip.boot.phase = 5 → s.chip.jobsReady = false → Becomes .jobSectionApply s s.chip) ∧
    (s.chip.boot.phase = 6 → s.chip.bus.held = none → s.chip.reg 0x401 ≠ 15 → EndsPowered .bootDone s fun c =>
      c.boot.phase = 7 ∧ c.boot.done = true ∧ c.isPending 0 = true ∧ SameRegs [] s.chip c) ∧
    (s.chip.hostReady [1, 2, 3] = true → s.chip.needsSeal = false → s.chip.switchPending = false →
      (∀ a b, Ends (.profile 15 a b) s fun c => c.boot.prof = some (15, []) ∧ c.boot.appliedAt = s.chip.tick + 1 ∧
        c.bit 0x403 5 = true ∧ c.replied (0x00 :: le 4 (s.chip.tick + 1)) ∧ SameRegs (0x403 :: hostRegs) s.chip c) ∧
      (∀ p a b, 4 ≤ p → p ≠ 15 → Refuses (.profile p a b) s [0x0A]) ∧
      (∀ p a b, p < 4 → s.chip.boot.jwrite = none → (s.chip.boot.fmt = 0 ∨ (s.chip.entryOf p).2 = 0) → Refuses (.profile p a b) s [0x0D]) ∧
      (∀ p a r, p < 4 → s.chip.boot.jwrite = none → s.chip.boot.fmt ≠ 0 → profileOk s.chip.boot.fmt p (s.chip.entryOf p).2 a = true → (s.chip.entryOf p).2 ≠ 0 →
        Ends (.profile p (some a) r) s fun c => c.boot.prof = some (p, a) ∧ c.bit 0x403 5 = true ∧ c.replied (0x00 :: le 4 (s.chip.tick + 1))) ∧
      (∀ p a b, p < 4 → s.chip.boot.jwrite ≠ none → Ends (.profile p a b) s fun c =>
        c.boot.wait = some (p, a, b, none) ∧ c.bus.complete = false ∧ c.reg 0x508 = 2 ∧ SameRegs hostRegs s.chip c)) ∧
    (∀ p b, s.chip.boot.done = true → s.chip.boot.prof = some (p, b) → s.chip.boot.appliedAt ≤ s.chip.tick → s.chip.boot.wait = none → s.chip.bus.v1Wait = none →
      ∃ t, exec .profileSwitch s = .next t ∧ t.pending = s.pending ∧ t.chip.reg 0x401 = p &&& maskAt 0x401 ∧ t.chip.boot.prof = none ∧ t.chip.bit 0x403 5 = false ∧
        t.chip.boot.fbk = false) ∧
    (s.chip.tick < s.chip.boot.appliedAt → s.chip.boot.wait = none → s.chip.bus.v1Wait = none → Becomes .profileSwitch s s.chip)

/-- The scan of factory profile F: an FM lane without a carrier moves to its next frequency after 1,024 ticks; an ensemble lane keeps an ensemble it has
decoded with its identity, or moves to the next block, after 512; a scan whose visits are over ends, and one is repeated after its period, from the
start. Before their times the events change nothing. (R485, R486) -/
def Obligations.FactoryScan : Prop :=
  ∀ (s : State), s.chip.ctlOn = true →
    (∀ k, s.chip.boot.scan = true → 72 ≤ k → k ≤ 135 → s.chip.laneRuns k = true → (s.chip.lane k).phaseAt + 1024 ≤ s.chip.tick → Tbl.get 0 s.chip.boot.fmRound k = 0 →
      (s.chip.lane k).found = false → Ends (.scanVisitEnd k) s fun c => Tbl.get 0 c.boot.fmRound k = 1 ∧ c.reg (laneA k 1) = fNco 0 (fmKHz (k - 72 + 64))) ∧
    (∀ k, s.chip.boot.scan = true → s.chip.tick < (s.chip.lane k).phaseAt + 512 → Becomes (.scanVisitEnd k) s s.chip) ∧
    (∀ k i e, s.chip.boot.scan = true → 64 ≤ k → k ≤ 71 → s.chip.laneRuns k = true → (s.chip.lane k).phaseAt + 512 ≤ s.chip.tick → Tbl.find s.chip.boot.dabOn k = some i →
      s.chip.isKept k = false → s.chip.ensOf k = some e →
      (s.chip.ensState e = 4 → (s.chip.ens e).eid.isSome = true → Ends (.scanVisitEnd k) s fun c =>
        Tbl.find c.boot.kept k = some (blockKHz i, s.chip.ifLevel k) ∧ Tbl.find c.boot.dabOn k = none ∧ SameRegs [] s.chip c) ∧
      (s.chip.ensState e ≠ 4 → s.chip.boot.dabNext < 38 → Ends (.scanVisitEnd k) s fun c =>
        c.boot.dabNext = s.chip.boot.dabNext + 1 ∧ c.reg (laneA k 0) = 0xF0 + blockWin (blockKHz s.chip.boot.dabNext) ∧
          c.reg (laneA k 1) = fNco (blockWin (blockKHz s.chip.boot.dabNext)) (blockKHz s.chip.boot.dabNext))) ∧
    (s.chip.boot.scan = true → s.chip.scanOver = true → Ends .scanEnd s fun c => c.boot.scan = false) ∧
    (s.chip.scanOver = false → Becomes .scanEnd s s.chip) ∧
    (s.chip.boot.done = true → s.chip.reg 0x401 = 15 → s.chip.boot.scan = false → s.chip.reg 0x40F ≠ 0 → s.chip.boot.scanAt + s.chip.reg 0x40F * 61440 ≤ s.chip.tick →
      s.chip.asleep = false → s.chip.blocksAsleep = false → EndsPowered .fRescanDue s fun c => c.boot.scan = true ∧ c.boot.fmRound = [] ∧ c.boot.cands = [])

/-- The journal is written when an hour has passed and what it holds has changed; the read-back completes the write or fails it with event 54. The NVM bus loses
arbitration, is busy, stays unacknowledged or is cleared (R463 to R465, R482, R483). -/
def Obligations.JournalAndNvmBus : Prop :=
  ∀ (s : State), s.chip.ctlOn = true →
    (s.chip.boot.done = true → s.chip.boot.jen = true → s.chip.reg 0x40A ≠ 0 → s.chip.boot.jptr ≠ none → s.chip.boot.jwrite = none →
      s.chip.boot.jat + 3600 * 32768000 ≤ s.chip.time.now →
      (s.chip.asleep = true → Becomes .journalWriteDue s (s.chip.put 0x40C 2)) ∧
      (s.chip.asleep = false → slotContent s.chip.journalSlot ≠ s.chip.boot.jlast → Ends .journalWriteDue s fun c =>
        (∃ slot, c.boot.jwrite = some (s.chip.journalSlot, slot) ∧ slot = (match s.chip.boot.jnew with | some (0, _) => 1 | _ => 0)) ∧
          c.reg 0x40C = 3 ∧ SameRegs [0x40C] s.chip c) ∧
      (s.chip.asleep = false → slotContent s.chip.journalSlot = s.chip.boot.jlast → s.chip.boot.jask = false → Ends .journalWriteDue s fun c =>
        c.boot.jwrite = none ∧ c.reg 0x40C = 1 ∧ SameRegs [0x40C] s.chip c)) ∧
    (s.chip.time.now < s.chip.boot.jat + 3600 * 32768000 → Becomes .journalWriteDue s s.chip) ∧
    (∀ b slot, s.chip.boot.jwrite = some (b, slot) → s.chip.boot.wait = none →
      (s.chip.reg 0x415 < 0xFFFFFFFF → Ends (.journalReadback true) s fun c => c.boot.jwrite = none ∧ c.boot.jnew = some (slot, leAt b 4 4) ∧
        c.reg 0x415 = s.chip.reg 0x415 + 1 ∧ c.reg 0x40C = 1 ∧ c.reg 0x40D = s.chip.tick % 2 ^ 32 ∧ SameRegs [0x407, 0x40C, 0x40D, 0x415] s.chip c) ∧
      (s.chip.reg 0x416 < 0xFFFFFFFF → Ends (.journalReadback false) s fun c => c.boot.jwrite = none ∧ c.boot.jask = true ∧ c.boot.jnew = s.chip.boot.jnew ∧
        c.isPending 54 = true ∧ c.reg 0x416 = s.chip.reg 0x416 + 1 ∧ SameRegs [0x40C, 0x416] s.chip c)) ∧
    (s.chip.boot.wait = none → s.chip.nvmActive = true →
      (s.chip.boot.losses < 7 → s.chip.reg 0x413 < 0xFFFFFFFF → Ends .nvmArbitrationLost s fun c =>
        c.boot.losses = s.chip.boot.losses + 1 ∧ c.isPending 51 = true ∧ c.reg 0x413 = s.chip.reg 0x413 + 1 ∧ SameRegs [0x413] s.chip c) ∧
      (s.chip.boot.phase = 3 → Ends .nvmBusBusyTimeout s fun c => c.boot.phase = 4 ∧ c.boot.prof = some (15, []) ∧ c.boot.fbk = true ∧ c.reg 0x404 = 0x0E ∧
        SameRegs [0x404] s.chip c) ∧
      (s.chip.boot.phase = 1 → ∀ us, 10000 ≤ us → Ends (.nvmNoAckRetry us) s fun c => c.field 0x403 0 3 = 2 ∧ c.boot.phase = 4 ∧ c.boot.prof = some (15, [])) ∧
      (∀ us, us < 10000 → Becomes (.nvmNoAckRetry us) s s.chip) ∧
      (∀ n, s.chip.reg 0x414 < 0xFFFFFFFF → Ends (.nvmBusClear n true) s fun c => c.boot.clears = 0 ∧ c.isPending 50 = true ∧
        c.reg 0x414 = s.chip.reg 0x414 + 1 ∧ SameRegs [0x414] s.chip c) ∧
      (∀ n, s.chip.boot.phase = 3 → 2 ≤ s.chip.boot.clears → Ends (.nvmBusClear n false) s fun c => c.boot.phase = 4 ∧ c.reg 0x404 = 0x0E ∧ c.boot.fbk = true))

/-! The host bus. -/

/-- Reads of the reply: a part of the frame, the whole frame with 0xFF after it, which ends the reply, the NRD frame while a reply is not complete, a
stretched read and its timeout; a discarded command frame answers BAD_PARAMETER, with event 52 where its CRC fails; a write while a command is being
carried out is counted; an SCL timeout, a stuck SDA and its end, with events 48 and 49; while SDA is stuck nothing on the bus has an effect; a
command with an unlisted code is refused with BAD_PARAMETER. (R408, R410, R411, R412, R414, R415, R416, R417, R409) -/
def Obligations.BusReadsAndFaults : Prop :=
  ∀ (s : State), s.chip.ctlOn = true → s.chip.asleep = false → s.chip.bus.atStop = false →
    (∀ n, s.chip.bus.stuck = false → s.chip.replyPending = false → 0 < n → n < 2 + s.chip.bus.reply.length → Ends (.replyRead n) s fun c =>
      c.bus.out = s.chip.frame.take n ∧ c.ev.fresh = false ∧ c.bus.reply = s.chip.bus.reply ∧ SameRegs [] s.chip c) ∧
    (∀ n, s.chip.bus.stuck = false → s.chip.replyPending = false → s.chip.bus.staged = [] → 3 + s.chip.bus.reply.length ≤ n → Ends (.replyRead n) s fun c =>
      c.bus.out = s.chip.frame ++ List.replicate (n - (3 + s.chip.bus.reply.length)) 0xFF ∧ c.reg 0x508 = 0 ∧ SameRegs [0x508] s.chip c) ∧
    (∀ n, s.chip.bus.stuck = false → s.chip.replyPending = true → s.chip.reg 0x504 = 0 → 3 ≤ n → s.chip.reg 0x513 < 0xFFFFFFFF → Ends (.replyRead n) s fun c =>
      c.bus.out = s.chip.nrdFrame ++ List.replicate (n - 3) 0xFF ∧ c.reg 0x513 = s.chip.reg 0x513 + 1 ∧ SameRegs [0x513] s.chip c) ∧
    (∀ n, s.chip.bus.stuck = false → s.chip.replyPending = true → s.chip.reg 0x504 ≠ 0 → Ends (.replyRead n) s fun c =>
      c.bus.stretch = some n ∧ c.bus.out = s.chip.bus.out ∧ SameRegs [] s.chip c) ∧
    (∀ n, s.chip.bus.stretch = some n → 3 ≤ n → s.chip.reg 0x513 < 0xFFFFFFFF → Ends .nrdStretchTimeout s fun c =>
      c.bus.stretch = none ∧ c.bus.out.take 3 = s.chip.nrdFrame ∧ c.reg 0x513 = s.chip.reg 0x513 + 1 ∧ SameRegs [0x513] s.chip c) ∧
    (s.chip.bus.stretch = none → Becomes .nrdStretchTimeout s s.chip) ∧
    (s.chip.bus.stuck = false → s.chip.replyPending = false → s.chip.bus.stretch = none → s.chip.reg 0x511 < 0xFFFFFFFF → Ends (.commandFrameDiscard 0) s fun c =>
      c.replied [0x0A] ∧ c.isPending 52 = true ∧ c.reg 0x511 = s.chip.reg 0x511 + 1 ∧ SameRegs [0x508, 0x511] s.chip c) ∧
    (s.chip.bus.stuck = false → s.chip.replyPending = false → s.chip.bus.stretch = none → Ends (.commandFrameDiscard 1) s fun c =>
      c.replied [0x0A] ∧ SameRegs [0x508] s.chip c) ∧
    (s.chip.bus.stuck = false → s.chip.replyPending = true → Becomes .commandWriteBusy s (s.chip.count 0x512)) ∧
    (∀ w, s.chip.reg 0x514 < 0xFFFFFFFF → Ends (.sclTimeout w) s fun c => c.isPending 48 = true ∧ c.reg 0x514 = s.chip.reg 0x514 + 1 ∧ SameRegs [0x514] s.chip c) ∧
    (s.chip.bus.stuck = false → s.chip.reg 0x515 < 0xFFFFFFFF → Ends .sdaStuck s fun c =>
      c.bus.stuck = true ∧ c.isPending 49 = true ∧ c.reg 0x515 = s.chip.reg 0x515 + 1 ∧ SameRegs [0x515] s.chip c) ∧
    (s.chip.bus.stuck = true → Becomes .sdaStuck s s.chip ∧ (∀ n, Becomes (.replyRead n) s s.chip) ∧ Becomes .commandWriteBusy s s.chip) ∧
    Becomes .sdaStuckEnd s { s.chip with bus := { s.chip.bus with stuck := false } } ∧
    (∀ code len, unlisted code len = true → s.chip.hostReady [1, 2, 3] = true → Refuses (.commandUnlistedCode code len) s [0x0A])

/-- Attention requests under version 3: made when something unmasked is new, completed with the address, the status and their CRC, ignored with event 55 (the
eighth in a row ends them), withdrawn on a lost arbitration (R424 to R427). -/
def Obligations.AttentionRequests : Prop :=
  ∀ (s : State), s.chip.ctlOn = true →
    (s.chip.atnMay = true → Ends .attentionRequest s fun c =>
      c.bus.atnActive = true ∧ c.bus.atnAt = some s.chip.tick ∧ c.reg 0x508 = 4 ∧ SameRegs [0x508] s.chip c) ∧
    (s.chip.reg 0x501 ≠ 3 ∨ s.chip.reg 0x503 = 0 ∨ s.chip.ev.fresh = false ∨ s.chip.boot.done = false → Becomes .attentionRequest s s.chip) ∧
    (s.chip.bus.atnActive = true →
      (s.chip.bus.atStop = false → s.chip.reg 0x516 < 0xFFFFFFFF → Ends .attentionRequestCompleted s fun c =>
        c.bus.out = [s.chip.addrRead, b8 s.chip.status, crc8 [s.chip.addrRead, b8 s.chip.status]] ∧ c.ev.fresh = false ∧ c.bus.ignored = 0 ∧
          c.reg 0x516 = s.chip.reg 0x516 + 1 ∧ c.reg 0x508 = 0 ∧ SameRegs [0x508, 0x516] s.chip c) ∧
      (s.chip.bus.ignored < 7 → s.chip.reg 0x517 < 0xFFFFFFFF → Ends .attentionWaitTimeout s fun c =>
        c.bus.ignored = s.chip.bus.ignored + 1 ∧ c.isPending 55 = true ∧ c.reg 0x517 = s.chip.reg 0x517 + 1 ∧ c.bus.atnActive = false ∧
          SameRegs [0x508, 0x517] s.chip c) ∧
      (s.chip.bus.ignored = 7 → Ends .attentionWaitTimeout s fun c => c.reg 0x503 = 0 ∧ c.bus.ignored = 0 ∧ c.isPending 55 = true) ∧
      Ends .attentionArbitrationLost s (fun c => c.bus.atnActive = false ∧ c.bus.ignored = s.chip.bus.ignored ∧ SameRegs [0x508] s.chip c)) ∧
    (s.chip.bus.atnActive = false → Becomes .attentionRequestCompleted s s.chip ∧ Becomes .attentionWaitTimeout s s.chip ∧ Becomes .attentionArbitrationLost s s.chip)

/-- The table ports: 1 to 63 words of a table are read, within its size; a Palette word in a bank that is not in use is written, with its mask, and a
link reference word where its reference is not being judged; writes to other tables, out of range or of no or too many words are refused with
BAD_PARAMETER. (R121, R281, R431) -/
def Obligations.TablePorts : Prop :=
  ∀ (s : State), s.chip.hostReady [2, 3] = true →
    (∀ t first n, 0 < n → n ≤ 63 → first + n ≤ tableSize t →
      Answers (.tableRead t first n) s (0x00 :: (List.range n).flatMap fun i => le 4 (s.chip.tableWord t (first + i)).toNat)) ∧
    (∀ t first n, n = 0 ∨ 63 < n ∨ tableSize t < first + n → Refuses (.tableRead t first n) s [0x0A]) ∧
    (∀ i (w : Word), i < 8192 → s.chip.bankInUse (i / 128) = false → Ends (.tableWrite 1 i [w]) s fun c =>
      c.pal i = w32 (w.toNat &&& paletteMask i) ∧ (∀ j, j ≠ i → c.pal j = s.chip.pal j) ∧ c.replied [0x00] ∧ SameRegs hostRegs s.chip c) ∧
    (∀ i (w : Word), s.chip.bankInUse (i / 128) = true → Refuses (.tableWrite 1 i [w]) s [0x0A]) ∧
    (∀ t i ws, t ∉ [1, 6] → Refuses (.tableWrite t i ws) s [0x0A]) ∧
    (∀ i (w : Word), i < 32800 → s.chip.refStatus (i / 4100) = 1 → Refuses (.tableWrite 6 i [w]) s [0x0A]) ∧
    (∀ i (w : Word), i < 32800 → s.chip.refStatus (i / 4100) ≠ 1 → 4 ≤ i % 4100 → Ends (.tableWrite 6 i [w]) s fun c =>
      Tbl.get 0 c.linkRef i = w ∧ (∀ j, j / 4100 ≠ i / 4100 → Tbl.get 0 c.linkRef j = Tbl.get 0 s.chip.linkRef j) ∧ c.replied [0x00] ∧ SameRegs hostRegs s.chip c) ∧
    (∀ t i ws, ws = [] ∨ 62 < ws.length → Refuses (.tableWrite t i ws) s [0x0A])

/-- The SNX-2200 subset under version 1: status, the last RDS group, the event byte, which clears what it reports, and the tune, refused where no lane, no band or no
window serves it (R434 to R436). -/
def Obligations.LegacyCommands : Prop :=
  ∀ (s : State), s.chip.hostReady [1] = true →
    Answers .v1Status s s.chip.taken.v1StatusCmd ∧
    Answers .v1Rds s s.chip.taken.v1RdsCmd ∧
    (∀ b t, s.chip.reg 0x509 < 160 → (s.chip.rds (s.chip.reg 0x509)).last = some (b, t) → Answers .v1Rds s (0x00 :: (b ++ le 4 (s.chip.tick - t)))) ∧
    (∀ e, (s.chip.taken.v1Bits.filter fun x => x.2.2) = [e] → Ends .v1Events s fun c =>
      c.replied [0x00, b8 (2 ^ e.1)] ∧ c.isPending e.2.1 = false ∧ (∀ n, n < 64 → n ≠ e.2.1 → c.isPending n = s.chip.taken.isPending n) ∧ SameRegs hostRegs s.chip c) ∧
    ((s.chip.taken.v1Bits.filter fun x => x.2.2) = [] → Answers .v1Events s [0x00, 0x00]) ∧
    (∀ f b, s.chip.needsSeal = true → Refuses (.v1Tune f b) s [0x08]) ∧
    (s.chip.needsSeal = false →
      (∀ f b, s.chip.reg 0x509 = 0xFF → Refuses (.v1Tune f b) s [0x0D]) ∧
      (∀ f b, s.chip.reg 0x509 ≠ 0xFF → 2 < b → Refuses (.v1Tune f b) s [0x0A]) ∧
      (∀ f, s.chip.reg 0x509 ≠ 0xFF → s.chip.v1Window f 1 = none → Refuses (.v1Tune f 1) s [0x03]) ∧
      (∀ f, s.chip.reg 0x509 ≠ 0xFF → s.chip.v1Held = false → Ends (.v1Tune f 2) s fun c => c.replied (0x00 :: le 4 (s.chip.tick + 1)) ∧ c.jobs = s.chip.jobs) ∧
      (∀ f j x, s.chip.reg 0x509 ≠ 0xFF → s.chip.v1Held = true → s.chip.bus.v1Job = some j → s.chip.job? j = some x → x.ending = none → s.chip.v1Window f 1 ≠ none →
        Ends (.v1Tune f 1) s fun c => c.bus.v1Wait = some { kHz := f, band := 1, sealedBy := none, gen := s.chip.reg (laneA (s.chip.reg 0x509) 6) } ∧ c.bus.complete = false ∧ c.job? j = some { x with ending := some (s.chip.tick + 1) }) ∧
      (∀ f w, s.chip.reg 0x509 = 5 → s.chip.v1Held = false → s.chip.v1Window f 1 = some w → s.chip.jobs = [] →
        ((s.chip.taken.v1Start f 1).1.headD 1 = 0) → Ends (.v1Tune f 1) s fun c => (∃ x, c.job? 0 = some x ∧ dOption x.desc = 0x10 ∧ dHandle x.desc = 0x600A0000) ∧
          c.bus.v1kHz = f ∧ c.replied (0x00 :: le 4 (s.chip.tick + 1))))

/-- Sealed sessions under version 1: opened with a key that allows it, with both nonces and a tag (the receiver's nonce is a free value), closed, and
read; a sealed command is refused without a session, on a wrong length, on a wrong tag (event 60, counted, and the session lost at VAR_SEAL_MAX
failures) and on a counter that does not rise; else its inner command (V1_STATUS is stated) answers under its counter and a tag. (R554, R555, R556,
R557) -/
def Obligations.SealedSessions : Prop :=
  ∀ (s : State), s.chip.hostReady [1] = true →
    (∀ slot nonce, keyFor s.keys slot 3 = none → Refuses (.sealOpen slot nonce) s [0x0A]) ∧
    (∀ slot nonce k, slot < 8 → keyFor s.keys slot 3 = some k → nonce.length = 8 → s.chip.reg 0xF19 < 0xFFFFFFFF → Ends (.sealOpen slot nonce) s fun c =>
      c.varn.nh = nonce ∧ c.varn.nr = (List.range 8).map (Config.noise s.chip.varn.drawn) ∧ c.reg 0xF05 = slot + 8 ∧
        c.replied ([0x00] ++ c.varn.nr ++ (cmac k.bytes ([0x4F] ++ nonce ++ c.varn.nr)).take 8) ∧ SameRegs ([0xF05, 0xF06, 0xF19] ++ hostRegs) s.chip c) ∧
    Ends .sealClose s (fun c => c.sealActive = false ∧ c.replied [0x00] ∧ SameRegs (0xF05 :: hostRegs) s.chip c) ∧
    (s.chip.sealActive = false → Answers .sealStatus s ([0x00, 0xFF] ++ le 4 (s.chip.reg 0xF06) ++ [b8 (s.chip.field 0xF05 4 4)])) ∧
    (s.chip.sealActive = true → Answers .sealStatus s ([0x00, b8 (s.chip.field 0xF05 0 3)] ++ le 4 (s.chip.reg 0xF06) ++ [b8 (s.chip.field 0xF05 4 4)])) ∧
    (∀ ctr i p t a b, 241 < p.length ∨ t.length ≠ 8 → Refuses (.sealCmd ctr i p t a b) s [0x0A]) ∧
    (∀ ctr i p t a b, p.length ≤ 241 → t.length = 8 → s.chip.sealActive = false → Refuses (.sealCmd ctr i p t a b) s [0x08]) ∧
    (∀ k, s.chip.sealActive = true → Tbl.find s.keys (s.chip.field 0xF05 0 3) = some k → s.chip.slotCtr (s.chip.field 0xF05 0 3) ≠ 0xFFFFFFFF → s.chip.reg 0xF19 < 0xFFFFFFFF →
      (∀ (ctr : Word) i p t a b, p.length ≤ 241 → t.length = 8 → t ≠ s.chip.sealTag k 0x43 (le 4 ctr.toNat ++ [b8 i, b8 p.length] ++ p) → s.chip.reg 0xF1A < 0xFFFFFFFF →
        s.chip.field 0xF05 4 4 + 1 < s.chip.reg 0xF04 → Ends (.sealCmd ctr i p t a b) s fun c =>
          c.isPending 60 = true ∧ c.reg 0xF1A = s.chip.reg 0xF1A + 1 ∧ c.sealActive = true ∧ c.field 0xF05 4 4 = (s.chip.field 0xF05 4 4 + 1) % 16 ∧ c.replied [0x08] ∧
            SameRegs ([0xF05, 0xF19, 0xF1A] ++ hostRegs) s.chip c) ∧
      (∀ (ctr : Word) i p t a b, p.length ≤ 241 → t.length = 8 → t = s.chip.sealTag k 0x43 (le 4 ctr.toNat ++ [b8 i, b8 p.length] ++ p) → ctr.toNat ≤ s.chip.slotCtr (s.chip.field 0xF05 0 3) →
        s.chip.reg 0xF04 ≤ s.chip.field 0xF05 4 4 + 1 → Ends (.sealCmd ctr i p t a b) s fun c => c.sealActive = false ∧ c.replied [0x08] ∧ SameRegs ([0xF05, 0xF19] ++ hostRegs) s.chip c) ∧
      (∀ (ctr : Word) t a b, t.length = 8 → t = s.chip.sealTag k 0x43 (le 4 ctr.toNat ++ [0x20, 0x00]) → s.chip.slotCtr (s.chip.field 0xF05 0 3) < ctr.toNat →
        Ends (.sealCmd ctr 0x20 [] t a b) s fun c => c.slotCtr (s.chip.field 0xF05 0 3) = ctr.toNat ∧ c.reg 0xF06 = ctr.toNat ∧ c.field 0xF05 4 4 = 0 ∧
          c.replied ([0x00] ++ le 4 ctr.toNat ++ s.chip.taken.v1StatusCmd ++ s.chip.sealTag k 0x52 (le 4 ctr.toNat ++ s.chip.taken.v1StatusCmd))))

/-! Varnish. -/

/-- The key slots: a blob that unwraps under the root key and matches its header fills its slot, where it was empty or held another key, and shows itself in VAR_SLOTS,
VAR_KEY_ID and VAR_KEY_ATTR; a key with the attributes and identifier of the one that stands changes nothing; a blob that does not unwrap is refused with SEAL_FAIL
and counted; erasing empties the slots named, whatever they and the others hold, and steps the generation where one was occupied (R540, R541, R553). -/
def Obligations.KeySlotCommands : Prop :=
  ∀ (s : State), s.chip.hostReady [2, 3] = true → s.chip.reg 0xF19 < 0xFFFFFFFF → s.chip.reg 0xF1A < 0xFFFFFFFF →
    (∀ b, blobOk b = false → Refuses (.varKeyLoad b) s [0x0A]) ∧
    (∀ b slot ident attr, blobOk b = true → slot = leAt b 2 1 → ident = w32 (leAt b 4 4) → attr = leAt b 3 1 % 16 + 256 * leAt b 1 1 →
      ∃ t, exec (.varKeyLoad b) s = .next t ∧ t.pending = s.pending ∧ match blobKey b with
        | none => t.keys = s.keys ∧ t.chip.replied [0x08] ∧ t.chip.reg 0xF1A = s.chip.reg 0xF1A + 1 ∧ t.chip.reg 0xF19 = s.chip.reg 0xF19 + 1 ∧
            SameRegs ([0xF19, 0xF1A] ++ hostRegs) s.chip t.chip
        | some k => t.chip.replied [0x00] ∧
            ((∀ old, Tbl.find s.keys slot = some old → ¬ (old.ident = ident ∧ old.attr = attr)) →
              Tbl.find t.keys slot = some { bytes := k, ident := ident, attr := attr } ∧ (∀ n, n ≠ slot → Tbl.find t.keys n = Tbl.find s.keys n) ∧
                t.chip.bit 0xF03 slot = true ∧ t.chip.reg (0xF08 + slot) = leAt b 4 4 ∧ t.chip.reg (0xF10 + slot) = attr &&& maskAt (0xF10 + slot)) ∧
            (∀ old, Tbl.find s.keys slot = some old → old.ident = ident → old.attr = attr → t.keys = s.keys ∧ SameRegs (0xF19 :: hostRegs) s.chip t.chip) ∧
            (Tbl.find s.keys slot = none → SameRegs ([0xF03, 0xF08 + slot, 0xF10 + slot, 0xF19] ++ hostRegs) s.chip t.chip)) ∧
    (∀ m, ∃ t, exec (.varKeyErase m) s = .next t ∧ t.pending = s.pending ∧ t.keys = (s.keys.filter fun e => !(m % 256).testBit e.1) ∧ t.chip.replied [0x00] ∧
      ((s.keys.filter fun e => (m % 256).testBit e.1) = [] → SameRegs hostRegs s.chip t.chip) ∧
      ((s.keys.filter fun e => (m % 256).testBit e.1) ≠ [] → t.chip.varn.ctxs = [] ∧ t.chip.sealActive = false ∧ t.chip.reg 0xF07 = (s.chip.reg 0xF07 + 1) % 65536)) ∧
    (∀ k, s.keys = [(5, k)] → s.chip.vers = [] → s.chip.link.queue = [] → ∃ t, exec (.varKeyErase 0x20) s = .next t ∧ t.pending = s.pending ∧ t.keys = [] ∧
      t.chip.bit 0xF03 5 = false ∧ t.chip.reg 0xF0D = 0 ∧ t.chip.reg 0xF15 = 0 ∧ t.chip.varn.ctxs = [] ∧ t.chip.sealActive = false ∧
        t.chip.reg 0xF07 = (s.chip.reg 0xF07 + 1) % 65536 ∧ t.chip.replied [0x00])

/-- Host computations: a context is started with a key that allows its use, fed, finished with a tag made or checked, saved as an image and taken back
(R538, R544, R545). -/
def Obligations.HostComputations : Prop :=
  ∀ (s : State), s.chip.hostReady [2, 3] = true → s.chip.reg 0xF19 < 0xFFFFFFFF → s.chip.reg 0xF1A < 0xFFFFFFFF →
    (∀ x slot kind, x < 4 → kind < 2 → (keyFor s.keys slot kind).isSome = true → Ends (.varStart x slot kind) s fun c =>
      Tbl.find c.varn.ctxs x = some { gen := kind == 1, slot := slot, count := 0, chain := zeros 16, part := [] } ∧
        (∀ y, y ≠ x → Tbl.find c.varn.ctxs y = Tbl.find s.chip.varn.ctxs y) ∧ c.replied [0x00] ∧ SameRegs hostRegs s.chip c) ∧
    (∀ x slot kind, 3 < x ∨ 1 < kind ∨ keyFor s.keys slot kind = none → Refuses (.varStart x slot kind) s [0x0A]) ∧
    (∀ x m, Tbl.find s.chip.varn.ctxs x = none → Refuses (.varUpdate x m) s [0x0A] ∧ (∀ t g, Refuses (.varFinish x t g) s [0x0A]) ∧ (∀ w, Refuses (.varCtxSave x w) s [0x0A])) ∧
    (∀ x v k, x < 4 → Tbl.find s.chip.varn.ctxs x = some v → keyFor s.keys v.slot (if v.gen then 1 else 0) = some k →
      (∀ m, m ≠ [] → m.length ≤ 254 → Ends (.varUpdate x m) s fun c => Tbl.find c.varn.ctxs x = some (v.feed k.bytes m) ∧ c.replied [0x00] ∧ SameRegs hostRegs s.chip c) ∧
      (∀ t, 4 ≤ t → t ≤ 16 → v.gen = true → Ends (.varFinish x t []) s fun c =>
        c.replied (0x00 :: (v.mac k.bytes).take t) ∧ Tbl.find c.varn.ctxs x = none ∧ c.reg 0xF19 = s.chip.reg 0xF19 + 1 ∧ SameRegs (0xF19 :: hostRegs) s.chip c) ∧
      (∀ t g, 4 ≤ t → t ≤ 16 → v.gen = false → g.length = t → g = (v.mac k.bytes).take t → Ends (.varFinish x t g) s fun c =>
        c.replied [0x00] ∧ Tbl.find c.varn.ctxs x = none ∧ SameRegs (0xF19 :: hostRegs) s.chip c) ∧
      (∀ t g, 4 ≤ t → t ≤ 16 → v.gen = false → g.length = t → g ≠ (v.mac k.bytes).take t → Ends (.varFinish x t g) s fun c =>
        c.replied [0x08] ∧ c.isPending 60 = true ∧ c.reg 0xF1A = s.chip.reg 0xF1A + 1 ∧ Tbl.find c.varn.ctxs x = none ∧ SameRegs ([0xF19, 0xF1A] ++ hostRegs) s.chip c) ∧
      (∀ t g, t < 4 ∨ 16 < t → Refuses (.varFinish x t g) s [0x0A]) ∧
      (v.gen = true → s.chip.bit 0xF00 1 = false → Answers (.varCtxSave x 0) s (0x00 :: v.image k)) ∧
      (v.gen = false → Refuses (.varCtxSave x 0) s [0x0A]) ∧
      Ends (.varCtxSave x 1) s (fun c => c.replied (0x00 :: keyWrap Config.contextKey (v.image k)) ∧ c.reg 0xF19 = s.chip.reg 0xF19 + 1 ∧ SameRegs (0xF19 :: hostRegs) s.chip c)) ∧
    (∀ x m k, x < 4 → m.length = 48 → s.chip.bit 0xF00 1 = false → leAt m 0 1 = 1 → leAt m 1 1 = 1 → leAt m 2 1 ≤ 7 → leAt m 3 1 ≤ 16 →
      keyFor s.keys (leAt m 2 1) 1 = some k →
      (k.ident.toNat = leAt m 4 4 → Ends (.varCtxLoad x m) s fun c => Tbl.find c.varn.ctxs x =
        some { gen := true, slot := leAt m 2 1, count := leAt m 8 4, chain := (m.drop 16).take 16, part := (m.drop 32).take (leAt m 3 1) } ∧ c.replied [0x00] ∧ SameRegs hostRegs s.chip c) ∧
      (k.ident.toNat ≠ leAt m 4 4 → Refuses (.varCtxLoad x m) s [0x08])) ∧
    (∀ x m, m.length ≠ 48 → m.length ≠ 56 → Refuses (.varCtxLoad x m) s [0x0A])

/-- Verified streams: attached to a job that carries main-channel data, detached with their open messages revoked, and judged message by message; a fault alarm
counts, discards what it interrupted, and with VAR_FAULT_CFG[0] erases every key (R546, R548, R552). -/
def Obligations.VerifiedStreams : Prop :=
  ∀ (s : State),
    (s.chip.hostReady [2, 3] = true →
      (∀ j slot mode t stream, s.chip.job? j = none → Refuses (.varAttach j slot mode t stream) s [0x0A]) ∧
      (∀ j x slot t, s.chip.job? j = some x → dKind x.desc = 2 → Tbl.find s.chip.vers j = none → 4 ≤ t → t ≤ 16 → (keyFor s.keys slot 0).isSome = true →
        (dClass x.desc ≠ 0 → s.chip.reg 0xF18 + declaredRate x.desc ≤ 1500000 → Ends (.varAttach j slot 0 t 0) s fun c =>
          Tbl.find c.vers j = some { slot := slot, prov := false, tlen := t, stream := 0, ctr := 0, told := false, msgs := [], lastSeq := none } ∧ c.replied [0x00] ∧
            (∀ i, i ≠ j → Tbl.find c.vers i = Tbl.find s.chip.vers i) ∧ SameRegs (0xF18 :: hostRegs) s.chip c) ∧
        (dClass x.desc = 0 → Refuses (.varAttach j slot 0 t 0) s [0x02]) ∧
        (dClass x.desc ≠ 0 → 1500000 < s.chip.reg 0xF18 + declaredRate x.desc → Refuses (.varAttach j slot 0 t 0) s [0x01]) ∧
        (s.chip.reg 0x501 = 2 → Refuses (.varAttach j slot 1 t 0) s [0x07])) ∧
      (∀ j, Tbl.find s.chip.vers j = none → Refuses (.varDetach j) s [0x0A]) ∧
      (∀ j v, Tbl.find s.chip.vers j = some v → v.msgs = [] → (s.chip.out.queue.all fun x => x.job != some j && !x.bad) = true → Ends (.varDetach j) s fun c =>
        Tbl.find c.vers j = none ∧ c.replied [0x00] ∧ (∀ i, i ≠ j → Tbl.find c.vers i = Tbl.find s.chip.vers i) ∧ SameButRecords (0xF18 :: hostRegs) s.chip c)) ∧
    (s.chip.ctlOn = true → s.chip.reg 0xF19 < 0xFFFFFFFF → s.chip.reg 0xF1A < 0xFFFFFFFF → s.chip.reg 0xF1C < 0xFFFFFFFF → ∀ j v m k, Tbl.find s.chip.vers j = some v → v.prov = true →
      v.msgs = [m] → m.complete = true → 8 ≤ m.bytes.length → Tbl.find s.keys v.slot = some k →
      ((cmac k.bytes (m.bytes.take (8 + m.len))).take v.tlen = m.bytes.drop (8 + m.len) → v.ctr < m.counter → Ends (.verifiedMessageVerdict j) s fun c =>
        (∃ w, Tbl.find c.vers j = some w ∧ w.ctr = m.counter ∧ w.msgs = []) ∧ c.reg 0xF19 = s.chip.reg 0xF19 + 1 ∧
          SameButRecords [0xF19] s.chip c) ∧
      ((cmac k.bytes (m.bytes.take (8 + m.len))).take v.tlen ≠ m.bytes.drop (8 + m.len) → Ends (.verifiedMessageVerdict j) s fun c =>
        (∃ w, Tbl.find c.vers j = some w ∧ w.ctr = v.ctr ∧ w.msgs = []) ∧ c.isPending 60 = true ∧ c.reg 0xF1A = s.chip.reg 0xF1A + 1 ∧
          c.reg 0xF1C = s.chip.reg 0xF1C + 1)) ∧
    (∀ j, Tbl.find s.chip.vers j = none → Becomes (.verifiedMessageVerdict j) s s.chip) ∧
    (s.chip.ctlOn = true → s.chip.asleep = false → s.chip.boot.done = true → s.chip.replyPending = false → s.chip.bus.stretch = none → s.chip.reg 0xF1B < 0xFFFFFFFF →
      (s.chip.bit 0xF02 0 = false → Ends (.varnishFaultAlarm 0 0) s fun c => c.replied [0x08] ∧ c.reg 0xF1B = s.chip.reg 0xF1B + 1 ∧ SameRegs (0xF1B :: hostRegs) s.chip c) ∧
      (s.chip.bit 0xF02 0 = true → ∃ t, exec (.varnishFaultAlarm 3 0) s = .next t ∧ t.keys = [] ∧ t.pending = s.pending ∧ t.chip.varn.ctxs = []))

/-! The Studio link. -/

/-- States and the transmit queue: the link is enabled through SETTLING, a request during a frame waits for its end; frames are queued with an identifier, refused
for what Table 17-10 lists, and cancelled; the peer table is read (R493, R514, R516 to R520). -/
def Obligations.LinkStatesAndQueue : Prop :=
  ∀ (s : State),
    (s.chip.hostReady [2, 3] = true →
      (∀ st ok w, 2 < st → Refuses (.lnkSetState st ok w) s [0x0A]) ∧
      (∀ st ok w, st ≤ 2 → s.chip.reg 0xD00 = 6 → Refuses (.lnkSetState st ok w) s [0x03]) ∧
      (∀ st ok w, (st = 1 ∨ st = 2) → s.chip.reg 0xD00 = 0 → s.chip.paLost = false → preambleOk s.chip.lnkCfg (s.chip.reg 0xD04) = true →
        (ok = true ∨ s.chip.bit 0xD01 16 = false) → s.chip.taken.standingOk = true → Ends (.lnkSetState st ok w) s fun c =>
          c.reg 0xD00 = 5 ∧ c.link.want = st ∧ c.reg 0x220 = 1 ∧ c.field 0xD14 0 8 = 1 ∧ c.replied [0x00, b8 st]) ∧
      (∀ st (w : Word), (st = 1 ∨ st = 2) → s.chip.reg 0xD00 = 0 → s.chip.paLost = false → preambleOk s.chip.lnkCfg (s.chip.reg 0xD04) = true → s.chip.bit 0xD01 16 = true →
        Ends (.lnkSetState st false w) s fun c => c.reg 0xD00 = 0 ∧ c.field 0xD14 0 8 = 0 ∧ c.replied [0x0A] ∧ SameRegs (0xD14 :: hostRegs) s.chip c) ∧
      (∀ st ok w, st ≤ 2 → s.chip.reg 0xD00 ≠ 0 → s.chip.reg 0xD00 ≠ 6 → s.chip.paLost = false → s.chip.inFrame = true → Ends (.lnkSetState st ok w) s fun c =>
        c.link.req = some st ∧ c.reg 0xD00 = s.chip.reg 0xD00 ∧ c.replied [0x00, b8 st] ∧ SameRegs hostRegs s.chip c) ∧
      (∀ ok w, s.chip.reg 0xD00 ≠ 0 → s.chip.reg 0xD00 ≠ 6 → s.chip.inFrame = false → Ends (.lnkSetState 0 ok w) s fun c => c.reg 0xD00 = 0 ∧ c.link.queue = [] ∧ c.replied [0x00, 0x00]) ∧
      (∀ p, 10 ≤ p.length → p.length ≤ 255 → (s.chip.reg 0xD00 = 0 ∨ s.chip.reg 0xD00 = 6) → Refuses (.lnkSend p) s [0x03]) ∧
      (∀ p, p.length < 10 → Refuses (.lnkSend p) s [0x0A]) ∧
      (∀ p, 10 ≤ p.length → p.length ≤ 255 → (s.chip.reg 0xD00 = 1 ∨ s.chip.reg 0xD00 = 2) → s.chip.reg 0x220 = 2 → leAt p 0 1 = 0 → leAt p 2 2 = 0 →
        (s.chip.link.queue.filter fun e => e.kind == 0).length < 16 → s.chip.dutyOk (s.chip.airtime (p.length - 6)) = true → leAt p 1 1 = 0xFF →
        Ends (.lnkSend p) s fun c => (∃ e, c.link.queue = s.chip.link.queue ++ [e] ∧ e.id = s.chip.link.nextId ∧ e.kind = 0 ∧ e.dest = 0xFF ∧ e.secured = false ∧ e.pri = false ∧ e.timed = none ∧
            e.payload = p.drop 10 ∧ e.ver = s.chip.reg 0xD10) ∧
          c.replied ([0x00] ++ le 2 s.chip.link.nextId) ∧ SameRegs hostRegs s.chip c) ∧
      (∀ p, 10 ≤ p.length → p.length ≤ 255 → s.chip.reg 0xD00 = 1 → leAt p 0 1 = 0 → leAt p 2 2 = 0 →
        16 ≤ (s.chip.link.queue.filter fun e => e.kind == 0).length → Refuses (.lnkSend p) s [0x01]) ∧
      (∀ id e, s.chip.link.queue.find? (fun e => e.kind == 0 && e.id == id) = some e → Ends (.lnkCancel id) s fun c =>
        c.link.queue = s.chip.link.queue.erase e ∧ c.replied [0x00] ∧ SameRegs hostRegs s.chip c) ∧
      (∀ id, s.chip.link.queue = [] → s.chip.link.tx = none → Refuses (.lnkCancel id) s [0x0A]) ∧
      (∀ a p, s.chip.peer a = some p → Answers (.lnkPeer a) s ([0x00, b8 p.ver, b8 p.aerial, 0x00] ++ le 4 p.ctr ++ le 2 (ofSigned 16 p.rssi))) ∧
      (∀ a, s.chip.peer a = none → Answers (.lnkPeer a) s (List.replicate 10 0))) ∧
    (s.chip.ctlOn = true →
      (∀ st, s.chip.link.req = some st → s.chip.inFrame = false → s.chip.reg 0xD00 = 1 → st = 2 → Ends .lnkStateApply s fun c =>
        c.reg 0xD00 = (if s.chip.reg 0x220 = 0 then 5 else 2) ∧ c.link.req = none) ∧
      (s.chip.link.req = none ∨ s.chip.inFrame = true → Becomes .lnkStateApply s s.chip)) ∧
    Ends .lnkDutyMinute s (fun c => (∀ n, n < 6 → sumList (s.chip.account n) ≠ 0 → sumList ((s.chip.account n).take 60) ≠ 0 → c.account n = 0 :: (s.chip.account n).take 60 ∧
      c.reg (0xD20 + n) = sumList ((s.chip.account n).take 60) % 2 ^ 32) ∧ SameRegs [0xD20, 0xD21, 0xD22, 0xD23, 0xD24, 0xD25] s.chip c)

/-- Reception: level, preamble and sync take it from stage to stage, a timeout or a stronger signal ends it, and a frame is taken in where its CRC, version,
destination and tag are right (R497 to R501). -/
def Obligations.LinkReception : Prop :=
  ∀ (s : State), s.chip.ctlOn = true →
    (∀ q : Int, s.chip.reg 0xD00 = 2 → s.chip.int 0xD07 16 ≤ q → q ≤ 32767 → s.chip.link.rx = none → Ends (.lnkLevelDetect q) s fun c =>
      c.link.rx = some { stage := 1, level := q, aerial := 0, afc := 0, rssi := q, syncAt := 0, overlap := false } ∧ c.int 0xD12 16 = q ∧ SameRegs [0xD12] s.chip c) ∧
    (∀ q : Int, s.chip.reg 0xD00 ≠ 2 ∨ q < s.chip.int 0xD07 16 → Becomes (.lnkLevelDetect q) s s.chip) ∧
    (∀ r, s.chip.link.rx = some r →
      (∀ q (afc lev : Int) a, r.stage = 1 → s.chip.reg 0xD08 ≤ q → -32768 ≤ afc → afc ≤ 32767 → Ends (.lnkPreambleQualified q afc lev a) s fun c =>
        c.link.rx = some { r with stage := 2, level := lev, aerial := s.chip.rxAerial a, afc := afc } ∧ c.int 0xD13 16 = afc ∧ SameRegs [0xD13] s.chip c) ∧
      (∀ q afc lev a, q < s.chip.reg 0xD08 → Becomes (.lnkPreambleQualified q afc lev a) s s.chip) ∧
      (∀ q : Int, r.stage = 2 → s.chip.bit 0xD01 15 = false → Ends (.lnkSyncDetected q) s fun c =>
        c.link.rx = some { r with stage := 3, rssi := q, syncAt := s.chip.time.now } ∧ c.reg 0xD00 = 3) ∧
      (r.stage = 2 → s.chip.reg 0xD32 < 0xFFFFFFFF → Ends .lnkSyncTimeout s fun c => c.link.rx = none ∧ c.reg 0xD32 = s.chip.reg 0xD32 + 1 ∧ SameRegs [0xD32] s.chip c) ∧
      (∀ (lev afc : Int) a k n, r.stage = 2 → lev < r.level + 10 * (s.chip.reg 0xD09 : Int) → s.chip.reg 0xD35 < 0xFFFFFFFF → Ends (.lnkCaptureRestart lev afc a k n) s fun c =>
        c.link.rx = some { r with overlap := true } ∧ c.reg 0xD35 = s.chip.reg 0xD35 + 1 ∧ SameRegs [0xD35] s.chip c) ∧
      (∀ (lev afc : Int) a k n, r.stage = 2 → r.level + 10 * (s.chip.reg 0xD09 : Int) ≤ lev → s.chip.reg 0xD33 < 0xFFFFFFFF → Ends (.lnkCaptureRestart lev afc a k n) s fun c =>
        c.link.rx = some { stage := 2, level := lev, aerial := s.chip.rxAerial a, afc := afc, rssi := lev, syncAt := 0, overlap := false } ∧
          c.reg 0xD33 = s.chip.reg 0xD33 + 1 ∧ SameRegs [0xD13, 0xD33] s.chip c) ∧
      (∀ air f, r.stage = 3 → linkDecode (lcCoded s.chip.lnkCfg) air = f → leAt f.bytes 0 1 < 4 → s.chip.field 0xD01 8 2 = 0 → s.chip.reg 0xD31 < 0xFFFFFFFF → Ends (.lnkFrameEnd air) s fun c =>
        c.link.rx = none ∧ c.reg 0xD31 = s.chip.reg 0xD31 + 1 ∧ c.reg 0xD00 = 2 ∧ c.link.peers = s.chip.link.peers) ∧
      (∀ air f n, r.stage = 3 → linkDecode (lcCoded s.chip.lnkCfg) air = f → n = leAt f.bytes 0 1 → 4 ≤ n → f.bytes.length = n + 3 → leAt f.bytes (n + 1) 1 * 256 + leAt f.bytes (n + 2) 1 = (crc16 (f.bytes.take (n + 1))).toNat →
        bits (leAt f.bytes 1 1) 0 2 = 1 → bits (leAt f.bytes 1 1) 4 4 ≤ 2 → 1 ≤ s.chip.reg 0xD10 → leAt f.bytes 3 1 = 0xFF → leAt f.bytes 4 1 = 0 →
        s.chip.link.peers = [] → s.chip.field 0xD01 8 2 = 0 → s.chip.reg 0xD30 < 0xFFFFFFFF → Ends (.lnkFrameEnd air) s fun c =>
          c.link.rx = none ∧ c.reg 0xD30 = s.chip.reg 0xD30 + 1 ∧ c.isPending 56 = true ∧ c.reg 0xD00 = 2 ∧
            (∃ p, c.peer (leAt f.bytes 2 1) = some p ∧ p.ver = bits (leAt f.bytes 1 1) 2 2 ∧ p.rssi = r.rssi ∧ p.aerial = r.aerial)))

/-- Transmission: the entry whose turn it is takes the COEX request, ramps up with its bytes, and ends with a report and its airtime on the account; a grant that
does not come, falls, or a time that cannot be met ends it with its reason; alarm copies are queued at their gap (R504 to R508, R510, R511). -/
def Obligations.LinkTransmission : Prop :=
  ∀ (s : State), s.chip.ctlOn = true →
    (∀ e, (s.chip.reg 0xD00 = 1 ∨ s.chip.reg 0xD00 = 2) → s.chip.reg 0x220 = 2 → s.chip.inFrame = false → s.chip.link.queue = [e] → e.timed = none → s.chip.dutyOk (s.chip.airtime e.n) = true →
      (s.chip.bit 0xD01 7 = false ∨ s.chip.link.coexGnt = true → Ends .lnkTxDue s fun c => c.reg 0xD00 = 4 ∧ c.link.queue = [] ∧ c.link.coexReq = true ∧ c.link.coexPri = e.pri ∧
        c.link.sent = s.chip.frameOf e ∧ c.link.tx = some { ent := e, onAir := true, at_ := s.chip.time.now + coexLead, aerial := s.chip.txAerial e.dest, back := s.chip.reg 0xD00, power := s.chip.lnkPower }) ∧
      (s.chip.bit 0xD01 7 = true → s.chip.link.coexGnt = false → Ends .lnkTxDue s fun c => c.reg 0xD00 = 4 ∧ c.link.coexReq = true ∧ c.link.sent = s.chip.link.sent ∧
        c.link.tx = some { ent := e, onAir := false, at_ := s.chip.time.now + coexLead, aerial := s.chip.txAerial e.dest, back := s.chip.reg 0xD00, power := s.chip.lnkPower })) ∧
    (∀ e, s.chip.reg 0xD00 = 1 → s.chip.reg 0x220 = 2 → s.chip.inFrame = false → s.chip.link.queue = [e] → e.timed = none → s.chip.dutyOk (s.chip.airtime e.n) = false →
      s.chip.reg 0xD37 < 0xFFFFFFFF → Ends .lnkTxDue s fun c => c.link.queue = [] ∧ c.link.tx = none ∧ c.isPending 57 = true ∧ c.reg 0xD37 = s.chip.reg 0xD37 + 1 ∧
        SameButRecords [0xD37] s.chip c) ∧
    (s.chip.link.queue = [] → Becomes .lnkTxDue s s.chip) ∧
    (∀ t, s.chip.link.tx = some t →
      (t.onAir = false → t.ent.timed = none → Ends .coexGntRise s fun c => c.link.coexGnt = true ∧ c.link.sent = s.chip.frameOf t.ent ∧
        c.link.tx = some { t with onAir := true, at_ := max t.at_ s.chip.time.now, power := s.chip.lnkPower } ∧ SameRegs [] s.chip c) ∧
      (∀ u, t.onAir = false → t.ent.timed = some u → s.chip.rampOf u + 3 < s.chip.time.now → s.chip.reg 0xD37 < 0xFFFFFFFF → t.back = 1 →
        (Ends .coexGntRise s fun c => c.link.tx = none ∧ c.isPending 57 = true ∧ c.reg 0xD37 = s.chip.reg 0xD37 + 1 ∧ c.reg 0xD00 = 1) ∧
        (s.chip.link.queue = [] → Ends .lnkTxLate s fun c => c.link.tx = none ∧ c.isPending 57 = true ∧ c.reg 0xD37 = s.chip.reg 0xD37 + 1 ∧ c.reg 0xD00 = 1)) ∧
      (t.onAir = false → s.chip.reg 0xD37 < 0xFFFFFFFF → t.back = 2 → Ends .coexWaitTimeout s fun c => c.link.tx = none ∧ c.isPending 59 = true ∧ c.isPending 57 = true ∧
        c.link.coexReq = false ∧ c.reg 0xD37 = s.chip.reg 0xD37 + 1 ∧ c.reg 0xD00 = 2) ∧
      (s.chip.bit 0xD01 7 = false → Becomes .coexGntFall s { s.chip with link := { s.chip.link with coexGnt := false } }) ∧
      (s.chip.bit 0xD01 7 = true → t.onAir = true → s.chip.time.now < t.at_ → Ends .coexGntFall s fun c => c.link.tx = some { t with onAir := false } ∧ c.link.coexGnt = false ∧ SameRegs [] s.chip c) ∧
      (s.chip.bit 0xD01 7 = true → t.onAir = true → t.at_ ≤ s.chip.time.now → t.back = 1 → s.chip.field 0xD01 10 2 = 1 → s.chip.reg 0xD37 < 0xFFFFFFFF → Ends .coexGntFall s fun c =>
        c.link.tx = none ∧ c.link.coexReq = false ∧ c.isPending 57 = true ∧ c.reg 0xD37 = s.chip.reg 0xD37 + 1 ∧ c.reg 0xD00 = 1) ∧
      (∀ n, t.onAir = true → t.back = 1 → s.chip.field 0xD01 10 2 = 1 → s.chip.reg 0xD36 < 0xFFFFFFFF → s.chip.subBand = some n → Ends .lnkTxEnd s fun c => c.link.tx = none ∧
        c.link.coexReq = false ∧ c.isPending 57 = true ∧ c.reg 0xD36 = s.chip.reg 0xD36 + 1 ∧ c.reg 0xD00 = 1 ∧
        sumList (c.account n) = sumList (s.chip.account n) + s.chip.airtime t.ent.n)) ∧
    (s.chip.link.tx = none → Becomes .lnkTxEnd s s.chip ∧ Becomes .coexWaitTimeout s s.chip) ∧
    (∀ x, s.chip.link.copies = [x] → x.due ≤ s.chip.tick → s.chip.reg 0xD00 = 1 → s.chip.reg 0x220 = 2 → s.chip.link.queue = [] → s.chip.bit 0xD01 14 = false → Ends .lnkAlarmCopyDue s fun c =>
      (∃ e, c.link.queue = [e] ∧ e.kind = 1 ∧ e.pri = true ∧ e.dest = 0xFF ∧ e.payload = x.payload) ∧
        c.link.copies = (if x.left ≤ 1 then [] else [{ x with left := x.left - 1, due := x.due + s.chip.field 0xD0D 8 16 }]) ∧ SameRegs [] s.chip c) ∧
    (∀ x, s.chip.link.copies = [x] → s.chip.tick < x.due → Becomes .lnkAlarmCopyDue s s.chip)

/-! The control outputs and the tick. -/

/-- An update edge takes each channel one step: the code written takes effect, the slew limit and DAC_LIM hold, a sine moves on by its increment; DAC_CLR_N
forces and frees the outputs (R525 to R533). -/
def Obligations.ControlOutputEdges : Prop :=
  ∀ (s : State), s.chip.dacValid = true →
    (s.chip.updateClock = true → s.chip.bit 0xE40 2 = false → ∀ ch d, ch < 4 → s.chip.dac ch = d → d.rangeEdges = 0 → s.chip.dacInjects ch = false → s.chip.dacAlarm ch = false →
      (d.pend = true → d.sine = false → s.chip.reg (dacA ch 2) = 0 → s.chip.field (dacA ch 3) 0 16 ≤ s.chip.reg (dacA ch 0) → s.chip.reg (dacA ch 0) ≤ s.chip.field (dacA ch 3) 16 16 →
        Ends .dacUpdateEdge s fun c => c.reg (dacA ch 0x0A) = s.chip.reg (dacA ch 0) ∧ c.reg (dacA ch 9) = 0 ∧ (c.dac ch).pend = false ∧ (c.dac ch).code = s.chip.reg (dacA ch 0)) ∧
      (d.pend = false → d.fresh = false → d.sine = false → s.chip.reg (dacA ch 0x0A) + s.chip.reg (dacA ch 2) < d.code → 0 < s.chip.reg (dacA ch 2) →
        s.chip.field (dacA ch 3) 0 16 ≤ s.chip.reg (dacA ch 0x0A) → d.code ≤ s.chip.field (dacA ch 3) 16 16 → Ends .dacUpdateEdge s fun c =>
          c.reg (dacA ch 0x0A) = s.chip.reg (dacA ch 0x0A) + s.chip.reg (dacA ch 2) ∧ c.reg (dacA ch 9) = 2 ∧ (c.dac ch).code = d.code) ∧
      (d.pend = false → d.fresh = false → d.sine = true → Ends .dacUpdateEdge s fun c =>
        (c.dac ch).phase = (d.phase + s.chip.reg (dacA ch 6)) % 2 ^ 32 ∧ c.reg (dacA ch 9) = 3 ∧
          c.reg (dacA ch 0x0A) = s.chip.dacLimit ch (sineSample ((d.phase + s.chip.reg (dacA ch 6)) % 2 ^ 32) (s.chip.reg (dacA ch 7)) (s.chip.reg (dacA ch 8))))) ∧
    (s.chip.updateClock = true → s.chip.bit 0xE40 2 = true → Ends .dacUpdateEdge s fun c => ∀ ch, ch < 4 → c.reg (dacA ch 9) = 1 ∧ c.reg (dacA ch 0x0A) = s.chip.clrCode ch &&& 0xFFFF) ∧
    (s.chip.updateClock = false → Becomes .dacUpdateEdge s s.chip) ∧
    (∀ n, n < 3 → Ends (.dacClrNFall n) s fun c => c.bit 0xE40 2 = true ∧ c.field 0xE40 0 2 = n ∧
      ∀ ch, ch < 4 → c.reg (dacA ch 9) = 1 ∧ c.reg (dacA ch 0x0A) = (if n = 0 then 0 else if n = 1 then 0x8000 else 0xFFFF)) ∧
    (∀ ch, ch < 4 → (s.chip.dac ch).rangeEdges = 0 → (s.chip.dac ch).fresh = false → s.chip.dacInjects ch = false → s.chip.dacAlarm ch = false → (s.chip.dac ch).sine = false →
      s.chip.field (dacA ch 3) 0 16 ≤ (s.chip.dac ch).code → (s.chip.dac ch).code ≤ s.chip.field (dacA ch 3) 16 16 → (s.chip.dac ch).code < 65536 → Ends .dacClrNRise s fun c =>
        c.bit 0xE40 2 = false ∧ c.reg (dacA ch 0x0A) = (s.chip.dac ch).code ∧ c.reg (dacA ch 9) = 0) ∧
    Ends .dacClrNRise s (fun c => c.bit 0xE40 2 = false) ∧
    (∀ t : State, t.chip.dacValid = false → (∀ n, Becomes (.dacClrNFall n) t t.chip) ∧ Becomes .dacClrNRise t t.chip ∧ Becomes .dacUpdateEdge t t.chip)

/-- A tick boundary: studio time reaches the next multiple of 32,000 counts, or without the CPLL's clock the first always-on edge from there on. Without CTL nothing
else happens; in a Sketch sleep the boundary waits for the wake; one that was processed before studio time stepped back is not run again. A deep sleep asked for begins
in it, with every parameter that is not kept at its Reset column (those of the front ends' failed converters apart). A waiting write that is due (pages 0x0A to 0x0D,
those with an effect of their own and 0xC6F excepted) comes into force with the bits of its field. (R11, R29, R32, R366, R375, R377) -/
def Obligations.TickBoundaries : Prop :=
  ∀ (s : State) (m : TickMeas), s.chip.bus.v1Wait = none →
    (s.chip.reg 0x210 = 2 → s.chip.nextEdge = (s.chip.time.now / 32000 + 1) * 32000) ∧
    (s.chip.ctlOn = false → exec (.tickBoundary m) s = .next { s with keys := [], chip := { s.chip with time := { s.chip.time with
      now := s.chip.nextEdge, tick := s.chip.nextEdge / 32000 + 1 } } }) ∧
    (s.chip.ctlOn = true → s.chip.asleep = true → Becomes (.tickBoundary m) s { s.chip with time := { s.chip.time with now := s.chip.nextEdge } }) ∧
    (s.chip.ctlOn = true → s.chip.time.now / 32000 + 1 < s.chip.time.tick → Becomes (.tickBoundary m) s { s.chip with time := { s.chip.time with now := s.chip.nextEdge } }) ∧
    (s.chip.ctlOn = true → s.chip.asleep = false → s.chip.upToDate = true → s.chip.time.tick ≤ s.chip.time.now / 32000 + 1 → s.chip.staged = [] → s.chip.power.deepPending = true → EndsPowered (.tickBoundary m) s fun c =>
      c.power.deep = true ∧ c.boot.done = false ∧ s.chip.nextEdge ≤ c.time.now ∧ ∀ a, keptAt true a = false → a / 256 ∉ [8, 9] → c.reg a = resetAt a % 2 ^ 32) ∧
    (∀ a (w : Word), s.chip.staged = [(a, w)] → special a = false → s.chip.dueNow a = true → a / 256 ∈ [0x0A, 0x0B, 0x0C, 0x0D] → a ≠ 0xC6F →
      (s.chip.applyWrites).reg a = w.toNat &&& maskAt a ∧ (s.chip.applyWrites).staged = [])

/-- The boundary of a receiver that is awake completes: the tick that ends is taken in whole by tickStep, with its measurements, the writes that wait and everything that
is scheduled for it; studio time has then reached the boundary, the scan has its own part, and a V1_TUNE that waits is void where its lane's generation stepped (R32, R36). -/
def Obligations.TickBoundaryCompletes : Prop :=
  ∀ (s : State) (m : TickMeas), s.chip.ctlOn = true → s.chip.asleep = false → s.chip.time.now < 32000 * s.chip.time.tick → s.chip.time.tick ≤ s.chip.time.now / 32000 + 1 →
    ∃ (t : State) (d : Chip), exec (.tickBoundary m) s = .next t ∧ t.pending = s.pending ∧ t.chip = d.scanTick.tuneVoid s.keys ∧ t.keys = (if t.chip.ctlOn then s.keys else []) ∧
      d = { s.chip.tickStep m false with time := { (s.chip.tickStep m false).time with now := max (s.chip.tickStep m false).time.now s.chip.nextEdge } } ∧
      s.chip.nextEdge ≤ d.time.now ∧ 32000 * s.chip.time.tick ≤ d.time.now
end

