-- ==== Sys2Proof/Laws/Tbl.lean ====
section
/-! SUPPORT. What the sparse tables do: a read after a write, and the canonical form kept by every operation. -/

namespace Sys2Proof.Laws

open Sys2Proof.Machine

theorem tbl_find_put_same {α : Type} (t : Tbl α) (k : Nat) (v : α) : Tbl.find (Tbl.put t k v) k = some v := by
  induction t with
  | nil => simp [Tbl.put, Tbl.find]
  | cons e r ih =>
    obtain ⟨i, x⟩ := e
    simp only [Tbl.put]
    split
    · simp [Tbl.find]
    · split
      · simp [Tbl.find]
      · rename_i h1 h2
        simp [Tbl.find, ih, Ne.symm h2]

theorem tbl_find_put_other {α : Type} (t : Tbl α) (k j : Nat) (v : α) (h : j ≠ k) :
    Tbl.find (Tbl.put t k v) j = Tbl.find t j := by
  induction t with
  | nil => simp [Tbl.put, Tbl.find, Ne.symm h]
  | cons e r ih =>
    obtain ⟨i, x⟩ := e
    simp only [Tbl.put]
    split
    · simp [Tbl.find, Ne.symm h]
    · split
      · rename_i h2; subst h2; simp [Tbl.find, Ne.symm h]
      · simp only [Tbl.find, ih]

theorem tbl_find_del_other {α : Type} (t : Tbl α) (k j : Nat) (h : j ≠ k) :
    Tbl.find (Tbl.del t k) j = Tbl.find t j := by
  induction t with
  | nil => rfl
  | cons e r ih =>
    obtain ⟨i, x⟩ := e
    simp only [Tbl.del]
    split
    · rename_i h2; subst h2; simp [Tbl.find, Ne.symm h, ih]
    · simp only [Tbl.find, ih]

theorem tbl_find_above {α : Type} (t : Tbl α) (k j : Nat) (h : Tbl.above k t = true) (hj : j ≤ k) : Tbl.find t j = none := by
  induction t with
  | nil => rfl
  | cons e r ih =>
    obtain ⟨i, x⟩ := e
    simp only [Tbl.above, Bool.and_eq_true, decide_eq_true_eq] at h
    have : i ≠ j := by omega
    simp [Tbl.find, this, ih h.2]

theorem tbl_find_del_same {α : Type} (t : Tbl α) (k : Nat) : Tbl.find (Tbl.del t k) k = none := by
  induction t with
  | nil => rfl
  | cons e r ih =>
    obtain ⟨i, x⟩ := e
    simp only [Tbl.del]
    split
    · exact ih
    · rename_i h2; simp [Tbl.find, h2, ih]

/-- A read of the index just written gives the value written. -/
theorem tbl_get_set_same {α : Type} [DecidableEq α] (d : α) (t : Tbl α) (k : Nat) (v : α) :
    Tbl.get d (Tbl.set d t k v) k = v := by
  unfold Tbl.get Tbl.set
  split
  · rename_i hv; rw [tbl_find_del_same t k, hv]; rfl
  · rw [tbl_find_put_same]; rfl

/-- A write leaves every other index as it was. -/
theorem tbl_get_set_other {α : Type} [DecidableEq α] (d d' : α) (t : Tbl α) (k j : Nat) (v : α) (h : j ≠ k) :
    Tbl.get d' (Tbl.set d t k v) j = Tbl.get d' t j := by
  unfold Tbl.get Tbl.set
  split
  · rw [tbl_find_del_other t k j h]
  · rw [tbl_find_put_other t k j v h]

theorem tbl_above_put {α : Type} (t : Tbl α) (k j : Nat) (v : α) (h : Tbl.above j t = true) (hj : j < k) :
    Tbl.above j (Tbl.put t k v) = true := by
  induction t with
  | nil => simp [Tbl.put, Tbl.above, hj]
  | cons e r ih =>
    obtain ⟨i, x⟩ := e
    simp only [Tbl.above, Bool.and_eq_true, decide_eq_true_eq] at h
    simp only [Tbl.put]
    split
    · simp [Tbl.above, hj, h]
    · split
      · simp [Tbl.above, hj, h]
      · simp [Tbl.above, h, ih h.2]

theorem tbl_above_del {α : Type} (t : Tbl α) (k j : Nat) (h : Tbl.above j t = true) : Tbl.above j (Tbl.del t k) = true := by
  induction t with
  | nil => rfl
  | cons e r ih =>
    obtain ⟨i, x⟩ := e
    simp only [Tbl.above, Bool.and_eq_true, decide_eq_true_eq] at h
    simp only [Tbl.del]
    split
    · exact ih h.2
    · simp [Tbl.above, h, ih h.2]

theorem tbl_above_trans {α : Type} (t : Tbl α) (i j : Nat) (h : Tbl.above i t = true) (hj : j ≤ i) : Tbl.above j t = true := by
  induction t with
  | nil => rfl
  | cons e r ih =>
    obtain ⟨x, y⟩ := e
    simp only [Tbl.above, Bool.and_eq_true, decide_eq_true_eq] at h ⊢
    exact ⟨by omega, ih h.2⟩

/-- A write keeps the indices strictly rising. -/
theorem tbl_sorted_set {α : Type} [DecidableEq α] (d : α) (t : Tbl α) (k : Nat) (v : α) (h : Tbl.sorted t = true) :
    Tbl.sorted (Tbl.set d t k v) = true := by
  have hp : ∀ t : Tbl α, Tbl.sorted t = true → Tbl.sorted (Tbl.put t k v) = true := by
    intro t
    induction t with
    | nil => intro _; rfl
    | cons e r ih =>
      obtain ⟨i, x⟩ := e
      intro h
      simp only [Tbl.sorted, Bool.and_eq_true] at h
      simp only [Tbl.put]
      split
      · rename_i hki
        simp [Tbl.sorted, Tbl.above, hki, h, tbl_above_trans r i k h.1 (Nat.le_of_lt hki)]
      · split
        · rename_i hki; subst hki; simp [Tbl.sorted, h]
        · rename_i h1 h2
          simp [Tbl.sorted, ih h.2, tbl_above_put r k i v h.1 (by omega)]
  have hd : ∀ t : Tbl α, Tbl.sorted t = true → Tbl.sorted (Tbl.del t k) = true := by
    intro t
    induction t with
    | nil => intro _; rfl
    | cons e r ih =>
      obtain ⟨i, x⟩ := e
      intro h
      simp only [Tbl.sorted, Bool.and_eq_true] at h
      simp only [Tbl.del]
      split
      · exact ih h.2
      · simp [Tbl.sorted, ih h.2, tbl_above_del r k i h.1]
  unfold Tbl.set
  split
  · exact hd t h
  · exact hp t h

/-- A write keeps the canonical form. -/
theorem tbl_wf_set {α : Type} [DecidableEq α] (d : Nat → α) (t : Tbl α) (k : Nat) (v : α) (h : Tbl.wf d t = true) :
    Tbl.wf d (Tbl.set (d k) t k v) = true := by
  unfold Tbl.wf at h ⊢
  simp only [Bool.and_eq_true] at h ⊢
  refine ⟨tbl_sorted_set _ t k v h.1, ?_⟩
  have hp : v ≠ d k → ∀ t : Tbl α, (t.all fun e => !decide (e.2 = d e.1)) = true →
      ((Tbl.put t k v).all fun e => !decide (e.2 = d e.1)) = true := by
    intro hv t
    induction t with
    | nil => intro _; simp [Tbl.put, hv]
    | cons e r ih =>
      obtain ⟨i, x⟩ := e
      intro h
      simp only [List.all_cons, Bool.and_eq_true] at h
      simp only [Tbl.put]
      split
      · simp only [List.all_cons, Bool.and_eq_true]; exact ⟨by simp [hv], h⟩
      · split
        · simp only [List.all_cons, Bool.and_eq_true]; exact ⟨by simp [hv], h.2⟩
        · simp only [List.all_cons, Bool.and_eq_true]; exact ⟨h.1, ih h.2⟩
  have hd : ∀ t : Tbl α, (t.all fun e => !decide (e.2 = d e.1)) = true →
      ((Tbl.del t k).all fun e => !decide (e.2 = d e.1)) = true := by
    intro t
    induction t with
    | nil => intro h; exact h
    | cons e r ih =>
      obtain ⟨i, x⟩ := e
      intro h
      simp only [List.all_cons, Bool.and_eq_true] at h
      simp only [Tbl.del]
      split
      · exact ih h.2
      · simp only [List.all_cons, Bool.and_eq_true]; exact ⟨h.1, ih h.2⟩
  unfold Tbl.set
  split
  · exact hd t h.2
  · rename_i hv; exact hp hv t h.2

end Sys2Proof.Laws
end

