-- ==== Sys2Proof/Laws/Ops.lean ====
section
/-! SUPPORT. What the shared operations over the parameters do: a write changes one parameter; counters, events and pending bits touch the page of the events and their own SAT bit, and nothing else of the chip. -/

namespace Sys2Proof.Laws

open Sys2Proof Sys2Proof.Machine

/-- A write puts the bits that the table gives the field; every other parameter is unchanged. -/
theorem reg_put (c : Chip) (a v b : Nat) : (c.put a v).reg b = if b = a then (v &&& maskAt a) % 2 ^ 32 else c.reg b := by
  unfold Chip.reg Chip.raw Chip.put
  split
  · rename_i h; subst h; rw [tbl_get_set_same]; exact BitVec.toNat_ofNat _ _
  · rename_i h; rw [tbl_get_set_other _ _ _ _ _ _ h]

theorem reg_put_other (c : Chip) (a v b : Nat) (h : b ≠ a) : (c.put a v).reg b = c.reg b := by simp [reg_put, h]

theorem reg_put_same (c : Chip) (a v : Nat) : (c.put a v).reg a = (v &&& maskAt a) % 2 ^ 32 := by simp [reg_put]

theorem reg_put_full (c : Chip) (a v : Nat) (hm : maskAt a = 0xFFFFFFFF) (hv : v < 2 ^ 32) : (c.put a v).reg a = v := by
  rw [reg_put_same, hm, show (0xFFFFFFFF : Nat) = 2 ^ 32 - 1 from rfl, Nat.and_two_pow_sub_one_eq_mod,
    Nat.mod_mod, Nat.mod_eq_of_lt hv]

/-- A value that fits a field of `w` bits reads back. -/
theorem reg_put_fits (c : Chip) (a v w : Nat) (hm : maskAt a = 2 ^ w - 1) (hw : w ≤ 32) (hv : v < 2 ^ w) : (c.put a v).reg a = v := by
  rw [reg_put_same, hm, Nat.and_two_pow_sub_one_eq_mod, Nat.mod_eq_of_lt hv]
  exact Nat.mod_eq_of_lt (Nat.lt_of_lt_of_le hv (Nat.pow_le_pow_right (by decide) hw))

@[simp] theorem reg_stage (c : Chip) (a v b : Nat) : (c.stage a v).reg b = c.reg b := rfl

theorem view_stage (c : Chip) (a v b : Nat) : (c.stage a v).view b = if b = a then (v &&& maskAt a) % 2 ^ 32 else c.view b := by
  unfold Chip.view Chip.stage
  split
  · rename_i h; subst h; rw [tbl_find_put_same]; exact BitVec.toNat_ofNat _ _
  · rename_i h; rw [tbl_find_put_other _ _ _ _ h]; rfl

/-- A write leaves everything but the parameters alone. -/
theorem put_only (c : Chip) (a v : Nat) : ∃ r, c.put a v = { c with regs := r } := ⟨_, rfl⟩

theorem putBit_only (c : Chip) (a i : Nat) (b : Bool) : ∃ r, c.putBit a i b = { c with regs := r } := ⟨_, rfl⟩

theorem noteRaise_only (c : Chip) (n h d : Nat) : ∃ e, c.noteRaise n h d = { c with ev := e } := by
  unfold Chip.noteRaise; split
  · exact ⟨_, rfl⟩
  · exact ⟨c.ev, rfl⟩

theorem noteLegacy_only (c : Chip) (n h : Nat) : ∃ e, c.noteLegacy n h = { c with ev := e } := by
  unfold Chip.noteLegacy; split
  · exact ⟨_, rfl⟩
  · exact ⟨c.ev, rfl⟩

theorem makePending_only (c : Chip) (n : Nat) : ∃ r e, c.makePending n = { c with regs := r, ev := e } := by
  unfold Chip.makePending; split
  · exact ⟨c.regs, c.ev, rfl⟩
  · dsimp only; split <;> exact ⟨_, _, rfl⟩

theorem raiseSat_only (c : Chip) (g k : Nat) : ∃ r e, c.raiseSat g k = { c with regs := r, ev := e } := by
  obtain ⟨e, he⟩ := noteRaise_only c (64 + g) 0xA0000000 k
  obtain ⟨r, e', h⟩ := makePending_only { c with ev := e } (64 + g)
  exact ⟨r, e', by rw [Chip.raiseSat, he, h]⟩

theorem setSat_only (c : Chip) (a : Nat) : ∃ r e, c.setSat a = { c with regs := r, ev := e } := by
  unfold Chip.setSat; split
  · exact ⟨c.regs, c.ev, rfl⟩
  · rename_i sa b _
    split
    · exact ⟨c.regs, c.ev, rfl⟩
    · obtain ⟨r, h⟩ := putBit_only c sa b true
      obtain ⟨r', e', h'⟩ := raiseSat_only { c with regs := r } (satGroup a) a
      exact ⟨r', e', by rw [h, h']⟩

/-- Counting touches the parameters and the event latch, and nothing else of the chip. -/
theorem countBy_only (c : Chip) (a n : Nat) : ∃ r e, c.countBy a n = { c with regs := r, ev := e } := by
  unfold Chip.countBy; split
  · exact ⟨_, c.ev, rfl⟩
  · obtain ⟨r, h⟩ := put_only c a (maskAt a)
    obtain ⟨r', e', h'⟩ := setSat_only { c with regs := r } a
    exact ⟨r', e', by rw [h, h']⟩

theorem count_only (c : Chip) (a : Nat) : ∃ r e, c.count a = { c with regs := r, ev := e } := countBy_only c a 1

/-- Raising an event touches the parameters and the event latch, and nothing else of the chip. -/
theorem raise_only (c : Chip) (n h d : Nat) : ∃ r e, c.raise n h d = { c with regs := r, ev := e } := by
  obtain ⟨e, he⟩ := noteLegacy_only c n h
  obtain ⟨e1, h1⟩ := noteRaise_only { c with ev := e } n h (d % 2 ^ 32)
  obtain ⟨r2, e2, h2⟩ := makePending_only { c with ev := e1 } n
  obtain ⟨r3, e3, h3⟩ := count_only { c with regs := r2, ev := e2 } (0x140 + n)
  refine ⟨r3, e3, ?_⟩
  show (((c.noteLegacy n h).noteRaise n h (d % 2 ^ 32)).makePending n).count (0x140 + n) = _
  rw [he, h1, h2, h3]

/-! Which parameters an event or a counter may change. -/

theorem reg_ev (c : Chip) (e : EvSt) (b : Nat) : ({ c with ev := e } : Chip).reg b = c.reg b := rfl

theorem reg_noteRaise (c : Chip) (n h d b : Nat) : (c.noteRaise n h d).reg b = c.reg b := by
  obtain ⟨e, he⟩ := noteRaise_only c n h d; rw [he]; rfl

theorem reg_noteLegacy (c : Chip) (n h b : Nat) : (c.noteLegacy n h).reg b = c.reg b := by
  obtain ⟨e, he⟩ := noteLegacy_only c n h; rw [he]; rfl

/-- A pending bit lies in one of three parameters. -/
theorem reg_makePending (c : Chip) (n b : Nat) (h : b ≠ 0x100 + n / 32) (hs : b ≠ 0x104) : (c.makePending n).reg b = c.reg b := by
  unfold Chip.makePending; split
  · rfl
  · dsimp only; split
    · exact reg_put_other _ _ _ _ h
    · exact reg_put_other _ _ _ _ hs

theorem reg_raiseSat (c : Chip) (g k b : Nat) (hs : b ≠ 0x104) : (c.raiseSat g k).reg b = c.reg b := by
  unfold Chip.raiseSat
  have : ∀ c : Chip, (c.makePending (64 + g)).reg b = c.reg b := by
    intro c
    unfold Chip.makePending
    have h64 : ¬ (64 + g < 64) := by omega
    rw [if_neg h64]
    split
    · rfl
    · exact reg_put_other _ _ _ _ hs
  rw [this, reg_noteRaise]

theorem reg_setSat (c : Chip) (a b : Nat) (hs : b ≠ 0x104) (hb : ∀ x, satOf a = some x → b ≠ x.1) : (c.setSat a).reg b = c.reg b := by
  unfold Chip.setSat; split
  · rfl
  · rename_i sa i h
    split
    · rfl
    · rw [reg_raiseSat _ _ _ _ hs]
      exact reg_put_other _ _ _ _ (hb _ h)

/-- Counting changes the counter, its SAT bit and EVT_SAT_PEND only. -/
theorem reg_countBy_other (c : Chip) (a n b : Nat) (h : b ≠ a) (hs : b ≠ 0x104) (hb : ∀ x, satOf a = some x → b ≠ x.1) :
    (c.countBy a n).reg b = c.reg b := by
  unfold Chip.countBy; split
  · exact reg_put_other _ _ _ _ h
  · rw [reg_setSat _ _ _ hs hb]; exact reg_put_other _ _ _ _ h

theorem reg_count_other (c : Chip) (a b : Nat) (h : b ≠ a) (hs : b ≠ 0x104) (hb : ∀ x, satOf a = some x → b ≠ x.1) :
    (c.count a).reg b = c.reg b := reg_countBy_other c a 1 b h hs hb

/-- Raising one of the 64 events changes parameters of page 0x01 only. -/
theorem reg_raise_other (c : Chip) (n h d b : Nat) (hn : n < 64) (hb : b / 256 ≠ 1) : (c.raise n h d).reg b = c.reg b := by
  show ((((c.noteLegacy n h).noteRaise n h (d % 2 ^ 32)).makePending n).count (0x140 + n)).reg b = _
  have e : satOf (0x140 + n) = some (0x10A + n / 32, n % 32) := by
    unfold satOf; rw [if_pos (by omega)]; simp
  rw [reg_count_other _ _ _ (by omega) (by omega)
        (by intro x hx; rw [e] at hx; injection hx with hx; subst hx; dsimp only; omega),
      reg_makePending _ _ _ (by omega) (by omega), reg_noteRaise, reg_noteLegacy]

/-! Pending bits and counts after a raise. -/

/-- Setting a bit that was clear sets it. -/
theorem testBit_setBits (v i : Nat) : (setBits v i 1 1).testBit i = true := by
  unfold setBits bits
  have hp : 0 < 2 ^ i := Nat.two_pow_pos i
  have hd := Nat.div_add_mod v (2 ^ i)
  have hm := Nat.mod_lt v hp
  generalize v / 2 ^ i = q at hd ⊢
  generalize v % 2 ^ i = r at hd hm
  have e : v - q % 2 ^ 1 * 2 ^ i + 1 % 2 ^ 1 * 2 ^ i = 2 ^ i * (2 * (q / 2) + 1) + r := by
    obtain ⟨k, hk | hk⟩ : ∃ k, q = 2 * k ∨ q = 2 * k + 1 := ⟨q / 2, by omega⟩
    · subst hk
      have h1 : 2 * k % 2 ^ 1 = 0 := by omega
      have h2 : 2 * k / 2 = k := by omega
      rw [h1, h2, Nat.mul_add, ← hd]; omega
    · subst hk
      have h1 : (2 * k + 1) % 2 ^ 1 = 1 := by omega
      have h2 : (2 * k + 1) / 2 = k := by omega
      have h3 : 2 ^ i * (2 * k + 1) = 2 ^ i * (2 * k) + 2 ^ i := by rw [Nat.mul_add, Nat.mul_one]
      rw [h1, h2, ← hd, h3]; omega
  rw [e, Nat.testBit_eq_decide_div_mod_eq, Nat.mul_add_div hp, Nat.div_eq_of_lt hm]
  simp

theorem mask_evt (n : Nat) (hn : n < 64) : maskAt (0x100 + n / 32) = 0xFFFFFFFF := by
  rcases (by omega : n / 32 = 0 ∨ n / 32 = 1) with h | h <;> rw [h] <;> decide

/-- After a raise its event is pending (R559). -/
theorem pending_raise (c : Chip) (n h d : Nat) (hn : n < 64) : (c.raise n h d).isPending n = true := by
  show ((((c.noteLegacy n h).noteRaise n h (d % 2 ^ 32)).makePending n).count (0x140 + n)).isPending n = _
  have e : satOf (0x140 + n) = some (0x10A + n / 32, n % 32) := by
    unfold satOf; rw [if_pos (by omega)]; simp
  have hcount : ∀ x : Chip, (x.count (0x140 + n)).reg (0x100 + n / 32) = x.reg (0x100 + n / 32) := fun x =>
    reg_count_other _ _ _ (by omega) (by omega) (by intro y hy; rw [e] at hy; injection hy with hy; subst hy; dsimp only; omega)
  unfold Chip.isPending Chip.bit
  rw [if_pos hn, hcount]
  generalize (c.noteLegacy n h).noteRaise n h (d % 2 ^ 32) = x
  unfold Chip.makePending
  rw [if_pos hn]
  split
  · rename_i hp
    unfold Chip.isPending Chip.bit at hp
    rwa [if_pos hn] at hp
  · show ((x.put (0x100 + n / 32) (setBits (x.reg (0x100 + n / 32)) (n % 32) 1 1)).reg (0x100 + n / 32)).testBit (n % 32) = true
    rw [reg_put_same, mask_evt n hn, show (0xFFFFFFFF : Nat) = 2 ^ 32 - 1 from rfl, Nat.and_two_pow_sub_one_eq_mod, Nat.mod_mod,
      Nat.testBit_mod_two_pow, testBit_setBits]
    simp [Nat.mod_lt n (by decide : 0 < 32)]

/-- A counter below its largest value goes up by one (R565). -/
theorem reg_count_same (c : Chip) (a w : Nat) (hm : maskAt a = 2 ^ w - 1) (hw : w ≤ 32) (h : c.reg a + 1 < 2 ^ w) : (c.count a).reg a = c.reg a + 1 := by
  unfold Chip.count Chip.countBy
  rw [if_pos (by omega)]
  exact reg_put_fits c a _ w hm hw h

end Sys2Proof.Laws
end

