-- ==== Sys2Proof/Laws/State.lean ====
section
/-! SUPPORT. One lemma per field and update of the chip, and of the whole state: what an update leaves alone, true by unfolding it once. -/

namespace Sys2Proof.Laws

open Sys2Proof Sys2Proof.Machine

/-! `put` changes `regs` only. -/

@[simp] theorem put_time (c : Chip) (a v : Nat) : (c.put a v).time = c.time := rfl
@[simp] theorem put_clk (c : Chip) (a v : Nat) : (c.put a v).clk = c.clk := rfl
@[simp] theorem put_power (c : Chip) (a v : Nat) : (c.put a v).power = c.power := rfl
@[simp] theorem put_staged (c : Chip) (a v : Nat) : (c.put a v).staged = c.staged := rfl
@[simp] theorem put_gens (c : Chip) (a v : Nat) : (c.put a v).gens = c.gens := rfl
@[simp] theorem put_ev (c : Chip) (a v : Nat) : (c.put a v).ev = c.ev := rfl
@[simp] theorem put_out (c : Chip) (a v : Nat) : (c.put a v).out = c.out := rfl
@[simp] theorem put_bus (c : Chip) (a v : Nat) : (c.put a v).bus = c.bus := rfl
@[simp] theorem put_fes (c : Chip) (a v : Nat) : (c.put a v).fes = c.fes := rfl
@[simp] theorem put_adcs (c : Chip) (a v : Nat) : (c.put a v).adcs = c.adcs := rfl
@[simp] theorem put_wins (c : Chip) (a v : Nat) : (c.put a v).wins = c.wins := rfl
@[simp] theorem put_canvas (c : Chip) (a v : Nat) : (c.put a v).canvas = c.canvas := rfl
@[simp] theorem put_lanes (c : Chip) (a v : Nat) : (c.put a v).lanes = c.lanes := rfl
@[simp] theorem put_srcs (c : Chip) (a v : Nat) : (c.put a v).srcs = c.srcs := rfl
@[simp] theorem put_palette (c : Chip) (a v : Nat) : (c.put a v).palette = c.palette := rfl
@[simp] theorem put_jobs (c : Chip) (a v : Nat) : (c.put a v).jobs = c.jobs := rfl
@[simp] theorem put_sched (c : Chip) (a v : Nat) : (c.put a v).sched = c.sched := rfl
@[simp] theorem put_glimpses (c : Chip) (a v : Nat) : (c.put a v).glimpses = c.glimpses := rfl
@[simp] theorem put_gallery (c : Chip) (a v : Nat) : (c.put a v).gallery = c.gallery := rfl
@[simp] theorem put_afPool (c : Chip) (a v : Nat) : (c.put a v).afPool = c.afPool := rfl
@[simp] theorem put_swtLog (c : Chip) (a v : Nat) : (c.put a v).swtLog = c.swtLog := rfl
@[simp] theorem put_linkRef (c : Chip) (a v : Nat) : (c.put a v).linkRef = c.linkRef := rfl
@[simp] theorem put_follows (c : Chip) (a v : Nat) : (c.put a v).follows = c.follows := rfl
@[simp] theorem put_boot (c : Chip) (a v : Nat) : (c.put a v).boot = c.boot := rfl
@[simp] theorem put_enss (c : Chip) (a v : Nat) : (c.put a v).enss = c.enss := rfl
@[simp] theorem put_trl (c : Chip) (a v : Nat) : (c.put a v).trl = c.trl := rfl
@[simp] theorem put_trlOrder (c : Chip) (a v : Nat) : (c.put a v).trlOrder = c.trlOrder := rfl
@[simp] theorem put_trlUsed (c : Chip) (a v : Nat) : (c.put a v).trlUsed = c.trlUsed := rfl
@[simp] theorem put_trlPart (c : Chip) (a v : Nat) : (c.put a v).trlPart = c.trlPart := rfl
@[simp] theorem put_drms (c : Chip) (a v : Nat) : (c.put a v).drms = c.drms := rfl
@[simp] theorem put_fms (c : Chip) (a v : Nat) : (c.put a v).fms = c.fms := rfl
@[simp] theorem put_ams (c : Chip) (a v : Nat) : (c.put a v).ams = c.ams := rfl
@[simp] theorem put_alarms (c : Chip) (a v : Nat) : (c.put a v).alarms = c.alarms := rfl
@[simp] theorem put_almPend (c : Chip) (a v : Nat) : (c.put a v).almPend = c.almPend := rfl
@[simp] theorem put_almOrder (c : Chip) (a v : Nat) : (c.put a v).almOrder = c.almOrder := rfl
@[simp] theorem put_alertAt (c : Chip) (a v : Nat) : (c.put a v).alertAt = c.alertAt := rfl
@[simp] theorem put_gal (c : Chip) (a v : Nat) : (c.put a v).gal = c.gal := rfl
@[simp] theorem put_times (c : Chip) (a v : Nat) : (c.put a v).times = c.times := rfl
@[simp] theorem put_timeUse (c : Chip) (a v : Nat) : (c.put a v).timeUse = c.timeUse := rfl
@[simp] theorem put_timeStale (c : Chip) (a v : Nat) : (c.put a v).timeStale = c.timeStale := rfl
@[simp] theorem put_mscs (c : Chip) (a v : Nat) : (c.put a v).mscs = c.mscs := rfl
@[simp] theorem put_mscOrder (c : Chip) (a v : Nat) : (c.put a v).mscOrder = c.mscOrder := rfl
@[simp] theorem put_vers (c : Chip) (a v : Nat) : (c.put a v).vers = c.vers := rfl
@[simp] theorem put_swts (c : Chip) (a v : Nat) : (c.put a v).swts = c.swts := rfl
@[simp] theorem put_swtHigh (c : Chip) (a v : Nat) : (c.put a v).swtHigh = c.swtHigh := rfl
@[simp] theorem put_aport (c : Chip) (a v : Nat) : (c.put a v).aport = c.aport := rfl
@[simp] theorem put_audio (c : Chip) (a v : Nat) : (c.put a v).audio = c.audio := rfl
@[simp] theorem put_dacs (c : Chip) (a v : Nat) : (c.put a v).dacs = c.dacs := rfl
@[simp] theorem put_link (c : Chip) (a v : Nat) : (c.put a v).link = c.link := rfl
@[simp] theorem put_varn (c : Chip) (a v : Nat) : (c.put a v).varn = c.varn := rfl
@[simp] theorem put_free (c : Chip) (a v : Nat) : (c.put a v).free = c.free := rfl

/-! `stage` changes `staged` only. -/

@[simp] theorem stage_time (c : Chip) (a v : Nat) : (c.stage a v).time = c.time := rfl
@[simp] theorem stage_clk (c : Chip) (a v : Nat) : (c.stage a v).clk = c.clk := rfl
@[simp] theorem stage_power (c : Chip) (a v : Nat) : (c.stage a v).power = c.power := rfl
@[simp] theorem stage_regs (c : Chip) (a v : Nat) : (c.stage a v).regs = c.regs := rfl
@[simp] theorem stage_gens (c : Chip) (a v : Nat) : (c.stage a v).gens = c.gens := rfl
@[simp] theorem stage_ev (c : Chip) (a v : Nat) : (c.stage a v).ev = c.ev := rfl
@[simp] theorem stage_out (c : Chip) (a v : Nat) : (c.stage a v).out = c.out := rfl
@[simp] theorem stage_bus (c : Chip) (a v : Nat) : (c.stage a v).bus = c.bus := rfl
@[simp] theorem stage_fes (c : Chip) (a v : Nat) : (c.stage a v).fes = c.fes := rfl
@[simp] theorem stage_adcs (c : Chip) (a v : Nat) : (c.stage a v).adcs = c.adcs := rfl
@[simp] theorem stage_wins (c : Chip) (a v : Nat) : (c.stage a v).wins = c.wins := rfl
@[simp] theorem stage_canvas (c : Chip) (a v : Nat) : (c.stage a v).canvas = c.canvas := rfl
@[simp] theorem stage_lanes (c : Chip) (a v : Nat) : (c.stage a v).lanes = c.lanes := rfl
@[simp] theorem stage_srcs (c : Chip) (a v : Nat) : (c.stage a v).srcs = c.srcs := rfl
@[simp] theorem stage_palette (c : Chip) (a v : Nat) : (c.stage a v).palette = c.palette := rfl
@[simp] theorem stage_jobs (c : Chip) (a v : Nat) : (c.stage a v).jobs = c.jobs := rfl
@[simp] theorem stage_sched (c : Chip) (a v : Nat) : (c.stage a v).sched = c.sched := rfl
@[simp] theorem stage_glimpses (c : Chip) (a v : Nat) : (c.stage a v).glimpses = c.glimpses := rfl
@[simp] theorem stage_gallery (c : Chip) (a v : Nat) : (c.stage a v).gallery = c.gallery := rfl
@[simp] theorem stage_afPool (c : Chip) (a v : Nat) : (c.stage a v).afPool = c.afPool := rfl
@[simp] theorem stage_swtLog (c : Chip) (a v : Nat) : (c.stage a v).swtLog = c.swtLog := rfl
@[simp] theorem stage_linkRef (c : Chip) (a v : Nat) : (c.stage a v).linkRef = c.linkRef := rfl
@[simp] theorem stage_follows (c : Chip) (a v : Nat) : (c.stage a v).follows = c.follows := rfl
@[simp] theorem stage_boot (c : Chip) (a v : Nat) : (c.stage a v).boot = c.boot := rfl
@[simp] theorem stage_enss (c : Chip) (a v : Nat) : (c.stage a v).enss = c.enss := rfl
@[simp] theorem stage_trl (c : Chip) (a v : Nat) : (c.stage a v).trl = c.trl := rfl
@[simp] theorem stage_trlOrder (c : Chip) (a v : Nat) : (c.stage a v).trlOrder = c.trlOrder := rfl
@[simp] theorem stage_trlUsed (c : Chip) (a v : Nat) : (c.stage a v).trlUsed = c.trlUsed := rfl
@[simp] theorem stage_trlPart (c : Chip) (a v : Nat) : (c.stage a v).trlPart = c.trlPart := rfl
@[simp] theorem stage_drms (c : Chip) (a v : Nat) : (c.stage a v).drms = c.drms := rfl
@[simp] theorem stage_fms (c : Chip) (a v : Nat) : (c.stage a v).fms = c.fms := rfl
@[simp] theorem stage_ams (c : Chip) (a v : Nat) : (c.stage a v).ams = c.ams := rfl
@[simp] theorem stage_alarms (c : Chip) (a v : Nat) : (c.stage a v).alarms = c.alarms := rfl
@[simp] theorem stage_almPend (c : Chip) (a v : Nat) : (c.stage a v).almPend = c.almPend := rfl
@[simp] theorem stage_almOrder (c : Chip) (a v : Nat) : (c.stage a v).almOrder = c.almOrder := rfl
@[simp] theorem stage_alertAt (c : Chip) (a v : Nat) : (c.stage a v).alertAt = c.alertAt := rfl
@[simp] theorem stage_gal (c : Chip) (a v : Nat) : (c.stage a v).gal = c.gal := rfl
@[simp] theorem stage_times (c : Chip) (a v : Nat) : (c.stage a v).times = c.times := rfl
@[simp] theorem stage_timeUse (c : Chip) (a v : Nat) : (c.stage a v).timeUse = c.timeUse := rfl
@[simp] theorem stage_timeStale (c : Chip) (a v : Nat) : (c.stage a v).timeStale = c.timeStale := rfl
@[simp] theorem stage_mscs (c : Chip) (a v : Nat) : (c.stage a v).mscs = c.mscs := rfl
@[simp] theorem stage_mscOrder (c : Chip) (a v : Nat) : (c.stage a v).mscOrder = c.mscOrder := rfl
@[simp] theorem stage_vers (c : Chip) (a v : Nat) : (c.stage a v).vers = c.vers := rfl
@[simp] theorem stage_swts (c : Chip) (a v : Nat) : (c.stage a v).swts = c.swts := rfl
@[simp] theorem stage_swtHigh (c : Chip) (a v : Nat) : (c.stage a v).swtHigh = c.swtHigh := rfl
@[simp] theorem stage_aport (c : Chip) (a v : Nat) : (c.stage a v).aport = c.aport := rfl
@[simp] theorem stage_audio (c : Chip) (a v : Nat) : (c.stage a v).audio = c.audio := rfl
@[simp] theorem stage_dacs (c : Chip) (a v : Nat) : (c.stage a v).dacs = c.dacs := rfl
@[simp] theorem stage_link (c : Chip) (a v : Nat) : (c.stage a v).link = c.link := rfl
@[simp] theorem stage_varn (c : Chip) (a v : Nat) : (c.stage a v).varn = c.varn := rfl
@[simp] theorem stage_free (c : Chip) (a v : Nat) : (c.stage a v).free = c.free := rfl

/-! `stepGen` changes `gens` only. -/

@[simp] theorem stepGen_time (c : Chip) (k : Nat) : (c.stepGen k).time = c.time := rfl
@[simp] theorem stepGen_clk (c : Chip) (k : Nat) : (c.stepGen k).clk = c.clk := rfl
@[simp] theorem stepGen_power (c : Chip) (k : Nat) : (c.stepGen k).power = c.power := rfl
@[simp] theorem stepGen_regs (c : Chip) (k : Nat) : (c.stepGen k).regs = c.regs := rfl
@[simp] theorem stepGen_staged (c : Chip) (k : Nat) : (c.stepGen k).staged = c.staged := rfl
@[simp] theorem stepGen_ev (c : Chip) (k : Nat) : (c.stepGen k).ev = c.ev := rfl
@[simp] theorem stepGen_out (c : Chip) (k : Nat) : (c.stepGen k).out = c.out := rfl
@[simp] theorem stepGen_bus (c : Chip) (k : Nat) : (c.stepGen k).bus = c.bus := rfl
@[simp] theorem stepGen_fes (c : Chip) (k : Nat) : (c.stepGen k).fes = c.fes := rfl
@[simp] theorem stepGen_adcs (c : Chip) (k : Nat) : (c.stepGen k).adcs = c.adcs := rfl
@[simp] theorem stepGen_wins (c : Chip) (k : Nat) : (c.stepGen k).wins = c.wins := rfl
@[simp] theorem stepGen_canvas (c : Chip) (k : Nat) : (c.stepGen k).canvas = c.canvas := rfl
@[simp] theorem stepGen_lanes (c : Chip) (k : Nat) : (c.stepGen k).lanes = c.lanes := rfl
@[simp] theorem stepGen_srcs (c : Chip) (k : Nat) : (c.stepGen k).srcs = c.srcs := rfl
@[simp] theorem stepGen_palette (c : Chip) (k : Nat) : (c.stepGen k).palette = c.palette := rfl
@[simp] theorem stepGen_jobs (c : Chip) (k : Nat) : (c.stepGen k).jobs = c.jobs := rfl
@[simp] theorem stepGen_sched (c : Chip) (k : Nat) : (c.stepGen k).sched = c.sched := rfl
@[simp] theorem stepGen_glimpses (c : Chip) (k : Nat) : (c.stepGen k).glimpses = c.glimpses := rfl
@[simp] theorem stepGen_gallery (c : Chip) (k : Nat) : (c.stepGen k).gallery = c.gallery := rfl
@[simp] theorem stepGen_afPool (c : Chip) (k : Nat) : (c.stepGen k).afPool = c.afPool := rfl
@[simp] theorem stepGen_swtLog (c : Chip) (k : Nat) : (c.stepGen k).swtLog = c.swtLog := rfl
@[simp] theorem stepGen_linkRef (c : Chip) (k : Nat) : (c.stepGen k).linkRef = c.linkRef := rfl
@[simp] theorem stepGen_follows (c : Chip) (k : Nat) : (c.stepGen k).follows = c.follows := rfl
@[simp] theorem stepGen_boot (c : Chip) (k : Nat) : (c.stepGen k).boot = c.boot := rfl
@[simp] theorem stepGen_enss (c : Chip) (k : Nat) : (c.stepGen k).enss = c.enss := rfl
@[simp] theorem stepGen_trl (c : Chip) (k : Nat) : (c.stepGen k).trl = c.trl := rfl
@[simp] theorem stepGen_trlOrder (c : Chip) (k : Nat) : (c.stepGen k).trlOrder = c.trlOrder := rfl
@[simp] theorem stepGen_trlUsed (c : Chip) (k : Nat) : (c.stepGen k).trlUsed = c.trlUsed := rfl
@[simp] theorem stepGen_trlPart (c : Chip) (k : Nat) : (c.stepGen k).trlPart = c.trlPart := rfl
@[simp] theorem stepGen_drms (c : Chip) (k : Nat) : (c.stepGen k).drms = c.drms := rfl
@[simp] theorem stepGen_fms (c : Chip) (k : Nat) : (c.stepGen k).fms = c.fms := rfl
@[simp] theorem stepGen_ams (c : Chip) (k : Nat) : (c.stepGen k).ams = c.ams := rfl
@[simp] theorem stepGen_alarms (c : Chip) (k : Nat) : (c.stepGen k).alarms = c.alarms := rfl
@[simp] theorem stepGen_almPend (c : Chip) (k : Nat) : (c.stepGen k).almPend = c.almPend := rfl
@[simp] theorem stepGen_almOrder (c : Chip) (k : Nat) : (c.stepGen k).almOrder = c.almOrder := rfl
@[simp] theorem stepGen_alertAt (c : Chip) (k : Nat) : (c.stepGen k).alertAt = c.alertAt := rfl
@[simp] theorem stepGen_gal (c : Chip) (k : Nat) : (c.stepGen k).gal = c.gal := rfl
@[simp] theorem stepGen_times (c : Chip) (k : Nat) : (c.stepGen k).times = c.times := rfl
@[simp] theorem stepGen_timeUse (c : Chip) (k : Nat) : (c.stepGen k).timeUse = c.timeUse := rfl
@[simp] theorem stepGen_timeStale (c : Chip) (k : Nat) : (c.stepGen k).timeStale = c.timeStale := rfl
@[simp] theorem stepGen_mscs (c : Chip) (k : Nat) : (c.stepGen k).mscs = c.mscs := rfl
@[simp] theorem stepGen_mscOrder (c : Chip) (k : Nat) : (c.stepGen k).mscOrder = c.mscOrder := rfl
@[simp] theorem stepGen_vers (c : Chip) (k : Nat) : (c.stepGen k).vers = c.vers := rfl
@[simp] theorem stepGen_swts (c : Chip) (k : Nat) : (c.stepGen k).swts = c.swts := rfl
@[simp] theorem stepGen_swtHigh (c : Chip) (k : Nat) : (c.stepGen k).swtHigh = c.swtHigh := rfl
@[simp] theorem stepGen_aport (c : Chip) (k : Nat) : (c.stepGen k).aport = c.aport := rfl
@[simp] theorem stepGen_audio (c : Chip) (k : Nat) : (c.stepGen k).audio = c.audio := rfl
@[simp] theorem stepGen_dacs (c : Chip) (k : Nat) : (c.stepGen k).dacs = c.dacs := rfl
@[simp] theorem stepGen_link (c : Chip) (k : Nat) : (c.stepGen k).link = c.link := rfl
@[simp] theorem stepGen_varn (c : Chip) (k : Nat) : (c.stepGen k).varn = c.varn := rfl
@[simp] theorem stepGen_free (c : Chip) (k : Nat) : (c.stepGen k).free = c.free := rfl
@[simp] theorem stepGen_reg (c : Chip) (k : Nat) (x : Nat) : (c.stepGen k).reg x = c.reg x := rfl

/-! `modFe` changes `fes` only. -/

@[simp] theorem modFe_time (c : Chip) (k : Nat) (f : FeSt → FeSt) : (c.modFe k f).time = c.time := rfl
@[simp] theorem modFe_clk (c : Chip) (k : Nat) (f : FeSt → FeSt) : (c.modFe k f).clk = c.clk := rfl
@[simp] theorem modFe_power (c : Chip) (k : Nat) (f : FeSt → FeSt) : (c.modFe k f).power = c.power := rfl
@[simp] theorem modFe_regs (c : Chip) (k : Nat) (f : FeSt → FeSt) : (c.modFe k f).regs = c.regs := rfl
@[simp] theorem modFe_staged (c : Chip) (k : Nat) (f : FeSt → FeSt) : (c.modFe k f).staged = c.staged := rfl
@[simp] theorem modFe_gens (c : Chip) (k : Nat) (f : FeSt → FeSt) : (c.modFe k f).gens = c.gens := rfl
@[simp] theorem modFe_ev (c : Chip) (k : Nat) (f : FeSt → FeSt) : (c.modFe k f).ev = c.ev := rfl
@[simp] theorem modFe_out (c : Chip) (k : Nat) (f : FeSt → FeSt) : (c.modFe k f).out = c.out := rfl
@[simp] theorem modFe_bus (c : Chip) (k : Nat) (f : FeSt → FeSt) : (c.modFe k f).bus = c.bus := rfl
@[simp] theorem modFe_adcs (c : Chip) (k : Nat) (f : FeSt → FeSt) : (c.modFe k f).adcs = c.adcs := rfl
@[simp] theorem modFe_wins (c : Chip) (k : Nat) (f : FeSt → FeSt) : (c.modFe k f).wins = c.wins := rfl
@[simp] theorem modFe_canvas (c : Chip) (k : Nat) (f : FeSt → FeSt) : (c.modFe k f).canvas = c.canvas := rfl
@[simp] theorem modFe_lanes (c : Chip) (k : Nat) (f : FeSt → FeSt) : (c.modFe k f).lanes = c.lanes := rfl
@[simp] theorem modFe_srcs (c : Chip) (k : Nat) (f : FeSt → FeSt) : (c.modFe k f).srcs = c.srcs := rfl
@[simp] theorem modFe_palette (c : Chip) (k : Nat) (f : FeSt → FeSt) : (c.modFe k f).palette = c.palette := rfl
@[simp] theorem modFe_jobs (c : Chip) (k : Nat) (f : FeSt → FeSt) : (c.modFe k f).jobs = c.jobs := rfl
@[simp] theorem modFe_sched (c : Chip) (k : Nat) (f : FeSt → FeSt) : (c.modFe k f).sched = c.sched := rfl
@[simp] theorem modFe_glimpses (c : Chip) (k : Nat) (f : FeSt → FeSt) : (c.modFe k f).glimpses = c.glimpses := rfl
@[simp] theorem modFe_gallery (c : Chip) (k : Nat) (f : FeSt → FeSt) : (c.modFe k f).gallery = c.gallery := rfl
@[simp] theorem modFe_afPool (c : Chip) (k : Nat) (f : FeSt → FeSt) : (c.modFe k f).afPool = c.afPool := rfl
@[simp] theorem modFe_swtLog (c : Chip) (k : Nat) (f : FeSt → FeSt) : (c.modFe k f).swtLog = c.swtLog := rfl
@[simp] theorem modFe_linkRef (c : Chip) (k : Nat) (f : FeSt → FeSt) : (c.modFe k f).linkRef = c.linkRef := rfl
@[simp] theorem modFe_follows (c : Chip) (k : Nat) (f : FeSt → FeSt) : (c.modFe k f).follows = c.follows := rfl
@[simp] theorem modFe_boot (c : Chip) (k : Nat) (f : FeSt → FeSt) : (c.modFe k f).boot = c.boot := rfl
@[simp] theorem modFe_enss (c : Chip) (k : Nat) (f : FeSt → FeSt) : (c.modFe k f).enss = c.enss := rfl
@[simp] theorem modFe_trl (c : Chip) (k : Nat) (f : FeSt → FeSt) : (c.modFe k f).trl = c.trl := rfl
@[simp] theorem modFe_trlOrder (c : Chip) (k : Nat) (f : FeSt → FeSt) : (c.modFe k f).trlOrder = c.trlOrder := rfl
@[simp] theorem modFe_trlUsed (c : Chip) (k : Nat) (f : FeSt → FeSt) : (c.modFe k f).trlUsed = c.trlUsed := rfl
@[simp] theorem modFe_trlPart (c : Chip) (k : Nat) (f : FeSt → FeSt) : (c.modFe k f).trlPart = c.trlPart := rfl
@[simp] theorem modFe_drms (c : Chip) (k : Nat) (f : FeSt → FeSt) : (c.modFe k f).drms = c.drms := rfl
@[simp] theorem modFe_fms (c : Chip) (k : Nat) (f : FeSt → FeSt) : (c.modFe k f).fms = c.fms := rfl
@[simp] theorem modFe_ams (c : Chip) (k : Nat) (f : FeSt → FeSt) : (c.modFe k f).ams = c.ams := rfl
@[simp] theorem modFe_alarms (c : Chip) (k : Nat) (f : FeSt → FeSt) : (c.modFe k f).alarms = c.alarms := rfl
@[simp] theorem modFe_almPend (c : Chip) (k : Nat) (f : FeSt → FeSt) : (c.modFe k f).almPend = c.almPend := rfl
@[simp] theorem modFe_almOrder (c : Chip) (k : Nat) (f : FeSt → FeSt) : (c.modFe k f).almOrder = c.almOrder := rfl
@[simp] theorem modFe_alertAt (c : Chip) (k : Nat) (f : FeSt → FeSt) : (c.modFe k f).alertAt = c.alertAt := rfl
@[simp] theorem modFe_gal (c : Chip) (k : Nat) (f : FeSt → FeSt) : (c.modFe k f).gal = c.gal := rfl
@[simp] theorem modFe_times (c : Chip) (k : Nat) (f : FeSt → FeSt) : (c.modFe k f).times = c.times := rfl
@[simp] theorem modFe_timeUse (c : Chip) (k : Nat) (f : FeSt → FeSt) : (c.modFe k f).timeUse = c.timeUse := rfl
@[simp] theorem modFe_timeStale (c : Chip) (k : Nat) (f : FeSt → FeSt) : (c.modFe k f).timeStale = c.timeStale := rfl
@[simp] theorem modFe_mscs (c : Chip) (k : Nat) (f : FeSt → FeSt) : (c.modFe k f).mscs = c.mscs := rfl
@[simp] theorem modFe_mscOrder (c : Chip) (k : Nat) (f : FeSt → FeSt) : (c.modFe k f).mscOrder = c.mscOrder := rfl
@[simp] theorem modFe_vers (c : Chip) (k : Nat) (f : FeSt → FeSt) : (c.modFe k f).vers = c.vers := rfl
@[simp] theorem modFe_swts (c : Chip) (k : Nat) (f : FeSt → FeSt) : (c.modFe k f).swts = c.swts := rfl
@[simp] theorem modFe_swtHigh (c : Chip) (k : Nat) (f : FeSt → FeSt) : (c.modFe k f).swtHigh = c.swtHigh := rfl
@[simp] theorem modFe_aport (c : Chip) (k : Nat) (f : FeSt → FeSt) : (c.modFe k f).aport = c.aport := rfl
@[simp] theorem modFe_audio (c : Chip) (k : Nat) (f : FeSt → FeSt) : (c.modFe k f).audio = c.audio := rfl
@[simp] theorem modFe_dacs (c : Chip) (k : Nat) (f : FeSt → FeSt) : (c.modFe k f).dacs = c.dacs := rfl
@[simp] theorem modFe_link (c : Chip) (k : Nat) (f : FeSt → FeSt) : (c.modFe k f).link = c.link := rfl
@[simp] theorem modFe_varn (c : Chip) (k : Nat) (f : FeSt → FeSt) : (c.modFe k f).varn = c.varn := rfl
@[simp] theorem modFe_free (c : Chip) (k : Nat) (f : FeSt → FeSt) : (c.modFe k f).free = c.free := rfl
@[simp] theorem modFe_reg (c : Chip) (k : Nat) (f : FeSt → FeSt) (x : Nat) : (c.modFe k f).reg x = c.reg x := rfl

/-! `modAdc` changes `adcs` only. -/

@[simp] theorem modAdc_time (c : Chip) (k : Nat) (f : AdcSt → AdcSt) : (c.modAdc k f).time = c.time := rfl
@[simp] theorem modAdc_clk (c : Chip) (k : Nat) (f : AdcSt → AdcSt) : (c.modAdc k f).clk = c.clk := rfl
@[simp] theorem modAdc_power (c : Chip) (k : Nat) (f : AdcSt → AdcSt) : (c.modAdc k f).power = c.power := rfl
@[simp] theorem modAdc_regs (c : Chip) (k : Nat) (f : AdcSt → AdcSt) : (c.modAdc k f).regs = c.regs := rfl
@[simp] theorem modAdc_staged (c : Chip) (k : Nat) (f : AdcSt → AdcSt) : (c.modAdc k f).staged = c.staged := rfl
@[simp] theorem modAdc_gens (c : Chip) (k : Nat) (f : AdcSt → AdcSt) : (c.modAdc k f).gens = c.gens := rfl
@[simp] theorem modAdc_ev (c : Chip) (k : Nat) (f : AdcSt → AdcSt) : (c.modAdc k f).ev = c.ev := rfl
@[simp] theorem modAdc_out (c : Chip) (k : Nat) (f : AdcSt → AdcSt) : (c.modAdc k f).out = c.out := rfl
@[simp] theorem modAdc_bus (c : Chip) (k : Nat) (f : AdcSt → AdcSt) : (c.modAdc k f).bus = c.bus := rfl
@[simp] theorem modAdc_fes (c : Chip) (k : Nat) (f : AdcSt → AdcSt) : (c.modAdc k f).fes = c.fes := rfl
@[simp] theorem modAdc_wins (c : Chip) (k : Nat) (f : AdcSt → AdcSt) : (c.modAdc k f).wins = c.wins := rfl
@[simp] theorem modAdc_canvas (c : Chip) (k : Nat) (f : AdcSt → AdcSt) : (c.modAdc k f).canvas = c.canvas := rfl
@[simp] theorem modAdc_lanes (c : Chip) (k : Nat) (f : AdcSt → AdcSt) : (c.modAdc k f).lanes = c.lanes := rfl
@[simp] theorem modAdc_srcs (c : Chip) (k : Nat) (f : AdcSt → AdcSt) : (c.modAdc k f).srcs = c.srcs := rfl
@[simp] theorem modAdc_palette (c : Chip) (k : Nat) (f : AdcSt → AdcSt) : (c.modAdc k f).palette = c.palette := rfl
@[simp] theorem modAdc_jobs (c : Chip) (k : Nat) (f : AdcSt → AdcSt) : (c.modAdc k f).jobs = c.jobs := rfl
@[simp] theorem modAdc_sched (c : Chip) (k : Nat) (f : AdcSt → AdcSt) : (c.modAdc k f).sched = c.sched := rfl
@[simp] theorem modAdc_glimpses (c : Chip) (k : Nat) (f : AdcSt → AdcSt) : (c.modAdc k f).glimpses = c.glimpses := rfl
@[simp] theorem modAdc_gallery (c : Chip) (k : Nat) (f : AdcSt → AdcSt) : (c.modAdc k f).gallery = c.gallery := rfl
@[simp] theorem modAdc_afPool (c : Chip) (k : Nat) (f : AdcSt → AdcSt) : (c.modAdc k f).afPool = c.afPool := rfl
@[simp] theorem modAdc_swtLog (c : Chip) (k : Nat) (f : AdcSt → AdcSt) : (c.modAdc k f).swtLog = c.swtLog := rfl
@[simp] theorem modAdc_linkRef (c : Chip) (k : Nat) (f : AdcSt → AdcSt) : (c.modAdc k f).linkRef = c.linkRef := rfl
@[simp] theorem modAdc_follows (c : Chip) (k : Nat) (f : AdcSt → AdcSt) : (c.modAdc k f).follows = c.follows := rfl
@[simp] theorem modAdc_boot (c : Chip) (k : Nat) (f : AdcSt → AdcSt) : (c.modAdc k f).boot = c.boot := rfl
@[simp] theorem modAdc_enss (c : Chip) (k : Nat) (f : AdcSt → AdcSt) : (c.modAdc k f).enss = c.enss := rfl
@[simp] theorem modAdc_trl (c : Chip) (k : Nat) (f : AdcSt → AdcSt) : (c.modAdc k f).trl = c.trl := rfl
@[simp] theorem modAdc_trlOrder (c : Chip) (k : Nat) (f : AdcSt → AdcSt) : (c.modAdc k f).trlOrder = c.trlOrder := rfl
@[simp] theorem modAdc_trlUsed (c : Chip) (k : Nat) (f : AdcSt → AdcSt) : (c.modAdc k f).trlUsed = c.trlUsed := rfl
@[simp] theorem modAdc_trlPart (c : Chip) (k : Nat) (f : AdcSt → AdcSt) : (c.modAdc k f).trlPart = c.trlPart := rfl
@[simp] theorem modAdc_drms (c : Chip) (k : Nat) (f : AdcSt → AdcSt) : (c.modAdc k f).drms = c.drms := rfl
@[simp] theorem modAdc_fms (c : Chip) (k : Nat) (f : AdcSt → AdcSt) : (c.modAdc k f).fms = c.fms := rfl
@[simp] theorem modAdc_ams (c : Chip) (k : Nat) (f : AdcSt → AdcSt) : (c.modAdc k f).ams = c.ams := rfl
@[simp] theorem modAdc_alarms (c : Chip) (k : Nat) (f : AdcSt → AdcSt) : (c.modAdc k f).alarms = c.alarms := rfl
@[simp] theorem modAdc_almPend (c : Chip) (k : Nat) (f : AdcSt → AdcSt) : (c.modAdc k f).almPend = c.almPend := rfl
@[simp] theorem modAdc_almOrder (c : Chip) (k : Nat) (f : AdcSt → AdcSt) : (c.modAdc k f).almOrder = c.almOrder := rfl
@[simp] theorem modAdc_alertAt (c : Chip) (k : Nat) (f : AdcSt → AdcSt) : (c.modAdc k f).alertAt = c.alertAt := rfl
@[simp] theorem modAdc_gal (c : Chip) (k : Nat) (f : AdcSt → AdcSt) : (c.modAdc k f).gal = c.gal := rfl
@[simp] theorem modAdc_times (c : Chip) (k : Nat) (f : AdcSt → AdcSt) : (c.modAdc k f).times = c.times := rfl
@[simp] theorem modAdc_timeUse (c : Chip) (k : Nat) (f : AdcSt → AdcSt) : (c.modAdc k f).timeUse = c.timeUse := rfl
@[simp] theorem modAdc_timeStale (c : Chip) (k : Nat) (f : AdcSt → AdcSt) : (c.modAdc k f).timeStale = c.timeStale := rfl
@[simp] theorem modAdc_mscs (c : Chip) (k : Nat) (f : AdcSt → AdcSt) : (c.modAdc k f).mscs = c.mscs := rfl
@[simp] theorem modAdc_mscOrder (c : Chip) (k : Nat) (f : AdcSt → AdcSt) : (c.modAdc k f).mscOrder = c.mscOrder := rfl
@[simp] theorem modAdc_vers (c : Chip) (k : Nat) (f : AdcSt → AdcSt) : (c.modAdc k f).vers = c.vers := rfl
@[simp] theorem modAdc_swts (c : Chip) (k : Nat) (f : AdcSt → AdcSt) : (c.modAdc k f).swts = c.swts := rfl
@[simp] theorem modAdc_swtHigh (c : Chip) (k : Nat) (f : AdcSt → AdcSt) : (c.modAdc k f).swtHigh = c.swtHigh := rfl
@[simp] theorem modAdc_aport (c : Chip) (k : Nat) (f : AdcSt → AdcSt) : (c.modAdc k f).aport = c.aport := rfl
@[simp] theorem modAdc_audio (c : Chip) (k : Nat) (f : AdcSt → AdcSt) : (c.modAdc k f).audio = c.audio := rfl
@[simp] theorem modAdc_dacs (c : Chip) (k : Nat) (f : AdcSt → AdcSt) : (c.modAdc k f).dacs = c.dacs := rfl
@[simp] theorem modAdc_link (c : Chip) (k : Nat) (f : AdcSt → AdcSt) : (c.modAdc k f).link = c.link := rfl
@[simp] theorem modAdc_varn (c : Chip) (k : Nat) (f : AdcSt → AdcSt) : (c.modAdc k f).varn = c.varn := rfl
@[simp] theorem modAdc_free (c : Chip) (k : Nat) (f : AdcSt → AdcSt) : (c.modAdc k f).free = c.free := rfl
@[simp] theorem modAdc_reg (c : Chip) (k : Nat) (f : AdcSt → AdcSt) (x : Nat) : (c.modAdc k f).reg x = c.reg x := rfl

/-! `modWin` changes `wins` only. -/

@[simp] theorem modWin_time (c : Chip) (k : Nat) (f : WinSt → WinSt) : (c.modWin k f).time = c.time := rfl
@[simp] theorem modWin_clk (c : Chip) (k : Nat) (f : WinSt → WinSt) : (c.modWin k f).clk = c.clk := rfl
@[simp] theorem modWin_power (c : Chip) (k : Nat) (f : WinSt → WinSt) : (c.modWin k f).power = c.power := rfl
@[simp] theorem modWin_regs (c : Chip) (k : Nat) (f : WinSt → WinSt) : (c.modWin k f).regs = c.regs := rfl
@[simp] theorem modWin_staged (c : Chip) (k : Nat) (f : WinSt → WinSt) : (c.modWin k f).staged = c.staged := rfl
@[simp] theorem modWin_gens (c : Chip) (k : Nat) (f : WinSt → WinSt) : (c.modWin k f).gens = c.gens := rfl
@[simp] theorem modWin_ev (c : Chip) (k : Nat) (f : WinSt → WinSt) : (c.modWin k f).ev = c.ev := rfl
@[simp] theorem modWin_out (c : Chip) (k : Nat) (f : WinSt → WinSt) : (c.modWin k f).out = c.out := rfl
@[simp] theorem modWin_bus (c : Chip) (k : Nat) (f : WinSt → WinSt) : (c.modWin k f).bus = c.bus := rfl
@[simp] theorem modWin_fes (c : Chip) (k : Nat) (f : WinSt → WinSt) : (c.modWin k f).fes = c.fes := rfl
@[simp] theorem modWin_adcs (c : Chip) (k : Nat) (f : WinSt → WinSt) : (c.modWin k f).adcs = c.adcs := rfl
@[simp] theorem modWin_canvas (c : Chip) (k : Nat) (f : WinSt → WinSt) : (c.modWin k f).canvas = c.canvas := rfl
@[simp] theorem modWin_lanes (c : Chip) (k : Nat) (f : WinSt → WinSt) : (c.modWin k f).lanes = c.lanes := rfl
@[simp] theorem modWin_srcs (c : Chip) (k : Nat) (f : WinSt → WinSt) : (c.modWin k f).srcs = c.srcs := rfl
@[simp] theorem modWin_palette (c : Chip) (k : Nat) (f : WinSt → WinSt) : (c.modWin k f).palette = c.palette := rfl
@[simp] theorem modWin_jobs (c : Chip) (k : Nat) (f : WinSt → WinSt) : (c.modWin k f).jobs = c.jobs := rfl
@[simp] theorem modWin_sched (c : Chip) (k : Nat) (f : WinSt → WinSt) : (c.modWin k f).sched = c.sched := rfl
@[simp] theorem modWin_glimpses (c : Chip) (k : Nat) (f : WinSt → WinSt) : (c.modWin k f).glimpses = c.glimpses := rfl
@[simp] theorem modWin_gallery (c : Chip) (k : Nat) (f : WinSt → WinSt) : (c.modWin k f).gallery = c.gallery := rfl
@[simp] theorem modWin_afPool (c : Chip) (k : Nat) (f : WinSt → WinSt) : (c.modWin k f).afPool = c.afPool := rfl
@[simp] theorem modWin_swtLog (c : Chip) (k : Nat) (f : WinSt → WinSt) : (c.modWin k f).swtLog = c.swtLog := rfl
@[simp] theorem modWin_linkRef (c : Chip) (k : Nat) (f : WinSt → WinSt) : (c.modWin k f).linkRef = c.linkRef := rfl
@[simp] theorem modWin_follows (c : Chip) (k : Nat) (f : WinSt → WinSt) : (c.modWin k f).follows = c.follows := rfl
@[simp] theorem modWin_boot (c : Chip) (k : Nat) (f : WinSt → WinSt) : (c.modWin k f).boot = c.boot := rfl
@[simp] theorem modWin_enss (c : Chip) (k : Nat) (f : WinSt → WinSt) : (c.modWin k f).enss = c.enss := rfl
@[simp] theorem modWin_trl (c : Chip) (k : Nat) (f : WinSt → WinSt) : (c.modWin k f).trl = c.trl := rfl
@[simp] theorem modWin_trlOrder (c : Chip) (k : Nat) (f : WinSt → WinSt) : (c.modWin k f).trlOrder = c.trlOrder := rfl
@[simp] theorem modWin_trlUsed (c : Chip) (k : Nat) (f : WinSt → WinSt) : (c.modWin k f).trlUsed = c.trlUsed := rfl
@[simp] theorem modWin_trlPart (c : Chip) (k : Nat) (f : WinSt → WinSt) : (c.modWin k f).trlPart = c.trlPart := rfl
@[simp] theorem modWin_drms (c : Chip) (k : Nat) (f : WinSt → WinSt) : (c.modWin k f).drms = c.drms := rfl
@[simp] theorem modWin_fms (c : Chip) (k : Nat) (f : WinSt → WinSt) : (c.modWin k f).fms = c.fms := rfl
@[simp] theorem modWin_ams (c : Chip) (k : Nat) (f : WinSt → WinSt) : (c.modWin k f).ams = c.ams := rfl
@[simp] theorem modWin_alarms (c : Chip) (k : Nat) (f : WinSt → WinSt) : (c.modWin k f).alarms = c.alarms := rfl
@[simp] theorem modWin_almPend (c : Chip) (k : Nat) (f : WinSt → WinSt) : (c.modWin k f).almPend = c.almPend := rfl
@[simp] theorem modWin_almOrder (c : Chip) (k : Nat) (f : WinSt → WinSt) : (c.modWin k f).almOrder = c.almOrder := rfl
@[simp] theorem modWin_alertAt (c : Chip) (k : Nat) (f : WinSt → WinSt) : (c.modWin k f).alertAt = c.alertAt := rfl
@[simp] theorem modWin_gal (c : Chip) (k : Nat) (f : WinSt → WinSt) : (c.modWin k f).gal = c.gal := rfl
@[simp] theorem modWin_times (c : Chip) (k : Nat) (f : WinSt → WinSt) : (c.modWin k f).times = c.times := rfl
@[simp] theorem modWin_timeUse (c : Chip) (k : Nat) (f : WinSt → WinSt) : (c.modWin k f).timeUse = c.timeUse := rfl
@[simp] theorem modWin_timeStale (c : Chip) (k : Nat) (f : WinSt → WinSt) : (c.modWin k f).timeStale = c.timeStale := rfl
@[simp] theorem modWin_mscs (c : Chip) (k : Nat) (f : WinSt → WinSt) : (c.modWin k f).mscs = c.mscs := rfl
@[simp] theorem modWin_mscOrder (c : Chip) (k : Nat) (f : WinSt → WinSt) : (c.modWin k f).mscOrder = c.mscOrder := rfl
@[simp] theorem modWin_vers (c : Chip) (k : Nat) (f : WinSt → WinSt) : (c.modWin k f).vers = c.vers := rfl
@[simp] theorem modWin_swts (c : Chip) (k : Nat) (f : WinSt → WinSt) : (c.modWin k f).swts = c.swts := rfl
@[simp] theorem modWin_swtHigh (c : Chip) (k : Nat) (f : WinSt → WinSt) : (c.modWin k f).swtHigh = c.swtHigh := rfl
@[simp] theorem modWin_aport (c : Chip) (k : Nat) (f : WinSt → WinSt) : (c.modWin k f).aport = c.aport := rfl
@[simp] theorem modWin_audio (c : Chip) (k : Nat) (f : WinSt → WinSt) : (c.modWin k f).audio = c.audio := rfl
@[simp] theorem modWin_dacs (c : Chip) (k : Nat) (f : WinSt → WinSt) : (c.modWin k f).dacs = c.dacs := rfl
@[simp] theorem modWin_link (c : Chip) (k : Nat) (f : WinSt → WinSt) : (c.modWin k f).link = c.link := rfl
@[simp] theorem modWin_varn (c : Chip) (k : Nat) (f : WinSt → WinSt) : (c.modWin k f).varn = c.varn := rfl
@[simp] theorem modWin_free (c : Chip) (k : Nat) (f : WinSt → WinSt) : (c.modWin k f).free = c.free := rfl
@[simp] theorem modWin_reg (c : Chip) (k : Nat) (f : WinSt → WinSt) (x : Nat) : (c.modWin k f).reg x = c.reg x := rfl

/-! `modLane` changes `lanes` only. -/

@[simp] theorem modLane_time (c : Chip) (k : Nat) (f : LaneSt → LaneSt) : (c.modLane k f).time = c.time := rfl
@[simp] theorem modLane_clk (c : Chip) (k : Nat) (f : LaneSt → LaneSt) : (c.modLane k f).clk = c.clk := rfl
@[simp] theorem modLane_power (c : Chip) (k : Nat) (f : LaneSt → LaneSt) : (c.modLane k f).power = c.power := rfl
@[simp] theorem modLane_regs (c : Chip) (k : Nat) (f : LaneSt → LaneSt) : (c.modLane k f).regs = c.regs := rfl
@[simp] theorem modLane_staged (c : Chip) (k : Nat) (f : LaneSt → LaneSt) : (c.modLane k f).staged = c.staged := rfl
@[simp] theorem modLane_gens (c : Chip) (k : Nat) (f : LaneSt → LaneSt) : (c.modLane k f).gens = c.gens := rfl
@[simp] theorem modLane_ev (c : Chip) (k : Nat) (f : LaneSt → LaneSt) : (c.modLane k f).ev = c.ev := rfl
@[simp] theorem modLane_out (c : Chip) (k : Nat) (f : LaneSt → LaneSt) : (c.modLane k f).out = c.out := rfl
@[simp] theorem modLane_bus (c : Chip) (k : Nat) (f : LaneSt → LaneSt) : (c.modLane k f).bus = c.bus := rfl
@[simp] theorem modLane_fes (c : Chip) (k : Nat) (f : LaneSt → LaneSt) : (c.modLane k f).fes = c.fes := rfl
@[simp] theorem modLane_adcs (c : Chip) (k : Nat) (f : LaneSt → LaneSt) : (c.modLane k f).adcs = c.adcs := rfl
@[simp] theorem modLane_wins (c : Chip) (k : Nat) (f : LaneSt → LaneSt) : (c.modLane k f).wins = c.wins := rfl
@[simp] theorem modLane_canvas (c : Chip) (k : Nat) (f : LaneSt → LaneSt) : (c.modLane k f).canvas = c.canvas := rfl
@[simp] theorem modLane_srcs (c : Chip) (k : Nat) (f : LaneSt → LaneSt) : (c.modLane k f).srcs = c.srcs := rfl
@[simp] theorem modLane_palette (c : Chip) (k : Nat) (f : LaneSt → LaneSt) : (c.modLane k f).palette = c.palette := rfl
@[simp] theorem modLane_jobs (c : Chip) (k : Nat) (f : LaneSt → LaneSt) : (c.modLane k f).jobs = c.jobs := rfl
@[simp] theorem modLane_sched (c : Chip) (k : Nat) (f : LaneSt → LaneSt) : (c.modLane k f).sched = c.sched := rfl
@[simp] theorem modLane_glimpses (c : Chip) (k : Nat) (f : LaneSt → LaneSt) : (c.modLane k f).glimpses = c.glimpses := rfl
@[simp] theorem modLane_gallery (c : Chip) (k : Nat) (f : LaneSt → LaneSt) : (c.modLane k f).gallery = c.gallery := rfl
@[simp] theorem modLane_afPool (c : Chip) (k : Nat) (f : LaneSt → LaneSt) : (c.modLane k f).afPool = c.afPool := rfl
@[simp] theorem modLane_swtLog (c : Chip) (k : Nat) (f : LaneSt → LaneSt) : (c.modLane k f).swtLog = c.swtLog := rfl
@[simp] theorem modLane_linkRef (c : Chip) (k : Nat) (f : LaneSt → LaneSt) : (c.modLane k f).linkRef = c.linkRef := rfl
@[simp] theorem modLane_follows (c : Chip) (k : Nat) (f : LaneSt → LaneSt) : (c.modLane k f).follows = c.follows := rfl
@[simp] theorem modLane_boot (c : Chip) (k : Nat) (f : LaneSt → LaneSt) : (c.modLane k f).boot = c.boot := rfl
@[simp] theorem modLane_enss (c : Chip) (k : Nat) (f : LaneSt → LaneSt) : (c.modLane k f).enss = c.enss := rfl
@[simp] theorem modLane_trl (c : Chip) (k : Nat) (f : LaneSt → LaneSt) : (c.modLane k f).trl = c.trl := rfl
@[simp] theorem modLane_trlOrder (c : Chip) (k : Nat) (f : LaneSt → LaneSt) : (c.modLane k f).trlOrder = c.trlOrder := rfl
@[simp] theorem modLane_trlUsed (c : Chip) (k : Nat) (f : LaneSt → LaneSt) : (c.modLane k f).trlUsed = c.trlUsed := rfl
@[simp] theorem modLane_trlPart (c : Chip) (k : Nat) (f : LaneSt → LaneSt) : (c.modLane k f).trlPart = c.trlPart := rfl
@[simp] theorem modLane_drms (c : Chip) (k : Nat) (f : LaneSt → LaneSt) : (c.modLane k f).drms = c.drms := rfl
@[simp] theorem modLane_fms (c : Chip) (k : Nat) (f : LaneSt → LaneSt) : (c.modLane k f).fms = c.fms := rfl
@[simp] theorem modLane_ams (c : Chip) (k : Nat) (f : LaneSt → LaneSt) : (c.modLane k f).ams = c.ams := rfl
@[simp] theorem modLane_alarms (c : Chip) (k : Nat) (f : LaneSt → LaneSt) : (c.modLane k f).alarms = c.alarms := rfl
@[simp] theorem modLane_almPend (c : Chip) (k : Nat) (f : LaneSt → LaneSt) : (c.modLane k f).almPend = c.almPend := rfl
@[simp] theorem modLane_almOrder (c : Chip) (k : Nat) (f : LaneSt → LaneSt) : (c.modLane k f).almOrder = c.almOrder := rfl
@[simp] theorem modLane_alertAt (c : Chip) (k : Nat) (f : LaneSt → LaneSt) : (c.modLane k f).alertAt = c.alertAt := rfl
@[simp] theorem modLane_gal (c : Chip) (k : Nat) (f : LaneSt → LaneSt) : (c.modLane k f).gal = c.gal := rfl
@[simp] theorem modLane_times (c : Chip) (k : Nat) (f : LaneSt → LaneSt) : (c.modLane k f).times = c.times := rfl
@[simp] theorem modLane_timeUse (c : Chip) (k : Nat) (f : LaneSt → LaneSt) : (c.modLane k f).timeUse = c.timeUse := rfl
@[simp] theorem modLane_timeStale (c : Chip) (k : Nat) (f : LaneSt → LaneSt) : (c.modLane k f).timeStale = c.timeStale := rfl
@[simp] theorem modLane_mscs (c : Chip) (k : Nat) (f : LaneSt → LaneSt) : (c.modLane k f).mscs = c.mscs := rfl
@[simp] theorem modLane_mscOrder (c : Chip) (k : Nat) (f : LaneSt → LaneSt) : (c.modLane k f).mscOrder = c.mscOrder := rfl
@[simp] theorem modLane_vers (c : Chip) (k : Nat) (f : LaneSt → LaneSt) : (c.modLane k f).vers = c.vers := rfl
@[simp] theorem modLane_swts (c : Chip) (k : Nat) (f : LaneSt → LaneSt) : (c.modLane k f).swts = c.swts := rfl
@[simp] theorem modLane_swtHigh (c : Chip) (k : Nat) (f : LaneSt → LaneSt) : (c.modLane k f).swtHigh = c.swtHigh := rfl
@[simp] theorem modLane_aport (c : Chip) (k : Nat) (f : LaneSt → LaneSt) : (c.modLane k f).aport = c.aport := rfl
@[simp] theorem modLane_audio (c : Chip) (k : Nat) (f : LaneSt → LaneSt) : (c.modLane k f).audio = c.audio := rfl
@[simp] theorem modLane_dacs (c : Chip) (k : Nat) (f : LaneSt → LaneSt) : (c.modLane k f).dacs = c.dacs := rfl
@[simp] theorem modLane_link (c : Chip) (k : Nat) (f : LaneSt → LaneSt) : (c.modLane k f).link = c.link := rfl
@[simp] theorem modLane_varn (c : Chip) (k : Nat) (f : LaneSt → LaneSt) : (c.modLane k f).varn = c.varn := rfl
@[simp] theorem modLane_free (c : Chip) (k : Nat) (f : LaneSt → LaneSt) : (c.modLane k f).free = c.free := rfl
@[simp] theorem modLane_reg (c : Chip) (k : Nat) (f : LaneSt → LaneSt) (x : Nat) : (c.modLane k f).reg x = c.reg x := rfl

/-! `modLoop` changes `clk` only. -/

@[simp] theorem modLoop_time (c : Chip) (k : Nat) (f : LoopSt → LoopSt) : (c.modLoop k f).time = c.time := rfl
@[simp] theorem modLoop_power (c : Chip) (k : Nat) (f : LoopSt → LoopSt) : (c.modLoop k f).power = c.power := rfl
@[simp] theorem modLoop_regs (c : Chip) (k : Nat) (f : LoopSt → LoopSt) : (c.modLoop k f).regs = c.regs := rfl
@[simp] theorem modLoop_staged (c : Chip) (k : Nat) (f : LoopSt → LoopSt) : (c.modLoop k f).staged = c.staged := rfl
@[simp] theorem modLoop_gens (c : Chip) (k : Nat) (f : LoopSt → LoopSt) : (c.modLoop k f).gens = c.gens := rfl
@[simp] theorem modLoop_ev (c : Chip) (k : Nat) (f : LoopSt → LoopSt) : (c.modLoop k f).ev = c.ev := rfl
@[simp] theorem modLoop_out (c : Chip) (k : Nat) (f : LoopSt → LoopSt) : (c.modLoop k f).out = c.out := rfl
@[simp] theorem modLoop_bus (c : Chip) (k : Nat) (f : LoopSt → LoopSt) : (c.modLoop k f).bus = c.bus := rfl
@[simp] theorem modLoop_fes (c : Chip) (k : Nat) (f : LoopSt → LoopSt) : (c.modLoop k f).fes = c.fes := rfl
@[simp] theorem modLoop_adcs (c : Chip) (k : Nat) (f : LoopSt → LoopSt) : (c.modLoop k f).adcs = c.adcs := rfl
@[simp] theorem modLoop_wins (c : Chip) (k : Nat) (f : LoopSt → LoopSt) : (c.modLoop k f).wins = c.wins := rfl
@[simp] theorem modLoop_canvas (c : Chip) (k : Nat) (f : LoopSt → LoopSt) : (c.modLoop k f).canvas = c.canvas := rfl
@[simp] theorem modLoop_lanes (c : Chip) (k : Nat) (f : LoopSt → LoopSt) : (c.modLoop k f).lanes = c.lanes := rfl
@[simp] theorem modLoop_srcs (c : Chip) (k : Nat) (f : LoopSt → LoopSt) : (c.modLoop k f).srcs = c.srcs := rfl
@[simp] theorem modLoop_palette (c : Chip) (k : Nat) (f : LoopSt → LoopSt) : (c.modLoop k f).palette = c.palette := rfl
@[simp] theorem modLoop_jobs (c : Chip) (k : Nat) (f : LoopSt → LoopSt) : (c.modLoop k f).jobs = c.jobs := rfl
@[simp] theorem modLoop_sched (c : Chip) (k : Nat) (f : LoopSt → LoopSt) : (c.modLoop k f).sched = c.sched := rfl
@[simp] theorem modLoop_glimpses (c : Chip) (k : Nat) (f : LoopSt → LoopSt) : (c.modLoop k f).glimpses = c.glimpses := rfl
@[simp] theorem modLoop_gallery (c : Chip) (k : Nat) (f : LoopSt → LoopSt) : (c.modLoop k f).gallery = c.gallery := rfl
@[simp] theorem modLoop_afPool (c : Chip) (k : Nat) (f : LoopSt → LoopSt) : (c.modLoop k f).afPool = c.afPool := rfl
@[simp] theorem modLoop_swtLog (c : Chip) (k : Nat) (f : LoopSt → LoopSt) : (c.modLoop k f).swtLog = c.swtLog := rfl
@[simp] theorem modLoop_linkRef (c : Chip) (k : Nat) (f : LoopSt → LoopSt) : (c.modLoop k f).linkRef = c.linkRef := rfl
@[simp] theorem modLoop_follows (c : Chip) (k : Nat) (f : LoopSt → LoopSt) : (c.modLoop k f).follows = c.follows := rfl
@[simp] theorem modLoop_boot (c : Chip) (k : Nat) (f : LoopSt → LoopSt) : (c.modLoop k f).boot = c.boot := rfl
@[simp] theorem modLoop_enss (c : Chip) (k : Nat) (f : LoopSt → LoopSt) : (c.modLoop k f).enss = c.enss := rfl
@[simp] theorem modLoop_trl (c : Chip) (k : Nat) (f : LoopSt → LoopSt) : (c.modLoop k f).trl = c.trl := rfl
@[simp] theorem modLoop_trlOrder (c : Chip) (k : Nat) (f : LoopSt → LoopSt) : (c.modLoop k f).trlOrder = c.trlOrder := rfl
@[simp] theorem modLoop_trlUsed (c : Chip) (k : Nat) (f : LoopSt → LoopSt) : (c.modLoop k f).trlUsed = c.trlUsed := rfl
@[simp] theorem modLoop_trlPart (c : Chip) (k : Nat) (f : LoopSt → LoopSt) : (c.modLoop k f).trlPart = c.trlPart := rfl
@[simp] theorem modLoop_drms (c : Chip) (k : Nat) (f : LoopSt → LoopSt) : (c.modLoop k f).drms = c.drms := rfl
@[simp] theorem modLoop_fms (c : Chip) (k : Nat) (f : LoopSt → LoopSt) : (c.modLoop k f).fms = c.fms := rfl
@[simp] theorem modLoop_ams (c : Chip) (k : Nat) (f : LoopSt → LoopSt) : (c.modLoop k f).ams = c.ams := rfl
@[simp] theorem modLoop_alarms (c : Chip) (k : Nat) (f : LoopSt → LoopSt) : (c.modLoop k f).alarms = c.alarms := rfl
@[simp] theorem modLoop_almPend (c : Chip) (k : Nat) (f : LoopSt → LoopSt) : (c.modLoop k f).almPend = c.almPend := rfl
@[simp] theorem modLoop_almOrder (c : Chip) (k : Nat) (f : LoopSt → LoopSt) : (c.modLoop k f).almOrder = c.almOrder := rfl
@[simp] theorem modLoop_alertAt (c : Chip) (k : Nat) (f : LoopSt → LoopSt) : (c.modLoop k f).alertAt = c.alertAt := rfl
@[simp] theorem modLoop_gal (c : Chip) (k : Nat) (f : LoopSt → LoopSt) : (c.modLoop k f).gal = c.gal := rfl
@[simp] theorem modLoop_times (c : Chip) (k : Nat) (f : LoopSt → LoopSt) : (c.modLoop k f).times = c.times := rfl
@[simp] theorem modLoop_timeUse (c : Chip) (k : Nat) (f : LoopSt → LoopSt) : (c.modLoop k f).timeUse = c.timeUse := rfl
@[simp] theorem modLoop_timeStale (c : Chip) (k : Nat) (f : LoopSt → LoopSt) : (c.modLoop k f).timeStale = c.timeStale := rfl
@[simp] theorem modLoop_mscs (c : Chip) (k : Nat) (f : LoopSt → LoopSt) : (c.modLoop k f).mscs = c.mscs := rfl
@[simp] theorem modLoop_mscOrder (c : Chip) (k : Nat) (f : LoopSt → LoopSt) : (c.modLoop k f).mscOrder = c.mscOrder := rfl
@[simp] theorem modLoop_vers (c : Chip) (k : Nat) (f : LoopSt → LoopSt) : (c.modLoop k f).vers = c.vers := rfl
@[simp] theorem modLoop_swts (c : Chip) (k : Nat) (f : LoopSt → LoopSt) : (c.modLoop k f).swts = c.swts := rfl
@[simp] theorem modLoop_swtHigh (c : Chip) (k : Nat) (f : LoopSt → LoopSt) : (c.modLoop k f).swtHigh = c.swtHigh := rfl
@[simp] theorem modLoop_aport (c : Chip) (k : Nat) (f : LoopSt → LoopSt) : (c.modLoop k f).aport = c.aport := rfl
@[simp] theorem modLoop_audio (c : Chip) (k : Nat) (f : LoopSt → LoopSt) : (c.modLoop k f).audio = c.audio := rfl
@[simp] theorem modLoop_dacs (c : Chip) (k : Nat) (f : LoopSt → LoopSt) : (c.modLoop k f).dacs = c.dacs := rfl
@[simp] theorem modLoop_link (c : Chip) (k : Nat) (f : LoopSt → LoopSt) : (c.modLoop k f).link = c.link := rfl
@[simp] theorem modLoop_varn (c : Chip) (k : Nat) (f : LoopSt → LoopSt) : (c.modLoop k f).varn = c.varn := rfl
@[simp] theorem modLoop_free (c : Chip) (k : Nat) (f : LoopSt → LoopSt) : (c.modLoop k f).free = c.free := rfl
@[simp] theorem modLoop_reg (c : Chip) (k : Nat) (f : LoopSt → LoopSt) (x : Nat) : (c.modLoop k f).reg x = c.reg x := rfl

/-! `setJob` changes `jobs` only. -/

@[simp] theorem setJob_time (c : Chip) (k : Nat) (j : Job) : (c.setJob k j).time = c.time := rfl
@[simp] theorem setJob_clk (c : Chip) (k : Nat) (j : Job) : (c.setJob k j).clk = c.clk := rfl
@[simp] theorem setJob_power (c : Chip) (k : Nat) (j : Job) : (c.setJob k j).power = c.power := rfl
@[simp] theorem setJob_regs (c : Chip) (k : Nat) (j : Job) : (c.setJob k j).regs = c.regs := rfl
@[simp] theorem setJob_staged (c : Chip) (k : Nat) (j : Job) : (c.setJob k j).staged = c.staged := rfl
@[simp] theorem setJob_gens (c : Chip) (k : Nat) (j : Job) : (c.setJob k j).gens = c.gens := rfl
@[simp] theorem setJob_ev (c : Chip) (k : Nat) (j : Job) : (c.setJob k j).ev = c.ev := rfl
@[simp] theorem setJob_out (c : Chip) (k : Nat) (j : Job) : (c.setJob k j).out = c.out := rfl
@[simp] theorem setJob_bus (c : Chip) (k : Nat) (j : Job) : (c.setJob k j).bus = c.bus := rfl
@[simp] theorem setJob_fes (c : Chip) (k : Nat) (j : Job) : (c.setJob k j).fes = c.fes := rfl
@[simp] theorem setJob_adcs (c : Chip) (k : Nat) (j : Job) : (c.setJob k j).adcs = c.adcs := rfl
@[simp] theorem setJob_wins (c : Chip) (k : Nat) (j : Job) : (c.setJob k j).wins = c.wins := rfl
@[simp] theorem setJob_canvas (c : Chip) (k : Nat) (j : Job) : (c.setJob k j).canvas = c.canvas := rfl
@[simp] theorem setJob_lanes (c : Chip) (k : Nat) (j : Job) : (c.setJob k j).lanes = c.lanes := rfl
@[simp] theorem setJob_srcs (c : Chip) (k : Nat) (j : Job) : (c.setJob k j).srcs = c.srcs := rfl
@[simp] theorem setJob_palette (c : Chip) (k : Nat) (j : Job) : (c.setJob k j).palette = c.palette := rfl
@[simp] theorem setJob_sched (c : Chip) (k : Nat) (j : Job) : (c.setJob k j).sched = c.sched := rfl
@[simp] theorem setJob_glimpses (c : Chip) (k : Nat) (j : Job) : (c.setJob k j).glimpses = c.glimpses := rfl
@[simp] theorem setJob_gallery (c : Chip) (k : Nat) (j : Job) : (c.setJob k j).gallery = c.gallery := rfl
@[simp] theorem setJob_afPool (c : Chip) (k : Nat) (j : Job) : (c.setJob k j).afPool = c.afPool := rfl
@[simp] theorem setJob_swtLog (c : Chip) (k : Nat) (j : Job) : (c.setJob k j).swtLog = c.swtLog := rfl
@[simp] theorem setJob_linkRef (c : Chip) (k : Nat) (j : Job) : (c.setJob k j).linkRef = c.linkRef := rfl
@[simp] theorem setJob_follows (c : Chip) (k : Nat) (j : Job) : (c.setJob k j).follows = c.follows := rfl
@[simp] theorem setJob_boot (c : Chip) (k : Nat) (j : Job) : (c.setJob k j).boot = c.boot := rfl
@[simp] theorem setJob_enss (c : Chip) (k : Nat) (j : Job) : (c.setJob k j).enss = c.enss := rfl
@[simp] theorem setJob_trl (c : Chip) (k : Nat) (j : Job) : (c.setJob k j).trl = c.trl := rfl
@[simp] theorem setJob_trlOrder (c : Chip) (k : Nat) (j : Job) : (c.setJob k j).trlOrder = c.trlOrder := rfl
@[simp] theorem setJob_trlUsed (c : Chip) (k : Nat) (j : Job) : (c.setJob k j).trlUsed = c.trlUsed := rfl
@[simp] theorem setJob_trlPart (c : Chip) (k : Nat) (j : Job) : (c.setJob k j).trlPart = c.trlPart := rfl
@[simp] theorem setJob_drms (c : Chip) (k : Nat) (j : Job) : (c.setJob k j).drms = c.drms := rfl
@[simp] theorem setJob_fms (c : Chip) (k : Nat) (j : Job) : (c.setJob k j).fms = c.fms := rfl
@[simp] theorem setJob_ams (c : Chip) (k : Nat) (j : Job) : (c.setJob k j).ams = c.ams := rfl
@[simp] theorem setJob_alarms (c : Chip) (k : Nat) (j : Job) : (c.setJob k j).alarms = c.alarms := rfl
@[simp] theorem setJob_almPend (c : Chip) (k : Nat) (j : Job) : (c.setJob k j).almPend = c.almPend := rfl
@[simp] theorem setJob_almOrder (c : Chip) (k : Nat) (j : Job) : (c.setJob k j).almOrder = c.almOrder := rfl
@[simp] theorem setJob_alertAt (c : Chip) (k : Nat) (j : Job) : (c.setJob k j).alertAt = c.alertAt := rfl
@[simp] theorem setJob_gal (c : Chip) (k : Nat) (j : Job) : (c.setJob k j).gal = c.gal := rfl
@[simp] theorem setJob_times (c : Chip) (k : Nat) (j : Job) : (c.setJob k j).times = c.times := rfl
@[simp] theorem setJob_timeUse (c : Chip) (k : Nat) (j : Job) : (c.setJob k j).timeUse = c.timeUse := rfl
@[simp] theorem setJob_timeStale (c : Chip) (k : Nat) (j : Job) : (c.setJob k j).timeStale = c.timeStale := rfl
@[simp] theorem setJob_mscs (c : Chip) (k : Nat) (j : Job) : (c.setJob k j).mscs = c.mscs := rfl
@[simp] theorem setJob_mscOrder (c : Chip) (k : Nat) (j : Job) : (c.setJob k j).mscOrder = c.mscOrder := rfl
@[simp] theorem setJob_vers (c : Chip) (k : Nat) (j : Job) : (c.setJob k j).vers = c.vers := rfl
@[simp] theorem setJob_swts (c : Chip) (k : Nat) (j : Job) : (c.setJob k j).swts = c.swts := rfl
@[simp] theorem setJob_swtHigh (c : Chip) (k : Nat) (j : Job) : (c.setJob k j).swtHigh = c.swtHigh := rfl
@[simp] theorem setJob_aport (c : Chip) (k : Nat) (j : Job) : (c.setJob k j).aport = c.aport := rfl
@[simp] theorem setJob_audio (c : Chip) (k : Nat) (j : Job) : (c.setJob k j).audio = c.audio := rfl
@[simp] theorem setJob_dacs (c : Chip) (k : Nat) (j : Job) : (c.setJob k j).dacs = c.dacs := rfl
@[simp] theorem setJob_link (c : Chip) (k : Nat) (j : Job) : (c.setJob k j).link = c.link := rfl
@[simp] theorem setJob_varn (c : Chip) (k : Nat) (j : Job) : (c.setJob k j).varn = c.varn := rfl
@[simp] theorem setJob_free (c : Chip) (k : Nat) (j : Job) : (c.setJob k j).free = c.free := rfl
@[simp] theorem setJob_reg (c : Chip) (k : Nat) (j : Job) (x : Nat) : (c.setJob k j).reg x = c.reg x := rfl

/-! An event or a counter changes `regs` and `ev` only. -/

@[simp] theorem count_time (c : Chip) (a : Nat) : (c.count a).time = c.time := by obtain ⟨_, _, h⟩ := count_only c a; rw [h]
@[simp] theorem count_clk (c : Chip) (a : Nat) : (c.count a).clk = c.clk := by obtain ⟨_, _, h⟩ := count_only c a; rw [h]
@[simp] theorem count_power (c : Chip) (a : Nat) : (c.count a).power = c.power := by obtain ⟨_, _, h⟩ := count_only c a; rw [h]
@[simp] theorem count_staged (c : Chip) (a : Nat) : (c.count a).staged = c.staged := by obtain ⟨_, _, h⟩ := count_only c a; rw [h]
@[simp] theorem count_gens (c : Chip) (a : Nat) : (c.count a).gens = c.gens := by obtain ⟨_, _, h⟩ := count_only c a; rw [h]
@[simp] theorem count_out (c : Chip) (a : Nat) : (c.count a).out = c.out := by obtain ⟨_, _, h⟩ := count_only c a; rw [h]
@[simp] theorem count_bus (c : Chip) (a : Nat) : (c.count a).bus = c.bus := by obtain ⟨_, _, h⟩ := count_only c a; rw [h]
@[simp] theorem count_fes (c : Chip) (a : Nat) : (c.count a).fes = c.fes := by obtain ⟨_, _, h⟩ := count_only c a; rw [h]
@[simp] theorem count_adcs (c : Chip) (a : Nat) : (c.count a).adcs = c.adcs := by obtain ⟨_, _, h⟩ := count_only c a; rw [h]
@[simp] theorem count_wins (c : Chip) (a : Nat) : (c.count a).wins = c.wins := by obtain ⟨_, _, h⟩ := count_only c a; rw [h]
@[simp] theorem count_canvas (c : Chip) (a : Nat) : (c.count a).canvas = c.canvas := by obtain ⟨_, _, h⟩ := count_only c a; rw [h]
@[simp] theorem count_lanes (c : Chip) (a : Nat) : (c.count a).lanes = c.lanes := by obtain ⟨_, _, h⟩ := count_only c a; rw [h]
@[simp] theorem count_srcs (c : Chip) (a : Nat) : (c.count a).srcs = c.srcs := by obtain ⟨_, _, h⟩ := count_only c a; rw [h]
@[simp] theorem count_palette (c : Chip) (a : Nat) : (c.count a).palette = c.palette := by obtain ⟨_, _, h⟩ := count_only c a; rw [h]
@[simp] theorem count_jobs (c : Chip) (a : Nat) : (c.count a).jobs = c.jobs := by obtain ⟨_, _, h⟩ := count_only c a; rw [h]
@[simp] theorem count_sched (c : Chip) (a : Nat) : (c.count a).sched = c.sched := by obtain ⟨_, _, h⟩ := count_only c a; rw [h]
@[simp] theorem count_glimpses (c : Chip) (a : Nat) : (c.count a).glimpses = c.glimpses := by obtain ⟨_, _, h⟩ := count_only c a; rw [h]
@[simp] theorem count_gallery (c : Chip) (a : Nat) : (c.count a).gallery = c.gallery := by obtain ⟨_, _, h⟩ := count_only c a; rw [h]
@[simp] theorem count_afPool (c : Chip) (a : Nat) : (c.count a).afPool = c.afPool := by obtain ⟨_, _, h⟩ := count_only c a; rw [h]
@[simp] theorem count_swtLog (c : Chip) (a : Nat) : (c.count a).swtLog = c.swtLog := by obtain ⟨_, _, h⟩ := count_only c a; rw [h]
@[simp] theorem count_linkRef (c : Chip) (a : Nat) : (c.count a).linkRef = c.linkRef := by obtain ⟨_, _, h⟩ := count_only c a; rw [h]
@[simp] theorem count_follows (c : Chip) (a : Nat) : (c.count a).follows = c.follows := by obtain ⟨_, _, h⟩ := count_only c a; rw [h]
@[simp] theorem count_boot (c : Chip) (a : Nat) : (c.count a).boot = c.boot := by obtain ⟨_, _, h⟩ := count_only c a; rw [h]
@[simp] theorem count_enss (c : Chip) (a : Nat) : (c.count a).enss = c.enss := by obtain ⟨_, _, h⟩ := count_only c a; rw [h]
@[simp] theorem count_trl (c : Chip) (a : Nat) : (c.count a).trl = c.trl := by obtain ⟨_, _, h⟩ := count_only c a; rw [h]
@[simp] theorem count_trlOrder (c : Chip) (a : Nat) : (c.count a).trlOrder = c.trlOrder := by obtain ⟨_, _, h⟩ := count_only c a; rw [h]
@[simp] theorem count_trlUsed (c : Chip) (a : Nat) : (c.count a).trlUsed = c.trlUsed := by obtain ⟨_, _, h⟩ := count_only c a; rw [h]
@[simp] theorem count_trlPart (c : Chip) (a : Nat) : (c.count a).trlPart = c.trlPart := by obtain ⟨_, _, h⟩ := count_only c a; rw [h]
@[simp] theorem count_drms (c : Chip) (a : Nat) : (c.count a).drms = c.drms := by obtain ⟨_, _, h⟩ := count_only c a; rw [h]
@[simp] theorem count_fms (c : Chip) (a : Nat) : (c.count a).fms = c.fms := by obtain ⟨_, _, h⟩ := count_only c a; rw [h]
@[simp] theorem count_ams (c : Chip) (a : Nat) : (c.count a).ams = c.ams := by obtain ⟨_, _, h⟩ := count_only c a; rw [h]
@[simp] theorem count_alarms (c : Chip) (a : Nat) : (c.count a).alarms = c.alarms := by obtain ⟨_, _, h⟩ := count_only c a; rw [h]
@[simp] theorem count_almPend (c : Chip) (a : Nat) : (c.count a).almPend = c.almPend := by obtain ⟨_, _, h⟩ := count_only c a; rw [h]
@[simp] theorem count_almOrder (c : Chip) (a : Nat) : (c.count a).almOrder = c.almOrder := by obtain ⟨_, _, h⟩ := count_only c a; rw [h]
@[simp] theorem count_alertAt (c : Chip) (a : Nat) : (c.count a).alertAt = c.alertAt := by obtain ⟨_, _, h⟩ := count_only c a; rw [h]
@[simp] theorem count_gal (c : Chip) (a : Nat) : (c.count a).gal = c.gal := by obtain ⟨_, _, h⟩ := count_only c a; rw [h]
@[simp] theorem count_times (c : Chip) (a : Nat) : (c.count a).times = c.times := by obtain ⟨_, _, h⟩ := count_only c a; rw [h]
@[simp] theorem count_timeUse (c : Chip) (a : Nat) : (c.count a).timeUse = c.timeUse := by obtain ⟨_, _, h⟩ := count_only c a; rw [h]
@[simp] theorem count_timeStale (c : Chip) (a : Nat) : (c.count a).timeStale = c.timeStale := by obtain ⟨_, _, h⟩ := count_only c a; rw [h]
@[simp] theorem count_mscs (c : Chip) (a : Nat) : (c.count a).mscs = c.mscs := by obtain ⟨_, _, h⟩ := count_only c a; rw [h]
@[simp] theorem count_mscOrder (c : Chip) (a : Nat) : (c.count a).mscOrder = c.mscOrder := by obtain ⟨_, _, h⟩ := count_only c a; rw [h]
@[simp] theorem count_vers (c : Chip) (a : Nat) : (c.count a).vers = c.vers := by obtain ⟨_, _, h⟩ := count_only c a; rw [h]
@[simp] theorem count_swts (c : Chip) (a : Nat) : (c.count a).swts = c.swts := by obtain ⟨_, _, h⟩ := count_only c a; rw [h]
@[simp] theorem count_swtHigh (c : Chip) (a : Nat) : (c.count a).swtHigh = c.swtHigh := by obtain ⟨_, _, h⟩ := count_only c a; rw [h]
@[simp] theorem count_aport (c : Chip) (a : Nat) : (c.count a).aport = c.aport := by obtain ⟨_, _, h⟩ := count_only c a; rw [h]
@[simp] theorem count_audio (c : Chip) (a : Nat) : (c.count a).audio = c.audio := by obtain ⟨_, _, h⟩ := count_only c a; rw [h]
@[simp] theorem count_dacs (c : Chip) (a : Nat) : (c.count a).dacs = c.dacs := by obtain ⟨_, _, h⟩ := count_only c a; rw [h]
@[simp] theorem count_link (c : Chip) (a : Nat) : (c.count a).link = c.link := by obtain ⟨_, _, h⟩ := count_only c a; rw [h]
@[simp] theorem count_varn (c : Chip) (a : Nat) : (c.count a).varn = c.varn := by obtain ⟨_, _, h⟩ := count_only c a; rw [h]
@[simp] theorem count_free (c : Chip) (a : Nat) : (c.count a).free = c.free := by obtain ⟨_, _, h⟩ := count_only c a; rw [h]
@[simp] theorem countBy_time (c : Chip) (a n : Nat) : (c.countBy a n).time = c.time := by obtain ⟨_, _, h⟩ := countBy_only c a n; rw [h]
@[simp] theorem countBy_clk (c : Chip) (a n : Nat) : (c.countBy a n).clk = c.clk := by obtain ⟨_, _, h⟩ := countBy_only c a n; rw [h]
@[simp] theorem countBy_power (c : Chip) (a n : Nat) : (c.countBy a n).power = c.power := by obtain ⟨_, _, h⟩ := countBy_only c a n; rw [h]
@[simp] theorem countBy_staged (c : Chip) (a n : Nat) : (c.countBy a n).staged = c.staged := by obtain ⟨_, _, h⟩ := countBy_only c a n; rw [h]
@[simp] theorem countBy_gens (c : Chip) (a n : Nat) : (c.countBy a n).gens = c.gens := by obtain ⟨_, _, h⟩ := countBy_only c a n; rw [h]
@[simp] theorem countBy_out (c : Chip) (a n : Nat) : (c.countBy a n).out = c.out := by obtain ⟨_, _, h⟩ := countBy_only c a n; rw [h]
@[simp] theorem countBy_bus (c : Chip) (a n : Nat) : (c.countBy a n).bus = c.bus := by obtain ⟨_, _, h⟩ := countBy_only c a n; rw [h]
@[simp] theorem countBy_fes (c : Chip) (a n : Nat) : (c.countBy a n).fes = c.fes := by obtain ⟨_, _, h⟩ := countBy_only c a n; rw [h]
@[simp] theorem countBy_adcs (c : Chip) (a n : Nat) : (c.countBy a n).adcs = c.adcs := by obtain ⟨_, _, h⟩ := countBy_only c a n; rw [h]
@[simp] theorem countBy_wins (c : Chip) (a n : Nat) : (c.countBy a n).wins = c.wins := by obtain ⟨_, _, h⟩ := countBy_only c a n; rw [h]
@[simp] theorem countBy_canvas (c : Chip) (a n : Nat) : (c.countBy a n).canvas = c.canvas := by obtain ⟨_, _, h⟩ := countBy_only c a n; rw [h]
@[simp] theorem countBy_lanes (c : Chip) (a n : Nat) : (c.countBy a n).lanes = c.lanes := by obtain ⟨_, _, h⟩ := countBy_only c a n; rw [h]
@[simp] theorem countBy_srcs (c : Chip) (a n : Nat) : (c.countBy a n).srcs = c.srcs := by obtain ⟨_, _, h⟩ := countBy_only c a n; rw [h]
@[simp] theorem countBy_palette (c : Chip) (a n : Nat) : (c.countBy a n).palette = c.palette := by obtain ⟨_, _, h⟩ := countBy_only c a n; rw [h]
@[simp] theorem countBy_jobs (c : Chip) (a n : Nat) : (c.countBy a n).jobs = c.jobs := by obtain ⟨_, _, h⟩ := countBy_only c a n; rw [h]
@[simp] theorem countBy_sched (c : Chip) (a n : Nat) : (c.countBy a n).sched = c.sched := by obtain ⟨_, _, h⟩ := countBy_only c a n; rw [h]
@[simp] theorem countBy_glimpses (c : Chip) (a n : Nat) : (c.countBy a n).glimpses = c.glimpses := by obtain ⟨_, _, h⟩ := countBy_only c a n; rw [h]
@[simp] theorem countBy_gallery (c : Chip) (a n : Nat) : (c.countBy a n).gallery = c.gallery := by obtain ⟨_, _, h⟩ := countBy_only c a n; rw [h]
@[simp] theorem countBy_afPool (c : Chip) (a n : Nat) : (c.countBy a n).afPool = c.afPool := by obtain ⟨_, _, h⟩ := countBy_only c a n; rw [h]
@[simp] theorem countBy_swtLog (c : Chip) (a n : Nat) : (c.countBy a n).swtLog = c.swtLog := by obtain ⟨_, _, h⟩ := countBy_only c a n; rw [h]
@[simp] theorem countBy_linkRef (c : Chip) (a n : Nat) : (c.countBy a n).linkRef = c.linkRef := by obtain ⟨_, _, h⟩ := countBy_only c a n; rw [h]
@[simp] theorem countBy_follows (c : Chip) (a n : Nat) : (c.countBy a n).follows = c.follows := by obtain ⟨_, _, h⟩ := countBy_only c a n; rw [h]
@[simp] theorem countBy_boot (c : Chip) (a n : Nat) : (c.countBy a n).boot = c.boot := by obtain ⟨_, _, h⟩ := countBy_only c a n; rw [h]
@[simp] theorem countBy_enss (c : Chip) (a n : Nat) : (c.countBy a n).enss = c.enss := by obtain ⟨_, _, h⟩ := countBy_only c a n; rw [h]
@[simp] theorem countBy_trl (c : Chip) (a n : Nat) : (c.countBy a n).trl = c.trl := by obtain ⟨_, _, h⟩ := countBy_only c a n; rw [h]
@[simp] theorem countBy_trlOrder (c : Chip) (a n : Nat) : (c.countBy a n).trlOrder = c.trlOrder := by obtain ⟨_, _, h⟩ := countBy_only c a n; rw [h]
@[simp] theorem countBy_trlUsed (c : Chip) (a n : Nat) : (c.countBy a n).trlUsed = c.trlUsed := by obtain ⟨_, _, h⟩ := countBy_only c a n; rw [h]
@[simp] theorem countBy_trlPart (c : Chip) (a n : Nat) : (c.countBy a n).trlPart = c.trlPart := by obtain ⟨_, _, h⟩ := countBy_only c a n; rw [h]
@[simp] theorem countBy_drms (c : Chip) (a n : Nat) : (c.countBy a n).drms = c.drms := by obtain ⟨_, _, h⟩ := countBy_only c a n; rw [h]
@[simp] theorem countBy_fms (c : Chip) (a n : Nat) : (c.countBy a n).fms = c.fms := by obtain ⟨_, _, h⟩ := countBy_only c a n; rw [h]
@[simp] theorem countBy_ams (c : Chip) (a n : Nat) : (c.countBy a n).ams = c.ams := by obtain ⟨_, _, h⟩ := countBy_only c a n; rw [h]
@[simp] theorem countBy_alarms (c : Chip) (a n : Nat) : (c.countBy a n).alarms = c.alarms := by obtain ⟨_, _, h⟩ := countBy_only c a n; rw [h]
@[simp] theorem countBy_almPend (c : Chip) (a n : Nat) : (c.countBy a n).almPend = c.almPend := by obtain ⟨_, _, h⟩ := countBy_only c a n; rw [h]
@[simp] theorem countBy_almOrder (c : Chip) (a n : Nat) : (c.countBy a n).almOrder = c.almOrder := by obtain ⟨_, _, h⟩ := countBy_only c a n; rw [h]
@[simp] theorem countBy_alertAt (c : Chip) (a n : Nat) : (c.countBy a n).alertAt = c.alertAt := by obtain ⟨_, _, h⟩ := countBy_only c a n; rw [h]
@[simp] theorem countBy_gal (c : Chip) (a n : Nat) : (c.countBy a n).gal = c.gal := by obtain ⟨_, _, h⟩ := countBy_only c a n; rw [h]
@[simp] theorem countBy_times (c : Chip) (a n : Nat) : (c.countBy a n).times = c.times := by obtain ⟨_, _, h⟩ := countBy_only c a n; rw [h]
@[simp] theorem countBy_timeUse (c : Chip) (a n : Nat) : (c.countBy a n).timeUse = c.timeUse := by obtain ⟨_, _, h⟩ := countBy_only c a n; rw [h]
@[simp] theorem countBy_timeStale (c : Chip) (a n : Nat) : (c.countBy a n).timeStale = c.timeStale := by obtain ⟨_, _, h⟩ := countBy_only c a n; rw [h]
@[simp] theorem countBy_mscs (c : Chip) (a n : Nat) : (c.countBy a n).mscs = c.mscs := by obtain ⟨_, _, h⟩ := countBy_only c a n; rw [h]
@[simp] theorem countBy_mscOrder (c : Chip) (a n : Nat) : (c.countBy a n).mscOrder = c.mscOrder := by obtain ⟨_, _, h⟩ := countBy_only c a n; rw [h]
@[simp] theorem countBy_vers (c : Chip) (a n : Nat) : (c.countBy a n).vers = c.vers := by obtain ⟨_, _, h⟩ := countBy_only c a n; rw [h]
@[simp] theorem countBy_swts (c : Chip) (a n : Nat) : (c.countBy a n).swts = c.swts := by obtain ⟨_, _, h⟩ := countBy_only c a n; rw [h]
@[simp] theorem countBy_swtHigh (c : Chip) (a n : Nat) : (c.countBy a n).swtHigh = c.swtHigh := by obtain ⟨_, _, h⟩ := countBy_only c a n; rw [h]
@[simp] theorem countBy_aport (c : Chip) (a n : Nat) : (c.countBy a n).aport = c.aport := by obtain ⟨_, _, h⟩ := countBy_only c a n; rw [h]
@[simp] theorem countBy_audio (c : Chip) (a n : Nat) : (c.countBy a n).audio = c.audio := by obtain ⟨_, _, h⟩ := countBy_only c a n; rw [h]
@[simp] theorem countBy_dacs (c : Chip) (a n : Nat) : (c.countBy a n).dacs = c.dacs := by obtain ⟨_, _, h⟩ := countBy_only c a n; rw [h]
@[simp] theorem countBy_link (c : Chip) (a n : Nat) : (c.countBy a n).link = c.link := by obtain ⟨_, _, h⟩ := countBy_only c a n; rw [h]
@[simp] theorem countBy_varn (c : Chip) (a n : Nat) : (c.countBy a n).varn = c.varn := by obtain ⟨_, _, h⟩ := countBy_only c a n; rw [h]
@[simp] theorem countBy_free (c : Chip) (a n : Nat) : (c.countBy a n).free = c.free := by obtain ⟨_, _, h⟩ := countBy_only c a n; rw [h]
@[simp] theorem raise_time (c : Chip) (n h d : Nat) : (c.raise n h d).time = c.time := by obtain ⟨_, _, h⟩ := raise_only c n h d; rw [h]
@[simp] theorem raise_clk (c : Chip) (n h d : Nat) : (c.raise n h d).clk = c.clk := by obtain ⟨_, _, h⟩ := raise_only c n h d; rw [h]
@[simp] theorem raise_power (c : Chip) (n h d : Nat) : (c.raise n h d).power = c.power := by obtain ⟨_, _, h⟩ := raise_only c n h d; rw [h]
@[simp] theorem raise_staged (c : Chip) (n h d : Nat) : (c.raise n h d).staged = c.staged := by obtain ⟨_, _, h⟩ := raise_only c n h d; rw [h]
@[simp] theorem raise_gens (c : Chip) (n h d : Nat) : (c.raise n h d).gens = c.gens := by obtain ⟨_, _, h⟩ := raise_only c n h d; rw [h]
@[simp] theorem raise_out (c : Chip) (n h d : Nat) : (c.raise n h d).out = c.out := by obtain ⟨_, _, h⟩ := raise_only c n h d; rw [h]
@[simp] theorem raise_bus (c : Chip) (n h d : Nat) : (c.raise n h d).bus = c.bus := by obtain ⟨_, _, h⟩ := raise_only c n h d; rw [h]
@[simp] theorem raise_fes (c : Chip) (n h d : Nat) : (c.raise n h d).fes = c.fes := by obtain ⟨_, _, h⟩ := raise_only c n h d; rw [h]
@[simp] theorem raise_adcs (c : Chip) (n h d : Nat) : (c.raise n h d).adcs = c.adcs := by obtain ⟨_, _, h⟩ := raise_only c n h d; rw [h]
@[simp] theorem raise_wins (c : Chip) (n h d : Nat) : (c.raise n h d).wins = c.wins := by obtain ⟨_, _, h⟩ := raise_only c n h d; rw [h]
@[simp] theorem raise_canvas (c : Chip) (n h d : Nat) : (c.raise n h d).canvas = c.canvas := by obtain ⟨_, _, h⟩ := raise_only c n h d; rw [h]
@[simp] theorem raise_lanes (c : Chip) (n h d : Nat) : (c.raise n h d).lanes = c.lanes := by obtain ⟨_, _, h⟩ := raise_only c n h d; rw [h]
@[simp] theorem raise_srcs (c : Chip) (n h d : Nat) : (c.raise n h d).srcs = c.srcs := by obtain ⟨_, _, h⟩ := raise_only c n h d; rw [h]
@[simp] theorem raise_palette (c : Chip) (n h d : Nat) : (c.raise n h d).palette = c.palette := by obtain ⟨_, _, h⟩ := raise_only c n h d; rw [h]
@[simp] theorem raise_jobs (c : Chip) (n h d : Nat) : (c.raise n h d).jobs = c.jobs := by obtain ⟨_, _, h⟩ := raise_only c n h d; rw [h]
@[simp] theorem raise_sched (c : Chip) (n h d : Nat) : (c.raise n h d).sched = c.sched := by obtain ⟨_, _, h⟩ := raise_only c n h d; rw [h]
@[simp] theorem raise_glimpses (c : Chip) (n h d : Nat) : (c.raise n h d).glimpses = c.glimpses := by obtain ⟨_, _, h⟩ := raise_only c n h d; rw [h]
@[simp] theorem raise_gallery (c : Chip) (n h d : Nat) : (c.raise n h d).gallery = c.gallery := by obtain ⟨_, _, h⟩ := raise_only c n h d; rw [h]
@[simp] theorem raise_afPool (c : Chip) (n h d : Nat) : (c.raise n h d).afPool = c.afPool := by obtain ⟨_, _, h⟩ := raise_only c n h d; rw [h]
@[simp] theorem raise_swtLog (c : Chip) (n h d : Nat) : (c.raise n h d).swtLog = c.swtLog := by obtain ⟨_, _, h⟩ := raise_only c n h d; rw [h]
@[simp] theorem raise_linkRef (c : Chip) (n h d : Nat) : (c.raise n h d).linkRef = c.linkRef := by obtain ⟨_, _, h⟩ := raise_only c n h d; rw [h]
@[simp] theorem raise_follows (c : Chip) (n h d : Nat) : (c.raise n h d).follows = c.follows := by obtain ⟨_, _, h⟩ := raise_only c n h d; rw [h]
@[simp] theorem raise_boot (c : Chip) (n h d : Nat) : (c.raise n h d).boot = c.boot := by obtain ⟨_, _, h⟩ := raise_only c n h d; rw [h]
@[simp] theorem raise_enss (c : Chip) (n h d : Nat) : (c.raise n h d).enss = c.enss := by obtain ⟨_, _, h⟩ := raise_only c n h d; rw [h]
@[simp] theorem raise_trl (c : Chip) (n h d : Nat) : (c.raise n h d).trl = c.trl := by obtain ⟨_, _, h⟩ := raise_only c n h d; rw [h]
@[simp] theorem raise_trlOrder (c : Chip) (n h d : Nat) : (c.raise n h d).trlOrder = c.trlOrder := by obtain ⟨_, _, h⟩ := raise_only c n h d; rw [h]
@[simp] theorem raise_trlUsed (c : Chip) (n h d : Nat) : (c.raise n h d).trlUsed = c.trlUsed := by obtain ⟨_, _, h⟩ := raise_only c n h d; rw [h]
@[simp] theorem raise_trlPart (c : Chip) (n h d : Nat) : (c.raise n h d).trlPart = c.trlPart := by obtain ⟨_, _, h⟩ := raise_only c n h d; rw [h]
@[simp] theorem raise_drms (c : Chip) (n h d : Nat) : (c.raise n h d).drms = c.drms := by obtain ⟨_, _, h⟩ := raise_only c n h d; rw [h]
@[simp] theorem raise_fms (c : Chip) (n h d : Nat) : (c.raise n h d).fms = c.fms := by obtain ⟨_, _, h⟩ := raise_only c n h d; rw [h]
@[simp] theorem raise_ams (c : Chip) (n h d : Nat) : (c.raise n h d).ams = c.ams := by obtain ⟨_, _, h⟩ := raise_only c n h d; rw [h]
@[simp] theorem raise_alarms (c : Chip) (n h d : Nat) : (c.raise n h d).alarms = c.alarms := by obtain ⟨_, _, h⟩ := raise_only c n h d; rw [h]
@[simp] theorem raise_almPend (c : Chip) (n h d : Nat) : (c.raise n h d).almPend = c.almPend := by obtain ⟨_, _, h⟩ := raise_only c n h d; rw [h]
@[simp] theorem raise_almOrder (c : Chip) (n h d : Nat) : (c.raise n h d).almOrder = c.almOrder := by obtain ⟨_, _, h⟩ := raise_only c n h d; rw [h]
@[simp] theorem raise_alertAt (c : Chip) (n h d : Nat) : (c.raise n h d).alertAt = c.alertAt := by obtain ⟨_, _, h⟩ := raise_only c n h d; rw [h]
@[simp] theorem raise_gal (c : Chip) (n h d : Nat) : (c.raise n h d).gal = c.gal := by obtain ⟨_, _, h⟩ := raise_only c n h d; rw [h]
@[simp] theorem raise_times (c : Chip) (n h d : Nat) : (c.raise n h d).times = c.times := by obtain ⟨_, _, h⟩ := raise_only c n h d; rw [h]
@[simp] theorem raise_timeUse (c : Chip) (n h d : Nat) : (c.raise n h d).timeUse = c.timeUse := by obtain ⟨_, _, h⟩ := raise_only c n h d; rw [h]
@[simp] theorem raise_timeStale (c : Chip) (n h d : Nat) : (c.raise n h d).timeStale = c.timeStale := by obtain ⟨_, _, h⟩ := raise_only c n h d; rw [h]
@[simp] theorem raise_mscs (c : Chip) (n h d : Nat) : (c.raise n h d).mscs = c.mscs := by obtain ⟨_, _, h⟩ := raise_only c n h d; rw [h]
@[simp] theorem raise_mscOrder (c : Chip) (n h d : Nat) : (c.raise n h d).mscOrder = c.mscOrder := by obtain ⟨_, _, h⟩ := raise_only c n h d; rw [h]
@[simp] theorem raise_vers (c : Chip) (n h d : Nat) : (c.raise n h d).vers = c.vers := by obtain ⟨_, _, h⟩ := raise_only c n h d; rw [h]
@[simp] theorem raise_swts (c : Chip) (n h d : Nat) : (c.raise n h d).swts = c.swts := by obtain ⟨_, _, h⟩ := raise_only c n h d; rw [h]
@[simp] theorem raise_swtHigh (c : Chip) (n h d : Nat) : (c.raise n h d).swtHigh = c.swtHigh := by obtain ⟨_, _, h⟩ := raise_only c n h d; rw [h]
@[simp] theorem raise_aport (c : Chip) (n h d : Nat) : (c.raise n h d).aport = c.aport := by obtain ⟨_, _, h⟩ := raise_only c n h d; rw [h]
@[simp] theorem raise_audio (c : Chip) (n h d : Nat) : (c.raise n h d).audio = c.audio := by obtain ⟨_, _, h⟩ := raise_only c n h d; rw [h]
@[simp] theorem raise_dacs (c : Chip) (n h d : Nat) : (c.raise n h d).dacs = c.dacs := by obtain ⟨_, _, h⟩ := raise_only c n h d; rw [h]
@[simp] theorem raise_link (c : Chip) (n h d : Nat) : (c.raise n h d).link = c.link := by obtain ⟨_, _, h⟩ := raise_only c n h d; rw [h]
@[simp] theorem raise_varn (c : Chip) (n h d : Nat) : (c.raise n h d).varn = c.varn := by obtain ⟨_, _, h⟩ := raise_only c n h d; rw [h]
@[simp] theorem raise_free (c : Chip) (n h d : Nat) : (c.raise n h d).free = c.free := by obtain ⟨_, _, h⟩ := raise_only c n h d; rw [h]

/-! A read of a sub-state just changed. -/

theorem lane_modLane (c : Chip) (k j : Nat) (f : LaneSt → LaneSt) : (c.modLane k f).lane j = if j = k then f (c.lane k) else c.lane j := by
  unfold Chip.lane Chip.modLane Tbl.mod
  split
  · rename_i h; subst h; exact tbl_get_set_same _ _ _ _
  · rename_i h; exact tbl_get_set_other _ _ _ _ _ _ h

theorem win_modWin (c : Chip) (k j : Nat) (f : WinSt → WinSt) : (c.modWin k f).win j = if j = k then f (c.win k) else c.win j := by
  unfold Chip.win Chip.modWin Tbl.mod
  split
  · rename_i h; subst h; exact tbl_get_set_same _ _ _ _
  · rename_i h; exact tbl_get_set_other _ _ _ _ _ _ h

theorem fe_modFe (c : Chip) (k j : Nat) (f : FeSt → FeSt) : (c.modFe k f).fe j = if j = k then f (c.fe k) else c.fe j := by
  unfold Chip.fe Chip.modFe Tbl.mod
  split
  · rename_i h; subst h; exact tbl_get_set_same _ _ _ _
  · rename_i h; exact tbl_get_set_other _ _ _ _ _ _ h

theorem adc_modAdc (c : Chip) (k j : Nat) (f : AdcSt → AdcSt) : (c.modAdc k f).adc j = if j = k then f (c.adc k) else c.adc j := by
  unfold Chip.adc Chip.modAdc Tbl.mod
  split
  · rename_i h; subst h; exact tbl_get_set_same _ _ _ _
  · rename_i h; exact tbl_get_set_other _ _ _ _ _ _ h

theorem loop_modLoop (c : Chip) (k j : Nat) (f : LoopSt → LoopSt) : (c.modLoop k f).loop j = if j = k then f (c.loop k) else c.loop j := by
  unfold Chip.loop Chip.modLoop Tbl.mod
  split
  · rename_i h; subst h; exact tbl_get_set_same _ _ _ _
  · rename_i h; exact tbl_get_set_other _ _ _ _ _ _ h

theorem job_setJob (c : Chip) (k j : Nat) (x : Job) : (c.setJob k x).job? j = if j = k then some x else c.job? j := by
  unfold Chip.job? Chip.setJob
  split
  · rename_i h; subst h; exact tbl_find_put_same _ _ _
  · rename_i h; exact tbl_find_put_other _ _ _ _ h

/-! The forms of a meaning: none touches the queue, and only those with the key slots in hand touch them. -/

@[simp] theorem onChip_pending (s : State) (f : Chip → Chip) : (s.onChip f).pending = s.pending := rfl
@[simp] theorem onChip_keys (s : State) (f : Chip → Chip) : (s.onChip f).keys = s.keys := rfl
@[simp] theorem onChip_chip (s : State) (f : Chip → Chip) : (s.onChip f).chip = f s.chip := rfl
@[simp] theorem withKeys_pending (s : State) (f : Tbl Key → Chip → Chip) : (s.withKeys f).pending = s.pending := rfl
@[simp] theorem withKeys_keys (s : State) (f : Tbl Key → Chip → Chip) : (s.withKeys f).keys = s.keys := rfl
@[simp] theorem withKeys_chip (s : State) (f : Tbl Key → Chip → Chip) : (s.withKeys f).chip = f s.keys s.chip := rfl
@[simp] theorem onCtl_pending (s : State) (f : Chip → Chip) : (s.onCtl f).pending = s.pending := rfl
@[simp] theorem onCtl_keys (s : State) (f : Chip → Chip) : (s.onCtl f).keys = s.keys := rfl
@[simp] theorem onDsp_pending (s : State) (b : Bool) (f : Chip → Chip) : (s.onDsp b f).pending = s.pending := rfl
@[simp] theorem onDsp_keys (s : State) (b : Bool) (f : Chip → Chip) : (s.onDsp b f).keys = s.keys := rfl
@[simp] theorem both_pending (s : State) (f : Tbl Key → Chip → Tbl Key × Chip) : (s.both f).pending = s.pending := rfl
@[simp] theorem both_chip (s : State) (f : Tbl Key → Chip → Tbl Key × Chip) : (s.both f).chip = (f s.keys s.chip).2 := rfl
@[simp] theorem both_keys (s : State) (f : Tbl Key → Chip → Tbl Key × Chip) : (s.both f).keys = keysLeft (f s.keys s.chip).1 (f s.keys s.chip).2 := rfl
@[simp] theorem onTime_pending (s : State) (f : Chip → Chip) : (s.onTime f).pending = s.pending := rfl
@[simp] theorem onTime_chip (s : State) (f : Chip → Chip) : (s.onTime f).chip = f s.chip := rfl
@[simp] theorem onTime_keys (s : State) (f : Chip → Chip) : (s.onTime f).keys = keysLeft s.keys (f s.chip) := rfl

theorem onCtl_chip (s : State) (f : Chip → Chip) (h : s.chip.ctlOn = true) : (s.onCtl f).chip = f s.chip := by
  simp [State.onCtl, Chip.live, h]

theorem onDsp_chip (s : State) (ok : Bool) (f : Chip → Chip) (ho : ok = true) (h : s.chip.ctlOn = true) (hs : s.chip.blocksAsleep = false) :
    (s.onDsp ok f).chip = f s.chip := by
  simp [State.onDsp, ho, h, hs]

@[simp] theorem command_pending (s : State) (i : Instr) : (s.command i).pending = s.pending := by
  unfold State.command; split <;> rfl

end Sys2Proof.Laws
end

