-- ==== Sys2Proof/Laws/Host.lean ====
section
/-! SUPPORT. Host commands: which leave the key slots alone, and what a command does when the bus takes it at once. -/

namespace Sys2Proof.Laws

open Sys2Proof Sys2Proof.Machine

/-- Every effect that a row may have leaves the key slots as they are. -/
def KeepsKeys (o : Option (List Nat × HostFx)) : Prop := match o with
  | none => True
  | some p => ∀ k c, (p.2 k c).2.1 = k

theorem keeps_ite {P : Prop} [Decidable P] (x : Option (List Nat × HostFx)) (h : KeepsKeys x) : KeepsKeys (if P then x else none) := by
  split
  · exact h
  · trivial

theorem keeps_plain (v : List Nat) (f) : KeepsKeys (some (v, plain f)) := fun _ _ => rfl
theorem keeps_keyed (v : List Nat) (f) : KeepsKeys (some (v, keyed f)) := fun _ _ => rfl
theorem keeps_ask (v : List Nat) (f) : KeepsKeys (some (v, ask f)) := fun _ _ => rfl
theorem keeps_one (v : List Nat) (a x) : KeepsKeys (some (v, one a x)) := fun _ _ => rfl
theorem keeps_bad (v : List Nat) : KeepsKeys (some (v, bad)) := fun _ _ => rfl

theorem hostFx_keys (i : Instr) (h : movesKeys i = false) : KeepsKeys (hostFx i) := by
  cases i <;> first
    | (cases h; done)
    | exact trivial
    | exact keeps_one _ _ _
    | exact keeps_plain _ _
    | exact keeps_keyed _ _
    | exact keeps_ask _ _
    | exact keeps_ite _ (keeps_one _ _ _)
    | exact keeps_ite _ (keeps_plain _ _)
    | exact keeps_ite _ (keeps_bad _)

theorem runHost_keys (i : Instr) (h : movesKeys i = false) (fx : List Nat × HostFx) (e : hostFx i = some fx) (k : Tbl Key) (c : Chip) :
    (runHost fx k c).1 = k := by
  have hk := hostFx_keys i h
  rw [e] at hk
  unfold runHost
  dsimp only
  split
  · exact hk _ _
  · rfl

theorem takeHost_keys (i : Instr) (h : movesKeys i = false) (fx : List Nat × HostFx) (e : hostFx i = some fx) (k : Tbl Key) (c : Chip) :
    (takeHost i fx k c).1 = k := by
  unfold takeHost
  dsimp only
  repeat (first | rfl | exact runHost_keys i h fx e _ _ | split)

theorem keysLeft_cases (k : Tbl Key) (c : Chip) : keysLeft k c = k ∨ (keysLeft k c = [] ∧ c.ctlOn = false) := by
  unfold keysLeft; split
  · exact .inl rfl
  · rename_i h; exact .inr ⟨rfl, by simpa using h⟩

/-- A host command other than the key rows leaves the key slots alone, or finds them lost with their supply. -/
theorem command_keys (i : Instr) (h : movesKeys i = false) (s : State) :
    (s.command i).keys = s.keys ∨ ((s.command i).keys = [] ∧ (s.command i).chip.ctlOn = false) := by
  unfold State.command
  split
  · exact .inl rfl
  · rename_i fx e
    rw [both_keys, both_chip]
    have := keysLeft_cases (takeHost i fx s.keys s.chip).1 (takeHost i fx s.keys s.chip).2
    rwa [takeHost_keys i h fx e s.keys s.chip] at this ⊢

theorem busStop_none (c : Chip) (h : c.bus.atStop = false) : c.busStop = c := by simp [Chip.busStop, h]

theorem wakeCtl_awake (c : Chip) (h : c.asleep = false) : c.wakeCtl = c := by simp [Chip.wakeCtl, h]

/-- A command that the bus takes at once is carried out (R411): its effect acts on the chip as `Chip.taken` leaves it, and its reply is held. -/
theorem command_ready (i : Instr) (vs : List Nat) (fx : HostFx) (e : hostFx i = some (vs, fx)) (s : State) (h : s.chip.hostReady vs = true) :
    s.command i = s.both fun k _ => ((fx k s.chip.taken).2.1, (fx k s.chip.taken).2.2.answer (fx k s.chip.taken).1) := by
  unfold Chip.hostReady at h
  simp only [Bool.and_eq_true, Bool.not_eq_true'] at h
  obtain ⟨⟨⟨⟨⟨⟨⟨h1, h2⟩, h3⟩, h4⟩, h5⟩, h6⟩, h8⟩, h7⟩ := h
  have hv : s.chip.taken.reg 0x501 = s.chip.reg 0x501 :=
    reg_count_other _ _ _ (by decide) (by decide) (by intro x hx; have : x = (0x518, 0) := by simpa [show satOf 0x510 = some (0x518, 0) from by decide] using hx.symm
                                                      subst this; decide)
  unfold State.command
  rw [e]
  dsimp only [State.both, takeHost]
  simp only [h1, h3, wakeCtl_awake _ h2, busStop_none _ h8, h4, h5, Bool.not_true, Bool.or_self, Bool.false_eq_true, if_false]
  show State.mk _ _ _ = State.mk _ _ _
  unfold runHost
  have : vs.contains (s.chip.taken.reg 0x501) = true := by rw [hv]; exact h7
  simp only [Chip.taken] at this ⊢
  simp only [this, if_true]

/-! The reply of a command that leaves CTL powered. -/

theorem taken_only (c : Chip) : ∃ r e, c.taken = { c with regs := r, ev := e, power := { c.power with hostHold := c.tick + c.reg 0x308 } } := by
  obtain ⟨r, e, h⟩ := count_only c.holdHost 0x510
  exact ⟨r, e, h⟩

@[simp] theorem taken_staged (c : Chip) : c.taken.staged = c.staged := by
  obtain ⟨_, _, h⟩ := taken_only c; rw [h]

/-- The count of commands and its SAT bit are all that a command moves before its effect. -/
theorem taken_reg (c : Chip) (a : Nat) (h1 : a ≠ 0x510) (h2 : a ≠ 0x518) (h3 : a ≠ 0x104) : c.taken.reg a = c.reg a := by
  have e : satOf 0x510 = some (0x518, 0) := by decide
  exact reg_count_other _ _ _ h1 h3 (by intro x hx; rw [e] at hx; injection hx with hx; subst hx; exact h2)

@[simp] theorem taken_ctlOn (c : Chip) : c.taken.ctlOn = c.ctlOn := by
  simp [Chip.taken, Chip.ctlOn, Chip.holdHost]

theorem answer_cons (c : Chip) (b : Byte) (l : List Byte) (h : c.bus.stretch = none) :
    c.answer (b :: l) = { c with bus := { c.bus with reply := b :: l, complete := true } }.put 0x508 3 := by
  unfold Chip.answer Chip.setReply
  simp [h]

theorem keysLeft_on (k : Tbl Key) (c : Chip) (h : c.ctlOn = true) : keysLeft k c = k := by simp [keysLeft, h]

/-- A command whose effect keeps CTL powered, the key slots and the stretch answers a next state with the reply held, and the parameters of the effect. -/
theorem command_effect (i : Instr) (vs : List Nat) (fx : HostFx) (e : hostFx i = some (vs, fx)) (s : State) (h : s.chip.hostReady vs = true)
    (b : Byte) (l : List Byte) (d : Chip) (hf : fx s.keys s.chip.taken = (b :: l, s.keys, d)) (hc : d.ctlOn = true) (hs : d.bus.stretch = none) :
    s.command i = { s with chip := { d with bus := { d.bus with reply := b :: l, complete := true } }.put 0x508 3 } := by
  rw [command_ready i vs fx e s h]
  unfold State.both
  simp only [hf, answer_cons _ _ _ hs]
  rw [keysLeft_on]
  exact hc

theorem hostReady_parts (c : Chip) (vs : List Nat) (h : c.hostReady vs = true) : c.ctlOn = true ∧ c.bus.stretch = none := by
  unfold Chip.hostReady at h
  simp only [Bool.and_eq_true, Bool.not_eq_true'] at h
  exact ⟨h.1.1.1.1.1.1.1, by simpa using h.1.1.2⟩

theorem writeReply_ok (a : Nat) : writeReply 0 a = writeDone := by
  unfold writeReply; simp only [if_true]; rfl

theorem writeReply_no (reason a : Nat) (h : reason ≠ 0) : writeReply reason a = [b8 reason, 0x00] ++ le 2 a := by
  unfold writeReply; simp only [h, if_false]; rfl

theorem and_mask_mod (v a : Nat) (h : maskAt a < 2 ^ 32) : ((v &&& maskAt a) &&& maskAt a) % 2 ^ 32 = v &&& maskAt a := by
  rw [Nat.and_assoc, Nat.and_self, Nat.mod_eq_of_lt]
  exact Nat.lt_of_le_of_lt Nat.and_le_right h

/-- After the reply the parameters are those of the effect, with HB_STATE at 3. -/
theorem replied_regs (s : State) (d : Chip) (body : List Byte) (ex : List Nat) (h : ∀ a, a ∉ ex → d.reg a = s.chip.taken.reg a) :
    ({ d with bus := { d.bus with reply := body, complete := true } }.put 0x508 3 : Chip).replied body ∧
      SameRegs (ex ++ hostRegs) s.chip ({ d with bus := { d.bus with reply := body, complete := true } }.put 0x508 3) := by
  refine ⟨⟨rfl, rfl, by rw [reg_put_same]; decide⟩, ?_⟩
  intro b hb hx
  simp only [hostRegs, List.mem_append, List.mem_cons, List.not_mem_nil, or_false, not_or] at hx
  rw [reg_put_other _ _ _ _ hx.2.1]
  show d.reg b = _
  rw [h b hx.1, taken_reg _ _ hx.2.2.1 hx.2.2.2 (by intro h; subst h; exact hb (by decide))]

/-- A one-entry write that waits for the tick boundary. -/
theorem waits_of (i : Instr) (s : State) (a n : Nat) (h : s.chip.hostReady [2, 3] = true) (hx : exec i s = .next (s.command i))
    (e : hostFx i = some (native, one a n)) (hm : maskAt a < 2 ^ 32)
    (hw : s.chip.taken.writeParam a n = (0, s.chip.taken.stage a (n &&& maskAt a))) : Waits i s a n := by
  obtain ⟨hc, hs⟩ := hostReady_parts _ _ h
  have hf : one a n s.keys s.chip.taken = ((0 : Byte) :: [0x01, 0xFF, 0xFF], s.keys, s.chip.taken.stage a (n &&& maskAt a)) := by
    simp only [one, plain, writeOne, hw, writeReply_ok]; rfl
  have hst : (s.chip.taken.stage a (n &&& maskAt a)).bus.stretch = none := by
    obtain ⟨_, _, ht⟩ := taken_only s.chip; rw [ht]; exact hs
  refine ⟨_, by unfold Becomes; rw [hx, command_effect i _ _ e s h _ _ _ hf ((taken_ctlOn s.chip).trans hc) hst], ?_, ?_⟩
  · show (Tbl.find (Tbl.put s.chip.taken.staged a _) a |>.getD _).toNat = _
    rw [tbl_find_put_same]
    exact (BitVec.toNat_ofNat _ _).trans (and_mask_mod n a hm)
  · exact replied_regs s _ _ [] (fun _ _ => rfl)

/-- A one-entry write that is in force at once. -/
theorem acts_of (i : Instr) (s : State) (a n m : Nat) (h : s.chip.hostReady [2, 3] = true) (hx : exec i s = .next (s.command i))
    (e : hostFx i = some (native, one a n)) (hm : maskAt a < 2 ^ 32) (h8 : a ≠ 0x508) (d : Chip) (hn : m &&& maskAt a = n &&& maskAt a)
    (hw : s.chip.taken.writeParam a n = (0, d)) (hr : d.regs = (s.chip.taken.put a m).regs) (hc : d.ctlOn = true)
    (hs : d.bus.stretch = none) : Acts i s a n := by
  have hf : one a n s.keys s.chip.taken = ((0 : Byte) :: [0x01, 0xFF, 0xFF], s.keys, d) := by
    simp only [one, plain, writeOne, hw, writeReply_ok]; rfl
  have hreg : ∀ b, d.reg b = (s.chip.taken.put a m).reg b := fun b => by unfold Chip.reg Chip.raw; rw [hr]
  refine ⟨_, by unfold Becomes; rw [hx, command_effect i _ _ e s h _ _ _ hf hc hs], ?_, ?_⟩
  · rw [reg_put_other _ _ _ _ h8]
    show d.reg a = _
    rw [hreg, reg_put_same, hn, Nat.mod_eq_of_lt]
    exact Nat.lt_of_le_of_lt Nat.and_le_right hm
  · refine replied_regs s d _ [a] (fun b hb => ?_)
    rw [hreg]
    exact reg_put_other _ _ _ _ (by simpa using hb)

/-- A one-entry write that is refused without effect. -/
theorem refuses_of (i : Instr) (s : State) (a n reason : Nat) (h : s.chip.hostReady [2, 3] = true) (hx : exec i s = .next (s.command i))
    (e : hostFx i = some (native, one a n)) (hr : reason ≠ 0) (hw : s.chip.taken.writeParam a n = (reason, s.chip.taken)) :
    Refuses i s ([b8 reason, 0x00] ++ le 2 a) := by
  obtain ⟨hc, hs⟩ := hostReady_parts _ _ h
  have hf : one a n s.keys s.chip.taken = (b8 reason :: ([0x00] ++ le 2 a), s.keys, s.chip.taken) := by
    simp only [one, plain, writeOne, hw, writeReply_no _ _ hr]; rfl
  have hst : s.chip.taken.bus.stretch = none := by
    obtain ⟨_, _, ht⟩ := taken_only s.chip; rw [ht]; exact hs
  refine ⟨_, by unfold Becomes; rw [hx, command_effect i _ _ e s h _ _ _ hf ((taken_ctlOn s.chip).trans hc) hst], ?_⟩
  exact replied_regs s _ _ [] (fun _ _ => rfl)

end Sys2Proof.Laws
end

