-- ==== Sys2Proof/Tests/Slice0.lean ====
section
/-! SUPPORT. Tests: for every row of the table, small states that meet the hypotheses of the statements about it (each named beside its state), with what the
statement says the row does there. -/

namespace Sys2Proof.Tests

open Sys2Proof Sys2Proof.Machine

set_option Elab.async false

/-- The command ends in a chip that passes the check. -/
def ends (i : Instr) (s : State) (p : Chip → Bool) : Bool := match exec i s with
  | .next t => p t.chip
  | _ => false

/-- The command ends in a state that passes the check. -/
def after (i : Instr) (s : State) (p : State → Bool) : Bool := match exec i s with
  | .next t => p t
  | _ => false

/-- The command ends with this chip. -/
def becomes (i : Instr) (s : State) (c : Chip) : Bool := after i s fun t => decide (t = { s with chip := c })

/-- As `becomes`, with the key slots lost where their supply has ended. -/
def becomesPowered (i : Instr) (s : State) (c : Chip) : Bool := after i s fun t => decide (t = { s with keys := keysLeft s.keys c, chip := c })

/-- The command changes nothing. -/
def idle (i : Instr) (s : State) : Bool := becomes i s s.chip

/-- No parameter outside page 0x01 and `ex` has changed, by the parameters that either chip lists. -/
def same (ex : List Nat) (c d : Chip) : Bool := (c.regs ++ d.regs).all fun e => e.1 / 256 == 1 || ex.contains e.1 || c.reg e.1 == d.reg e.1

def sameButRecords (ex : List Nat) (c d : Chip) : Bool := (c.regs ++ d.regs).all fun e => [1, 6, 7].contains (e.1 / 256) || ex.contains e.1 || c.reg e.1 == d.reg e.1

/-- The parameters that either chip lists. -/
def regKeys (c d : Chip) : List Nat := (c.regs ++ d.regs).map (·.1)

def upTo (n : Nat) (f : Nat → Bool) : Bool := (List.range n).all f

def replied (c : Chip) (b : List Byte) : Bool := c.bus.reply == b && c.bus.complete && c.reg 0x508 == 3

def answers (i : Instr) (s : State) (b : List Byte) : Bool := ends i s fun c => replied c b && same hostRegs s.chip c
def waits (i : Instr) (s : State) (a v : Nat) : Bool := ends i s fun c => c.view a == v &&& maskAt a && replied c writeDone && same hostRegs s.chip c
def acts (i : Instr) (s : State) (a v : Nat) : Bool := ends i s fun c => c.reg a == v &&& maskAt a && replied c writeDone && same (a :: hostRegs) s.chip c

/-! Small states. -/

def on (s : State) (f : Chip → Chip) : State := s.onChip f

/-- The reset state with some parameters set. -/
def at_ (l : List (Nat × Nat)) : State := on State.reset fun c => l.foldl (fun c e => c.put e.1 e.2) c

def booted (s : State) : State := on s fun c => { c with boot := { c.boot with done := true, phase := 7 } }

/-- After boot, with version `v` in force and some parameters set. -/
def up (v : Nat) (l : List (Nat × Nat)) : State := booted (at_ ((0x501, v) :: l))

/-- At the start of tick `n`. -/
def tl (n : Nat) (s : State) : State := on s fun c => { c with time := { c.time with now := 32000 * n, tick := n + 1 } }

def boot (s : State) (f : BootSt → BootSt) : State := on s fun c => { c with boot := f c.boot }
def bus (s : State) (f : BusSt → BusSt) : State := on s fun c => { c with bus := f c.bus }
def power (s : State) (f : PowerSt → PowerSt) : State := on s fun c => { c with power := f c.power }
def link (s : State) (f : LinkSt → LinkSt) : State := on s fun c => { c with link := f c.link }
def lane (s : State) (k : Nat) (f : LaneSt → LaneSt) : State := on s fun c => c.modLane k f
def follow (s : State) (i : Nat) (f : FollowSt → FollowSt) : State := on s fun c => c.modFollow i f

/-- A running lane with job `j` of an option. -/
def runs (s : State) (k j o : Nat) : State := lane s k fun l => { l with job := some j, option := o, started := true, filled := true }

/-- A running job. -/
def aJob (d : List Byte) : Job :=
  { desc := d, state := 2, reason := 0, start := 0, stop := none, allowance := 0, lmin := 0, rate := 0, mean := 0, burst := 0, trellis := 0, lanes := [], pages := [],
    origin := 0, records := 0, late := 0, shed := 0, maxLate := 0, sat := 0, lateRun := false, shedRun := false, ending := none, voided := false }

def job (s : State) (j : Nat) (x : Job) : State := on s fun c => c.setJob j x

/-- Events pending. -/
def raised (s : State) (l : List Nat) : State := on s fun c => l.foldl (fun c n => c.makePending n) c


/-- A valid journal slot in four parts, and its check word. -/
def slotPart : Nat → List Byte
  | 0 => [0x4A, 0x5A, 1, 0, 9, 0, 0, 0, 7, 0, 0, 0, 2, 1, 0, 0, 0, 0, 0xD2, 0x04] ++ zeros 11
  | 1 => zeros 31
  | 2 => zeros 31
  | _ => [0, 0, 0, 0x55, 0x55, 0x55, 0x55] ++ zeros 24

def slotNine : List Byte := slotPart 0 ++ slotPart 1 ++ slotPart 2 ++ slotPart 3 ++ le 4 0x994E4946

theorem crc32From_append (r : Word) (a b : List Byte) : crc32From r (a ++ b) = crc32From (crc32From r a) b := by
  induction a generalizing r with
  | nil => rfl
  | cons x t ih => exact ih _

theorem slot_crc0 : crc32From 0xFFFFFFFF (slotPart 0) = 0xEF7CDB12 := by decide +kernel
theorem slot_crc1 : crc32From 0xEF7CDB12 (slotPart 1) = 0xF8F5F7B2 := by decide +kernel
theorem slot_crc2 : crc32From 0xF8F5F7B2 (slotPart 2) = 0x71669EEA := by decide +kernel
theorem slot_crc3 : crc32From 0x71669EEA (slotPart 3) = 0x66B1B6B9 := by decide +kernel

theorem slotNine_crc : (crc32c (slotNine.take 124)).toNat = 0x994E4946 := by
  have h : slotNine.take 124 = slotPart 0 ++ slotPart 1 ++ slotPart 2 ++ slotPart 3 := by decide +kernel
  rw [h, crc32c, crc32From_append, crc32From_append, crc32From_append, slot_crc0, slot_crc1, slot_crc2, slot_crc3]
  rfl

-- BootReads, clause 7
theorem test_journalRead_newest : newestSlot (zeros 128) slotNine = some 1 := by
  have a : slotOk (zeros 128) = false := by decide +kernel
  have b : slotOk slotNine = true := by
    rw [slotOk, slotNine_crc]
    decide +kernel
  rw [newestSlot, a, b]
  rfl

def rowD (a : Nat) : PRow := match rowAt a with | some r => r | none => prow 0 0 .ro 0

def mem : MemberSt := { kind := 1, kHz := 98000, ident := 0x1234, regional := false, evidence := none, verified := true, score := none, aligned := false, lag := 0, prev := none, move := none, fails := 0, estAt := 0, wanted := false }

def gl : Glimpse := { handle := 0x60000000, kind := 1, divider := 1, misses := 0, nextG := 12, span := 4, active := false, blocks := 0, failed := false }

/-- Four ensembles in state 4 with these estimates in 0.01 ppm. -/
def rateUp (l : List Int) : State := tl 9 (up 2 ((0xA06, 4) :: ((List.range 4).zip l).flatMap fun e => [(dabA e.1 0, e.1), (dabA e.1 1, 4), (dabA e.1 4, ofSigned 16 e.2)]))

def qrec (j : Option Nat) (cls : Nat) : QRec := { rec_ := { ty := 0x0A, handle := 0x80000000, seq := 3, ts := 5, flags := 0, body := [1, 2, 3, 4] }, job := j, cls := cls, deadline := some 100, order := 0, waiting := none, opens := 0, bad := false }

def strUp : State := on (up 2 [(0x600, 1), (0x200, 2), (0x210, 2), (winA 3 2, 2), (winA 3 1, 0), (0x302, 0xFFFF), (0x303, 15)]) fun c => { c with canvas := { c.canvas with active := [(0, 0x00124000#32)] } }

def waiting (k o : Nat) : State := lane (job (up 2 [(winA 3 2, 2), (laneA k 0, 0xF3)]) 7 (aJob (mkDesc 1 0 0x01 0x60000000 0))) k fun l => { l with job := some 7, option := o }

def mem0 : MemberSt := { kind := 0, kHz := 98000, ident := 0x1234, regional := false, evidence := some 0, verified := true, score := none, aligned := false, lag := 0, prev := none, move := none, fails := 0, estAt := 0, wanted := false }

def ensAt (st : Nat) : State := runs (up 2 [(dabA 2 0, 9), (dabA 2 1, st)]) 9 0 0x10

def ensWith (st : Nat) (f : EnsSt → EnsSt) : State := on (ensAt st) fun c => c.modEns 2 f

def mscWith (size rate : Nat) (f : MscSt → MscSt) : State := on (job (ensAt 4) 4 (aJob (mkDesc 2 1 0 (9 * 131072) 0))) fun c => { c with mscs := [(4, f { MscSt.reset with decoding := true, sync := true, plus := true, cfg := some { start := 0, size := size, prot := 2, rate := rate }, fails := 2 })] }

/-- Five logical frames of a superframe whose bytes are `b`. -/
def superBytes (b : List Byte) : List MscFrame := (groupsOf 24 5 b).map fun l => { cif := 9, ref := 5, corrected := 0, bytes := l }

/-- A FIB: its FIGs, padding, and the complement of its CRC. -/
def fibW (l : List Byte) : List Byte :=
  let d := l ++ [0xFF] ++ zeros (29 - l.length)
  let r := 0xFFFF - (crc16 d).toNat
  d ++ [b8 (r / 256), b8 r]

/-- FIG 0/1 of the current (0) or next configuration (0x80): SubChId 63 from CU 864 on, EEP-A protection 2, 80 CU. -/
def figSub63 (cn : Byte) : List Byte := [5, 1 + cn, 0xFF, 0x60, 0x84, 0x50]

/-- A number as bits, and bits with their CRC of `n` bits. -/
def natB (n v : Nat) : List Bool := (List.range n).map fun i => v.testBit (n - 1 - i)
def facW (l : List Bool) : List Bool := l ++ natB 8 (255 - crcOf 8 0x1D 0xFF l)
def sdcW (l : List Bool) : List Bool := l ++ natB 16 (0xFFFF - crcOf 16 0x1021 0xFFFF ([false, false, false, false] ++ l))

/-- An RDS block on air: its check word with offset `o`, and its bits from studio time `t` on. -/
def rdsW (v o : Nat) : Nat := v * 1024 ^^^ rdsSyndrome 16 (v * 1024) ^^^ rdsOffset o
def rdsB (t w : Nat) : List (Nat × Bool) := (List.range 26).map fun i => (t + 27594 * i, w.testBit (25 - i))

/-- 600 quiet lane outputs after 100 loud ones: a dip begins at sample 300,113. -/
def dipDsp : EnsDsp := { EnsDsp.reset with line := List.replicate 600 (1, 0) ++ List.replicate 100 (100, 100), last := 300699, seen := 300040 }

def trlB (client : TrlClient) (n : Nat) : TrlBlock := { client := client, deadline := 12, order := 3, size := 774, soft := List.replicate n [7, -7, 7, 7] }

def chAt (st : Nat) : State := runs (up 2 [(drmA 2 0, 9), (drmA 2 1, st)]) 9 0 0x20

def chWith (st : Nat) (f : DrmSt → DrmSt) : State := on (chAt st) fun c => c.modDrm 2 f

def facZ : List Bool := facW (zeros 8 |> bytesBits)

def rdsAt (f : RdsSt → RdsSt) (l : List (Nat × Bool)) : State := lane (runs (up 2 []) 9 0 1) 9 fun x => { x with rds := f x.rds, dsp := { x.dsp with rdsBits := { x.dsp.rdsBits with bits := l } } }

def blk (v : Nat) : RdsBlock := { bits := BitVec.ofNat 16 v, offset := some 0, corrected := 0, ok := true }

def grp (a b c d : RdsBlock) : Group := { a := a, b := b, c := c, d := d }

def tim : TimSrc := { utc := 5, ref := 64000, accepted := some 64000 }

def almP (b : Bool) : AlmPend := { start := b, kind := 2, source := 0x60120000, identity := 0xD318, ts := 5, heard := 5, subch := 0, order := 0 }

def alm : AlarmSt := { kind := 2, source := 0x60120000, identity := 0xD318, order := 0, lastSig := 0, lostAt := some 0, subch := 0 }

def fol (f : FollowSt → FollowSt) : State := job (follow (up 2 []) 5 fun x => f { x with job := some 7, onAir := 1, current := some 40, members := [(40, mem0), (41, mem0)] }) 7 (aJob ([6, 0, 0, 0] ++ le 4 0x60020000 ++ zeros 12 ++ le 4 0x7FF00028 ++ le 4 0x01FF0301))

def chg (f : ChangeSt → ChangeSt) : ChangeSt := f { dst := 40, cause := 1, lane := 3, decided := 8, lag := 0, cs := 0, fading := false, hard := false }

def changing (f : ChangeSt → ChangeSt) : State := tl 9 (follow (up 2 [(lnkA 5 6, 4)]) 5 fun x => { x with job := some 7, onAir := 3, anchor := some 40, current := some (galKey 9), change := some (chg f), members := [(40, mem0), (galKey 9, { mem0 with kind := 1 })] })

def jobUp (f : Job → Job) : State := tl 9 (job (up 2 []) 4 (f (aJob (mkDesc 1 1 1 0x60120000 0))))

def jobAt (f : Job → Job) : Job := f (aJob (mkDesc 1 1 1 0x60120000 0))

def winUp : State := at_ [(0x501, 2), (winA 3 2, 2), (laneA 9 0, 0xF3), (laneA 9 2, 0x64), (laneA 9 3, 0x0900)] |> booted

def jobTJ (n : Nat) : Job := { aJob ([1, 1, 1, 2] ++ le 4 0x60120000 ++ zeros 20) with state := 1, start := n }

def jobT (n : Nat) : State := tl 8 (job (up 2 []) 4 (jobTJ n))

def gJob : Job := aJob ([4, 0, 0x10, 0] ++ le 4 0x60120000 ++ zeros 20)

def qr : QRec := { rec_ := { ty := 0x0A, handle := 0x80000000, seq := 3, ts := 5, flags := 0, body := [1, 2, 3, 4] }, job := none, cls := 0, deadline := none, order := 6, waiting := none, opens := 0, bad := false }

def queued (l : List (Nat × Nat)) (q : QRec) : State := on (up 2 l) fun c => { c with out := { c.out with queue := [q] } }

def probeRec : QRec := { qr with job := some 4, cls := 2, deadline := some 100 }

def evr : EvRec := { raises := 2, masked := false, handle := 0x80000000, detail := 4, first := 5 }

def evUp (l : List (Nat × Nat)) (n : Nat) : State := tl 9 (on (up 2 l) fun c => { c with ev := { c.ev with recs := [(n, evr)] } })

def swtE : SwtEnd := { start := 0x123456789, stop := 288000, ticks := 32, causes := 0, attnMin := 0, attnMax := 3, genv := false, disc := false, data := [.lane 5 (30, 40) 0 0, .lane 32005 (-30, 40) 0 0] }

def swtJ (fl : Nat) : Job := aJob ([5, 1, 0, 0] ++ le 4 0x60120000 ++ zeros 12 ++ le 4 (32 + fl * 65536 + 0x40 * 16777216) ++ zeros 4)

def swtWith (x : SwtEnd) (f : Job → Job) (t : Nat) : State := tl 9 (job (on (up 2 [(0x600, 1)]) fun c => { c with swts := [(4, { SwtSt.reset with ended := [x] })] }) 4 (f (swtJ t)))

def swt (f : Job → Job) (t : Nat) : State := swtWith swtE f t

def head1 (p len : Nat) : List Byte := [0x45, 0x41, 0x53, 0x4C, 1, (if len = 0 then 0 else 1), 0, 3] ++ le 2 64 ++ [0, 0] ++ le 4 p ++ (if len = 0 then zeros 8 else le 4 1024 ++ le 4 len) ++ zeros 24 ++ le 4 0x12345678 ++ zeros 12

def bootAt (n : Nat) (l : List (Nat × Nat)) (f : BootSt → BootSt) : State := boot (at_ l) fun b => f { b with phase := n }

def profB (p : Nat) (ss : List Byte) (n : Nat) : List Byte := let l := [b8 p, 1] ++ le 2 n ++ le 4 (20 + ss.length) ++ le 4 0xABCD ++ zeros 4 ++ ss; l ++ le 4 (crc32c l).toNat

def scanning (k : Nat) (f : BootSt → BootSt) : State := tl 1024 (boot (lane (runs (up 2 [(winA 0 2, 2), (winA 1 2, 2), (winA 2 2, 2), (winA 3 2, 2), (laneA k 0, 0xF0)]) k 9 1) k fun l => { l with phaseAt := 0 }) fun b => f { b with scan := true })

def jr (f : BootSt → BootSt) : State := tl 3686400 (boot (up 2 [(0x40A, 1)]) fun b => f { b with jen := true, jptr := some 512 })

def at2 (l : List (Nat × Nat)) : State := bus (up 2 l) fun b => { b with complete := false }

def atn (l : List (Nat × Nat)) : State := on (up 3 ((0x503, 1) :: l)) fun c => { c with ev := { c.ev with fresh := true } }

def v1e : Nat × Nat × Bool := (((raised (up 1 [(0x509, 5)]) [42]).chip.taken.v1Bits.filter fun x => x.2.2).head?.getD (9, 9, false))

def v1Up : State := tl 9 (up 1 [(0x509, 5), (winA 0 0, 0x2FBAC000), (winA 0 2, 2), (laneA 5 0, 0xF0), (laneA 5 2, 0x64), (laneA 5 3, 0x0900)])

def key0 : Key := { bytes := zeros 16, ident := 0x55#32, attr := 15 }

def withKey (n : Nat) (s : State) : State := { s with keys := [(n, key0)] }

def sealed (l : List (Nat × Nat)) (ctr : Nat) : State := on (withKey 7 (up 1 ([(0xF04, 3), (0xF05, 0x1F)] ++ l))) fun c => { c with varn := { c.varn with ctrs := [(7, ctr)], nh := zeros 8, nr := zeros 8 } }

def tag8 : List Byte := [0xC0, 0x54, 0xE0, 0x99, 0x5F, 0x8C, 0xF5, 0xF4]

def ctx0 (gen : Bool) : CtxSt := { gen := gen, slot := 5, count := 2, chain := zeros 16, part := [1, 2] }

def ctxS (gen : Bool) : State := on (withKey 5 (up 2 [])) fun c => c.setCtxs [(3, ctx0 gen)]

def verJ (cls : Nat) : Job := aJob ([2, b8 cls, 0, 0] ++ le 4 0x60120000 ++ zeros 12 ++ le 4 (48 + 48 * 65536) ++ zeros 4)

def verS (v cls : Nat) : State := job (withKey 5 (up v [])) 6 (verJ cls)

def ver0 (ms : List MsgSt) : VerSt := { slot := 5, prov := true, tlen := 4, stream := 0, ctr := 8, told := false, msgs := ms, lastSeq := none }

def msg0 (tag : List Byte) : MsgSt := { bytes := [0x56, 0x4E, 2, 0] ++ le 4 9 ++ [0xAA, 0xBB] ++ tag, orders := [], first := 1, last := 2, count := 2, handle := 5, ty := 10, complete := true }

def judged (tag : List Byte) : State := on (withKey 5 (up 3 [])) fun c => { c with vers := [(6, ver0 [msg0 tag])] }

def tag4 : List Byte := [0xE7, 0x88, 0x8A, 0x74]

def lnk (l : List (Nat × Nat)) (f : LinkSt → LinkSt) : State := link (tl 900 (up 2 ([(0x220, 2), (0xD02, 868300000)] ++ l))) f

def ent0 : TxEnt := { id := 8, kind := 0, dest := 0xFF, secured := false, pri := true, timed := none, payload := [1, 2], ctr := 0, tag := [], ver := 1 }

def tx0 (air : Bool) (b : Nat) : TxSt := { ent := ent0, onAir := air, at_ := 28800005, aerial := 0, back := b, power := 0 }

def rx0 (st : Nat) : RxSt := { stage := st, level := -700, aerial := 0, afc := 5, rssi := -700, syncAt := 0, overlap := false }

def send0 : List Byte := [0#8, 0xFF, 0, 0, 0, 0, 0, 0, 0, 0, 7, 8]

def peer0 : PeerSt := { ver := 2, aerial := 1, rssi := -655, ctr := 0x01020304, heard := 1 }

def frm : LinkFrame := let b := [5, 0x09, 0x33, 0xFF, 0, 0x77]; { bytes := b ++ [b8 ((crc16 b).toNat / 256), b8 (crc16 b).toNat], corrected := 0 }

def txT : TxSt := { tx0 false 1 with ent := { ent0 with timed := some 500 } }

def copy0 : CopySt := { payload := zeros 18, left := 2, due := 900 }

def dacS (l : List (Nat × Nat)) (f : DacSt → DacSt) : State := on (at_ ([(0x231, 2), (0xE40, 0)] ++ l)) fun c => c.modDac 3 fun d => f { d with fresh := false }

theorem test_paramRead : (
  -- ParamReadIsOneSnapshot, clause 1
  (let s := up 2 [(0x234, 77)]; let l := [0x234, 0x001]; (s.chip.hostReady [2, 3]) && decide (l ≠ []) && decide (l.length ≤ 63) && (l.all (fun a => decide ((rowAt a).isSome))) && (ends (.paramRead l) s (fun c => (replied c (0x00 :: l.flatMap fun a => le 4 ((s.chip.taken.readParam a).getD 0).toNat)) && (same hostRegs s.chip c)))) &&
  -- ParamReadIsOneSnapshot, clause 2
  (let s := up 2 []; let l := [0x234, 0x0FF0]; (s.chip.hostReady [2, 3]) && decide (l ≠ []) && decide (l.length ≤ 63) && (l.any (fun a => decide (rowAt a = none))) && answers (.paramRead l) s [0x0A])) = true := by decide

theorem test_other_ParamReadIsOneSnapshot : (
  -- ParamReadIsOneSnapshot, clause 3
  (let s := up 2 []; let r := rowD 0x7B0; (s.chip.hostReady [2, 3]) && decide ([0x600] ≠ []) && decide ([0x600].length ≤ 63) && decide (rowAt (0x7B0) = some r) && decide (r.acc = .wo) && decide (s.chip.taken.readParam (0x7B0) = some 0))) = true := by decide

theorem test_hello : (
  -- HelloChoosesTheHighestVersion, clause 1
  (let s := up 1 [(0x502, 3)]; (s.chip.hostReady [1, 2, 3]) && ((decide (1 ≤ 3)) && (decide (3 ≤ 3)) && (decide (2 ≤ 3)) && (decide (3 ≤ 7)) && (decide (3 ≤ s.chip.reg 0x502))) && ((List.range 4).all (fun u => !(decide (1 ≤ u ∧ u ≤ 3 ∧ 2 ≤ u ∧ u ≤ 7 ∧ u ≤ s.chip.reg 0x502)) || decide (u ≤ 3))) && (ends (.hello 2 7) s (fun c => (decide (c.reg 0x501 = 3)) && ((c.isPending 53))))) &&
  -- HelloChoosesTheHighestVersion, clause 2.1
  (let s := up 2 [(0x502, 1)]; (s.chip.hostReady [1, 2, 3]) && (!((List.range 4).any (fun v => decide (1 ≤ v ∧ v ≤ 3 ∧ 2 ≤ v ∧ v ≤ 3 ∧ v ≤ s.chip.reg 0x502)))) && answers (.hello 2 3) s [0x07]) &&
  -- HelloChoosesTheHighestVersion, clause 2.2
  (let s := up 2 [(0x502, 1)]; (s.chip.hostReady [1, 2, 3]) && (!((List.range 4).any (fun v => decide (1 ≤ v ∧ v ≤ 3 ∧ 2 ≤ v ∧ v ≤ 3 ∧ v ≤ s.chip.reg 0x502)))) && ends (.hello 2 3) s (fun c => (decide (c.reg 0x501 = s.chip.reg 0x501))))) = true := by decide

theorem test_registerWrite : (
  -- AccessCodesAreEnforced, clause 1
  (let s := up 2 []; (s.chip.hostReady [2, 3]) && ((decide (rowAt (0x401) = none)) || ((rowAt (0x401)).any (fun r => (decide (r.acc = .ro)) || ((decide (r.acc = .rs)) && ((decide (r.clr = false)) || (decide ((5#32).toNat &&& r.mask ≠ 0))))))) && answers (.registerWrite (0x401) (5#32)) s ([0x0A, 0x00] ++ le 2 (0x401))) &&
  -- AccessCodesAreEnforced, clause 2
  (let s := up 2 [(0x710, 9)]; let r := rowD 0x710; (s.chip.hostReady [2, 3]) && decide (rowAt (0x710) = some r) && decide (r.acc = .rs) && (r.clr) && decide ((0#32).toNat &&& r.mask = 0) && acts (.registerWrite (0x710) (0#32)) s (0x710) 0) &&
  -- WaitingWrites, clause 1.1
  (let s := up 3 []; let r := rowD 0x237; (s.chip.hostReady [2, 3]) && decide (rowAt (0x237) = some r) && decide (r.acc = .rw) && decide ((0x237) / 256 = 0x02) && decide (clkBad ((0x237) % 256) ((50#32).toNat &&& r.mask) = false) && waits (.registerWrite (0x237) (50#32)) s (0x237) (50#32).toNat)) = true := by decide

theorem test_pwrModeRun : (
  -- WaitingWrites, clause 1.2
  (let s := up 2 []; (s.chip.hostReady [2, 3]) && waits .pwrModeRun s 0x300 0)) = true := by decide

theorem test_pwrModeDeepSleep : (
  -- WaitingWrites, clause 1.3
  (let s := up 2 []; (s.chip.hostReady [2, 3]) && waits .pwrModeDeepSleep s 0x300 2)) = true := by decide

theorem test_pwrModeSketch : (
  -- WaitingWrites, clause 1.4
  (let s := up 2 []; (s.chip.hostReady [2, 3]) && decide (s.chip.sketchBad = false) && waits .pwrModeSketch s 0x300 1) &&
  -- WaitingWrites, clause 1.5
  (let s := on (up 2 []) fun c => { c with canvas := { c.canvas with active := [(3, 0x00121000#32 &&& 0xFFEFFFFF#32)] } }; (s.chip.hostReady [2, 3]) && (s.chip.sketchBad) && answers .pwrModeSketch s ([0x0A, 0x00] ++ le 2 0x300))) = true := by decide

theorem test_fePathEnWrite : (
  -- WaitingWrites, clause 1.6
  (let s := up 2 []; (s.chip.hostReady [2, 3]) && decide (1 < 2) && waits (.fePathEnWrite 1 (3#32)) s (feA 1 0) (3#32).toNat)) = true := by decide

theorem test_feAgcModeWrite : (
  -- WaitingWrites, clause 1.7
  (let s := up 2 []; (s.chip.hostReady [2, 3]) && decide (0 < 2) && decide ((2#32).toNat % 4 ≠ 3) && waits (.feAgcModeWrite 0 (2#32)) s (feA 0 2) (2#32).toNat)) = true := by decide

theorem test_feAttnManWrite : (
  -- WaitingWrites, clause 1.8
  (let s := up 2 []; (s.chip.hostReady [2, 3]) && decide (1 < 2) && decide ((30#32).toNat % 32 ≠ 31) && waits (.feAttnManWrite 1 (30#32)) s (feA 1 4) (30#32).toNat)) = true := by decide

theorem test_winCentreWrite : (
  -- WaitingWrites, clause 1.9
  (let s := up 2 []; let v := (0x80000000#32); (s.chip.hostReady [2, 3]) && decide (11 < 12) && decide (v.toNat ≤ 0x80000000) && waits (.winCentreWrite 11 v) s (winA 11 0) v.toNat)) = true := by decide

theorem test_winSrcWrite : (
  -- WaitingWrites, clause 1.10
  (let s := up 2 []; (s.chip.hostReady [2, 3]) && decide (3 < 12) && decide ((2#32).toNat % 4 = 2) && answers (.winSrcWrite 3 (2#32)) s ([0x0A, 0x00] ++ le 2 (winA 3 1))) &&
  -- WaitingWrites, clause 1.11
  (let s := up 2 []; (s.chip.hostReady [2, 3]) && decide (3 < 12) && decide ((1#32).toNat % 4 < 2) && decide (s.chip.lanesOn 3 false = []) && waits (.winSrcWrite 3 (1#32)) s (winA 3 1) (1#32).toNat) &&
  -- WaitingWrites, clause 1.12
  (let s := up 2 []; (s.chip.hostReady [2, 3]) && decide (0 < 12) && decide ((3#32).toNat % 4 = 3) && decide (s.chip.lanesOn 0 false = []) && decide ((s.chip.win 0).expJob = none) && decide ((s.chip.win 0).capJob = none) && waits (.winSrcWrite 0 (3#32)) s (winA 0 1) (3#32).toNat)) = true := by decide

theorem test_strEnWrite : (
  -- WaitingWrites, clause 2.1
  (let s := up 2 []; (s.chip.hostReady [2, 3]) && decide ((1#32).toNat % 2 = 1) && waits (.strEnWrite (1#32)) s 0x600 (1#32).toNat) &&
  -- WaitingWrites, clause 2.2
  (let s := up 2 [(0x600, 1)]; (s.chip.hostReady [2, 3]) && decide ((0#32).toNat % 2 = 0) && decide ((s.chip.jobs.any fun e => emits e.2.desc) = false) && waits (.strEnWrite (0#32)) s 0x600 (0#32).toNat) &&
  -- WaitingWrites, clause 2.3
  (let s := job (up 2 [(0x600, 1)]) 0 (aJob (mkDesc 1 0 0x20 0x60000000 0)); (s.chip.hostReady [2, 3]) && decide ((0#32).toNat % 2 = 0) && ((s.chip.jobs.any fun e => emits e.2.desc)) && answers (.strEnWrite (0#32)) s ([0x0A, 0x00] ++ le 2 0x600))) = true := by decide

theorem test_audCfgWrite : (
  -- WaitingWrites, clause 2.4
  (let s := up 2 []; (s.chip.hostReady [2, 3]) && waits (.audCfgWrite (3#32)) s 0x640 (3#32).toNat)) = true := by decide

theorem test_bootJrnlCtrlWrite : (
  -- WaitingWrites, clause 2.5
  (let s := up 2 []; (s.chip.hostReady [2, 3]) && waits (.bootJrnlCtrlWrite (1#32)) s 0x40B (1#32).toNat)) = true := by decide

theorem test_swtLogRdWrite : (
  -- WaitingWrites, clause 2.6
  (let s := up 2 []; (s.chip.hostReady [2, 3]) && (s.chip.logRdOk ((0#32).toNat &&& maskAt 0xB09)) && waits (.swtLogRdWrite (0#32)) s 0xB09 (0#32).toNat)) = true := by decide

theorem test_galCtrlPin : (
  -- WaitingWrites, clause 2.7.1
  (let s := up 2 []; (s.chip.hostReady [2, 3]) && decide (16383 < 16384) && waits (.galCtrlPin 16383) s 0xC05 (16383 + 0x10000))) = true := by decide

theorem test_galCtrlUnpin : (
  -- WaitingWrites, clause 2.7.2
  (let s := up 2 []; (s.chip.hostReady [2, 3]) && decide (5 < 16384) && waits (.galCtrlUnpin 5) s 0xC05 (5 + 0x20000))) = true := by decide

theorem test_galCtrlDelete : (
  -- WaitingWrites, clause 2.7.3
  (let s := up 2 []; (s.chip.hostReady [2, 3]) && decide (5 < 16384) && waits (.galCtrlDelete 5) s 0xC05 (5 + 0x30000))) = true := by decide

theorem test_calCtrlLadderRun : (
  -- WaitingWrites, clause 2.8.1
  (let s := up 2 []; (s.chip.hostReady [2, 3]) && decide (Tbl.find s.chip.staged 0xA00 = none) && decide (1 < 2) && waits (.calCtrlLadderRun 1) s 0xA00 (2 ^ 1))) = true := by decide

theorem test_calCtrlDacRestart : (
  -- WaitingWrites, clause 2.8.2
  (let s := up 2 []; (s.chip.hostReady [2, 3]) && decide (Tbl.find s.chip.staged 0xA00 = none) && waits .calCtrlDacRestart s 0xA00 4)) = true := by decide

theorem test_lnkFreqWrite : (
  -- WaitingWrites, clause 2.9
  (let s := up 2 []; let v := (868300000#32); (s.chip.hostReady [2, 3]) && (channelOk (s.chip.view 0xD01) v.toNat) && waits (.lnkFreqWrite v) s 0xD02 v.toNat) &&
  -- WaitingWrites, clause 2.10
  (let s := up 2 []; let v := (868650000#32); (s.chip.hostReady [2, 3]) && decide (channelOk (s.chip.view 0xD01) v.toNat = false) && answers (.lnkFreqWrite v) s ([0x0A, 0x00] ++ le 2 0xD02))) = true := by decide

theorem test_lnkCfgWrite : (
  -- WaitingWrites, clause 2.11
  (let s := up 2 []; let v := (0x1001#32); (s.chip.hostReady [2, 3]) && decide (s.chip.reg 0xD00 = 0) && decide (lnkCfgBad (v.toNat &&& maskAt 0xD01) = false) && (channelOk (v.toNat &&& maskAt 0xD01) (s.chip.view 0xD02)) && (preambleOk (v.toNat &&& maskAt 0xD01) (s.chip.view 0xD04)) && waits (.lnkCfgWrite v) s 0xD01 v.toNat) &&
  -- WaitingWrites, clause 2.12
  (let s := up 2 [(0xD00, 1)]; (s.chip.hostReady [2, 3]) && decide (s.chip.reg 0xD00 ≠ 0) && answers (.lnkCfgWrite (0#32)) s ([0x0A, 0x00] ++ le 2 0xD01))) = true := by decide

theorem test_fmsLaneWrite : (
  -- WaitingWrites, clause 2.13
  (let s := up 2 []; (s.chip.hostReady [2, 3]) && decide (15 < 16) && decide (s.chip.fmsLaneBad 15 ((0xFF#32).toNat % 256) = false) && waits (.fmsLaneWrite 15 (0xFF#32)) s (fmsA 15 0) (0xFF#32).toNat)) = true := by decide

theorem test_amsLaneWrite : (
  -- WaitingWrites, clause 2.14
  (let s := up 2 []; (s.chip.hostReady [2, 3]) && decide (7 < 8) && decide (s.chip.amsLaneBad 7 ((0xFF#32).toNat % 256) = false) && waits (.amsLaneWrite 7 (0xFF#32)) s (amsA 7 0) (0xFF#32).toNat)) = true := by decide

theorem test_evtMaskWrite : (
  -- MaskDestinationAndCodeWritesAct, clause 1
  (let s := up 2 []; (s.chip.hostReady [2, 3]) && decide (2 < 3) && acts (.evtMaskWrite 2 (0xFF#32)) s (if 2 < 2 then 0x102 + 2 else 0x105) (0xFF#32).toNat)) = true := by decide

theorem test_fmsDestWrite : (
  -- MaskDestinationAndCodeWritesAct, clause 2
  (let s := up 2 []; (s.chip.hostReady [2, 3]) && decide (3 < 16) && decide (s.chip.destBad true 3 ((2#32).toNat % 16) = false) && acts (.fmsDestWrite 3 (2#32)) s (fmsA 3 1) (2#32).toNat) &&
  -- MaskDestinationAndCodeWritesAct, clause 3
  (let s := up 2 []; (s.chip.hostReady [2, 3]) && decide (3 < 16) && (s.chip.destBad true 3 ((8#32).toNat % 16)) && answers (.fmsDestWrite 3 (8#32)) s ([0x0A, 0x00] ++ le 2 (fmsA 3 1)))) = true := by decide

theorem test_amsDestWrite : (
  -- MaskDestinationAndCodeWritesAct, clause 4
  (let s := up 2 []; (s.chip.hostReady [2, 3]) && decide (3 < 8) && decide (s.chip.destBad false 3 ((2#32).toNat % 16) = false) && acts (.amsDestWrite 3 (2#32)) s (amsA 3 1) (2#32).toNat)) = true := by decide

theorem test_laneNcoWrite : (
  -- MaskDestinationAndCodeWritesAct, clause 5.1
  (let s := up 2 []; let v := (0x66580000#32); (s.chip.hostReady [2, 3]) && decide (159 < 160) && decide ((toSigned 32 v.toNat).natAbs ≤ 0x66580000) && decide (s.chip.laneSecond 159 = false) && decide (s.chip.followLane 159 = false) && ((decide ((s.chip.lane 159).job = none)) || (decide ((s.chip.lane 159).started = false))) && acts (.laneNcoWrite 159 v) s (laneA 159 1) v.toNat) &&
  -- MaskDestinationAndCodeWritesAct, clause 5.2
  (let s := runs (up 2 []) 7 0 1; let v := (0x99A80000#32); (s.chip.hostReady [2, 3]) && decide (7 < 160) && decide ((toSigned 32 v.toNat).natAbs ≤ 0x66580000) && decide (s.chip.laneSecond 7 = false) && decide (s.chip.followLane 7 = false) && decide ((s.chip.lane 7).job ≠ none) && ((s.chip.lane 7).started) && waits (.laneNcoWrite 7 v) s (laneA 7 1) v.toNat) &&
  -- MaskDestinationAndCodeWritesAct, clause 6
  (let s := up 2 []; let v := (0x66580001#32); (s.chip.hostReady [2, 3]) && decide (7 < 160) && decide (0x66580000 < (toSigned 32 v.toNat).natAbs) && answers (.laneNcoWrite 7 v) s ([0x0A, 0x00] ++ le 2 (laneA 7 1)))) = true := by decide

theorem test_dacCodeWrite : (
  -- MaskDestinationAndCodeWritesAct, clause 7.1
  (let s := up 2 []; let v := (0x1234#32); (s.chip.hostReady [2, 3]) && decide (3 < 4) && acts (.dacCodeWrite 3 v) s (dacA 3 0) v.toNat) &&
  -- MaskDestinationAndCodeWritesAct, clause 7.2
  (let s := up 2 []; let v := (0x1234#32); (s.chip.hostReady [2, 3]) && decide (3 < 4) && (ends (.dacCodeWrite 3 v) s (fun c => (((c.dac 3).pend)) && (decide ((c.dac 3).hold = false)) && ((!(decide (s.chip.reg 0x231 ≠ 2)) || ((c.clk.tcxoEn)))))))) = true := by decide

theorem test_dacRangeWrite : (
  -- MaskDestinationAndCodeWritesAct, clause 8
  (let s := up 2 []; (s.chip.hostReady [2, 3]) && decide (0 < 4) && decide ((1#32).toNat % 2 = 1) && decide (s.chip.bit 0xE40 3 = false) && answers (.dacRangeWrite 0 (1#32)) s ([0x0A, 0x00] ++ le 2 (dacA 0 1))) &&
  -- MaskDestinationAndCodeWritesAct, clause 9
  (let s := up 2 [(0xE40, 8)]; (s.chip.hostReady [2, 3]) && decide (0 < 4) && (!(decide ((1#32).toNat % 2 = 1)) || ((s.chip.bit 0xE40 3))) && decide ((1#32).toNat % 2 ≠ s.chip.view (dacA 0 1)) && decide (s.chip.dacAlarm 0 = false) && decide ((s.chip.dac 0).sine = false) && decide (s.chip.dacInjects 0 = false) && waits (.dacRangeWrite 0 (1#32)) s (dacA 0 1) (1#32).toNat) &&
  -- MaskDestinationAndCodeWritesAct, clause 10
  (let s := up 2 [(0xE40, 8)]; (s.chip.hostReady [2, 3]) && decide (0 < 4) && (!(decide ((0#32).toNat % 2 = 1)) || ((s.chip.bit 0xE40 3))) && decide ((0#32).toNat % 2 = s.chip.view (dacA 0 1)) && answers (.dacRangeWrite 0 (0#32)) s writeDone)) = true := by decide

theorem test_winCapArm : (
  -- ControlWrites, clause 1
  (let s := on (up 2 [(winA 2 0x13, 0), (winA 2 0x12, 15)]) fun c => { c with canvas := { c.canvas with active := [(3, 0x00400100#32)] } }; (s.chip.hostReady [2, 3]) && decide (2 < 12) && decide (s.chip.reg (winA 2 0x13) = 0) && decide (s.chip.reg (winA 2 0x12) * 1024 < s.chip.capSamples 2) && (ends (.winCapArm 2) s (fun c => (decide (c.reg (winA 2 0x13) = 1)) && (decide ((c.win 2).capSince = s.chip.time.now)) && (replied c writeDone) && (same (winA 2 0x13 :: hostRegs) s.chip c)))) &&
  -- ControlWrites, clause 2
  (let s := on (up 2 [(winA 2 0x13, 0), (winA 2 0x12, 16)]) fun c => { c with canvas := { c.canvas with active := [(3, 0x00400100#32)] } }; (s.chip.hostReady [2, 3]) && decide (2 < 12) && decide (s.chip.reg (winA 2 0x13) = 0) && decide (s.chip.capSamples 2 ≤ s.chip.reg (winA 2 0x12) * 1024) && answers (.winCapArm 2) s ([0x0A, 0x00] ++ le 2 (winA 2 0x10)))) = true := by decide

theorem test_winCapTriggerNow : (
  -- ControlWrites, clause 3
  (let s := up 2 [(winA 2 0x13, 1), (winA 2 2, 2)]; (s.chip.hostReady [2, 3]) && decide (2 < 12) && (s.chip.winSamples 2) && ((decide (s.chip.reg (winA 2 0x13) = 1)) || (decide (s.chip.reg (winA 2 0x13) = 2))) && (ends (.winCapTriggerNow 2) s (fun c => (decide (c.reg (winA 2 0x13) = 3)) && (decide (c.reg (winA 2 0x14) = s.chip.time.now % 2 ^ 32)) && (decide (c.reg (winA 2 0x16) = s.chip.capCauses 2 0 s.chip.time.now)) && (replied c writeDone) && (same ([winA 2 0x13, winA 2 0x14, winA 2 0x15, winA 2 0x16] ++ hostRegs) s.chip c))))) = true := by decide

theorem test_winCapRelease : (
  -- ControlWrites, clause 4
  (let s := up 2 [(winA 2 0x13, 4)]; (s.chip.hostReady [2, 3]) && decide (2 < 12) && decide (s.chip.reg (winA 2 0x13) = 4) && (ends (.winCapRelease 2) s (fun c => (decide (c.reg (winA 2 0x13) = 0)) && (replied c writeDone) && (same (winA 2 0x13 :: hostRegs) s.chip c)))) &&
  -- CapturesAndExports, clause 2.6
  (let s := job (on (up 2 [(winA 3 0x13, 5)]) fun c => c.modWin 3 fun x => { x with capJob := some 7 }) 7 (aJob (mkDesc 8 1 0 (handleWin 3) 0)); let x := aJob (mkDesc 8 1 0 (handleWin 3) 0); decide (3 < 12) && (s.chip.hostReady [2, 3]) && decide (s.chip.reg (winA 3 0x13) = 5) && decide ((s.chip.win 3).capJob = some 7) && decide (s.chip.job? 7 = some x) && decide (dKind x.desc = 8) && decide (x.ending = none) && (ends (.winCapRelease 3) s (fun c => (decide (c.reg (winA 3 0x13) = 0)) && (decide (c.job? 7 = some { x with ending := some (s.chip.tick + 1) })) && (replied c writeDone) && (same (winA 3 0x13 :: hostRegs) s.chip c))))) = true := by decide

theorem test_winCapStartExport : (
  -- ControlWrites, clause 5
  (let s := up 2 [(winA 2 0x13, 1)]; (s.chip.hostReady [2, 3]) && decide (2 < 12) && decide (s.chip.reg (winA 2 0x13) ≠ 4) && answers (.winCapStartExport 2) s ([0x0A, 0x00] ++ le 2 (winA 2 0x10))) &&
  -- CapturesAndExports, clause 2.5
  (let s := on strUp fun c => (c.put (winA 3 0x13) 4); decide (3 < 12) && (s.chip.hostReady [2, 3]) && decide (s.chip.reg (winA 3 0x13) = 4) && decide ((s.chip.taken.admission (mkDesc 8 1 0 (handleWin 3) 0)).reason = 0) && decide (s.chip.freeJob = some 0) && (ends (.winCapStartExport 3) s (fun c => (decide (c.reg (winA 3 0x13) = 5)) && (decide ((c.win 3).capJob = some 0)) && ((c.job? 0).any (fun x => (decide (x.desc = mkDesc 8 1 0 (handleWin 3) 0)) && (decide (x.start = s.chip.tick + 1)))) && (replied c writeDone))))) = true := by decide

theorem test_cnvCommit : (
  -- ControlWrites, clause 6
  (let s := up 2 []; (s.chip.hostReady [2, 3]) && (mapOk s.chip.stagedMap) && (ends .cnvCommit s (fun c => (decide (c.reg 0x7B1 = 1)) && ((c.canvas.pending.isSome)) && (replied c writeDone)))) &&
  -- ControlWrites, clause 7
  (let s := up 2 [(0x7C0, 0xFFFFFFFF)]; (s.chip.hostReady [2, 3]) && decide (mapOk s.chip.stagedMap = false) && (ends .cnvCommit s (fun c => (decide (c.reg 0x7B1 = 2)) && (decide (c.canvas = s.chip.canvas)) && (replied c ([0x0A, 0x00] ++ le 2 0x7B0)))))) = true := by decide

theorem test_dacSineStart : (
  -- ControlWrites, clause 8
  (let s := up 2 []; (s.chip.hostReady [2, 3]) && decide (1 < 4) && decide (s.chip.dacAlarm 1 = false) && (ends (.dacSineStart 1) s (fun c => (decide ((c.dac 1).sineReq = some true)) && (replied c writeDone)))) &&
  -- ControlWrites, clause 9
  (let s := on (up 2 []) fun c => c.modDac 1 fun d => { d with hold := true }; (s.chip.hostReady [2, 3]) && decide (1 < 4) && (s.chip.dacAlarm 1) && answers (.dacSineStart 1) s ([0x0A, 0x00] ++ le 2 (dacA 1 5)))) = true := by decide

theorem test_dacSineStop : (
  -- ControlWrites, clause 10
  (let s := up 2 []; (s.chip.hostReady [2, 3]) && decide (1 < 4) && (ends (.dacSineStop 1) s (fun c => (decide ((c.dac 1).sineReq = some false)) && (replied c writeDone))))) = true := by decide

theorem test_feInjStart : (
  -- ControlWrites, clause 11
  (let s := up 2 [(feA 0 0, 1)]; (s.chip.hostReady [2, 3]) && decide (0 < 2) && decide (s.chip.injBad 0 = false) && waits (.feInjStart 0) s (feA 0 0x20) 1) &&
  -- ControlWrites, clause 12
  (let s := up 2 [(feA 0 0, 0)]; (s.chip.hostReady [2, 3]) && decide (0 < 2) && (s.chip.injBad 0) && (ends (.feInjStart 0) s (fun c => (decide (c.reg (feA 0 0x23) = 4)) && (replied c ([0x0A, 0x00] ++ le 2 (feA 0 0x20))))))) = true := by decide

theorem test_feInjStop : (
  -- ControlWrites, clause 13
  (let s := up 2 [(feA 0 0x23, 1)]; let l := (-40 : Int); (s.chip.hostReady [2, 3]) && decide (0 < 2) && (s.chip.injecting 0) && (ends (.feInjStop 0 l) s (fun c => (decide ((c.fe 0).injLevel = some l)) && (decide (Tbl.find c.staged (feA 0 0x20) = none)) && (replied c writeDone) && (same hostRegs s.chip c))))) = true := by decide

theorem test_laneBankNextWrite : (
  -- ControlWrites, clause 14
  (let s := up 2 []; (s.chip.hostReady [2, 3]) && decide (3 < 160) && (s.chip.bankBad 3 ((63#32).toNat &&& maskAt (laneA 3 4))) && answers (.laneBankNextWrite 3 (63#32)) s ([0x0A, 0x00] ++ le 2 (laneA 3 4))) &&
  -- ControlWrites, clause 15
  (let s := up 2 [(laneA 3 3, 0)]; (s.chip.hostReady [2, 3]) && decide (3 < 160) && decide (s.chip.bankBad 3 ((2#32).toNat &&& maskAt (laneA 3 4)) = false) && decide (s.chip.laneRuns 3 = false) && (ends (.laneBankNextWrite 3 (2#32)) s (fun c => (decide (c.laneBank 3 = (2#32).toNat % 64)) && (replied c writeDone) && (same (laneA 3 3 :: hostRegs) s.chip c))))) = true := by decide

theorem test_lnkForceWrite : (
  -- ControlWrites, clause 16
  (let s := follow (up 2 []) 0 fun f => { f with members := Tbl.put f.members (forceKey 0x80000001) mem }; let v := (0x80000001#32); (s.chip.hostReady [2, 3]) && decide (0 < 8) && decide (s.chip.member 0 (forceKey (v.toNat &&& maskAt (lnkA 0 15))) = some mem) && (mem.verified) && decide ((s.chip.follow 0).change = none) && (ends (.lnkForceWrite 0 v) s (fun c => (decide ((c.follow 0).force = some (forceKey (v.toNat &&& maskAt (lnkA 0 15))))) && (replied c writeDone) && (same hostRegs s.chip c))))) = true := by decide

theorem test_linkRefCommit : (
  -- ControlWrites, clause 17
  (let s := on (up 2 []) fun c => c.setRef 7 3 1; (s.chip.hostReady [2, 3]) && decide (7 < 8) && decide (s.chip.refStatus 7 = 1) && answers (.linkRefCommit 7) s [0x0A]) &&
  -- ControlWrites, clause 18
  (let s := up 2 []; (s.chip.hostReady [2, 3]) && decide (7 < 8) && decide (s.chip.refStatus 7 ≠ 1) && (ends (.linkRefCommit 7) s (fun c => ((decide (c.refStatus 7 = 1)) || (decide (c.refStatus 7 = 3))) && (replied c [0x00]) && (same hostRegs s.chip c))))) = true := by decide

theorem test_evtPendWrite : (
  -- ClearingEventsAndSatBits, clause 1
  (let s := raised (up 2 []) [3, 12, 40]; let v := (0x1008#32); (s.chip.hostReady [2, 3]) && (ends (.evtPendWrite false v) s (fun c => (decide (c.reg (if false then 0x101 else 0x100) = s.chip.taken.reg (if false then 0x101 else 0x100) &&& (0xFFFFFFFF - v.toNat))) && (upTo 64 (fun n => decide (c.reg (0x140 + n) = s.chip.taken.reg (0x140 + n)))) && (replied c writeDone) && (same hostRegs s.chip c))))) = true := by decide

theorem test_satBitClear : (
  -- ClearingEventsAndSatBits, clause 2
  (let s := up 2 [(0x514, 7), (0x518, 0xFF)]; (s.chip.hostReady [2, 3]) && decide (satOf (0x514) = some ((0x518), 4)) && ((decide ((0x514) / 256 < 0x20)) || (decide (0x27 < (0x514) / 256)) || (decide ((0x514) % 256 < 0x80))) && ((0x10#32).getLsbD 4) && (ends (.satBitClear (0x518) (0x10#32)) s (fun c => (decide (c.reg (0x514) = 0)) && (decide (c.bit (0x518) 4 = false)) && (replied c writeDone))))) = true := by decide

theorem test_eventClear : (
  -- ClearingEventsAndSatBits, clause 3
  (let s := raised (up 2 []) [3, 12, 40]; let v := (0x10000000008#64); (s.chip.hostReady [2, 3]) && (ends (.eventClear v) s (fun c => (upTo 64 (fun n => decide (c.isPending n = (s.chip.taken.isPending n && !v.getLsbD n)))) && (upTo 64 (fun n => decide (c.reg (0x140 + n) = s.chip.taken.reg (0x140 + n)))) && (replied c [0x00]) && (same hostRegs s.chip c))))) = true := by decide

theorem test_eventRead : (
  -- ClearingEventsAndSatBits, clause 4
  (let s := raised (up 2 []) [3, 12, 40]; (s.chip.hostReady [2, 3]) && (ends .eventRead s (fun c => (replied c (0x00 :: [0x100, 0x101, 0x102, 0x103].flatMap fun a => le 4 (s.chip.taken.reg a))) && (same hostRegs s.chip c))))) = true := by decide

theorem test_tcxoSettled : (
  -- OscillatorsSecondsAndTicks, clause 1.1
  (let s := on (at_ [(0x231, 1)]) fun c => { c with clk := { c.clk with tcxoEn := true } }; (s.chip.clk.tcxoEn) && decide (s.chip.reg 0x231 = 1) && (ends .tcxoSettled s (fun c => (decide (c.reg 0x231 = 2)) && ((!((s.chip.ctlOn)) || ((!(decide (s.chip.reg 0x210 = 0)) || (decide (c.reg 0x210 = 1)))))) && (same [0x231, 0x210] s.chip c))))) = true := by decide

theorem test_tcxoRecovered : (
  -- OscillatorsSecondsAndTicks, clause 1.2
  (let s := at_ [(0x231, 3)]; (s.chip.ctlOn) && decide (s.chip.reg 0x231 = 3) && becomes .tcxoRecovered s (s.chip.put 0x231 2))) = true := by decide

theorem test_tcxoFail : (
  -- OscillatorsSecondsAndTicks, clause 1.3
  (let s := at_ [(0x231, 2)]; (s.chip.ctlOn) && decide (s.chip.bus.v1Wait = none) && decide (s.chip.reg 0x231 ≠ 3) && (upTo 3 (fun l => (decide (s.chip.reg (loopA l 0) ≠ 2)) && (decide (s.chip.reg (loopA l 0) ≠ 5)))) && (ends .tcxoFail s (fun c => (decide (c.reg 0x231 = 3)) && ((c.isPending 12)) && (same [0x231] s.chip c)))) &&
  -- OscillatorsSecondsAndTicks, clause 1.4
  (let s := at_ [(0x231, 2), (0x210, 2)]; (s.chip.ctlOn) && decide (s.chip.bus.v1Wait = none) && decide (s.chip.reg 0x231 ≠ 3) && becomes .tcxoFail s (((((s.chip.put 0x231 3).raise 12 (handleBlock 0x0C) 0).loseLock 0).loseLock 1).loseLock 2))) = true := by decide

theorem test_xo32kFail : (
  -- OscillatorsSecondsAndTicks, clause 1.5
  (let s := at_ []; (s.chip.ctlOn) && decide (s.chip.reg 0x23C ≠ 1) && (ends .xo32kFail s (fun c => (decide (c.reg 0x23C = 1)) && ((c.isPending 13)) && (same [0x23C] s.chip c))))) = true := by decide

theorem test_tickPulseEnd : (
  -- OscillatorsSecondsAndTicks, clause 2.1
  (let s := on (at_ []) fun c => { c with time := { c.time with tickHigh := some 5 } }; becomes .tickPulseEnd s { s.chip with time := { s.chip.time with tickHigh := none } })) = true := by decide

theorem test_secondBoundary : (
  -- OscillatorsSecondsAndTicks, clause 2.2
  (let s := tl 1024 (at_ [(0x200, 2), (0x210, 2), (0x231, 2), (0x236, 0)]); decide (s.chip.power.deep = false) && (s.chip.power.resetN) && (s.chip.secondCounts) && decide (s.chip.reg 0x233 < 2) && decide (s.chip.reg 0x600 ≠ 1) && (s.chip.tickPulses) && (ends .secondBoundary s (fun c => (decide (c.time.tickHigh = some (s.chip.time.now + s.chip.reg 0x237 * 32768))) && (decide (c.time.leaping = false)) && (same [0x234, 0x605] s.chip c)))) &&
  -- OscillatorsSecondsAndTicks, clause 2.3
  (let s := tl 1024 (at_ [(0x200, 2), (0x210, 2), (0x231, 2), (0x236, 0), (0x600, 1)]); decide (s.chip.power.deep = false) && (s.chip.power.resetN) && (s.chip.secondCounts) && decide (s.chip.reg 0x233 < 2) && decide (s.chip.reg 0x600 = 1) && (s.chip.tickPulses) && (ends .secondBoundary s (fun c => (decide (c.time.tickHigh = some (s.chip.time.now + s.chip.reg 0x237 * 32768))) && (decide (c.time.lastSec = some s.chip.time.now)) && (decide (c.time.leaping = false))))) &&
  -- OscillatorsSecondsAndTicks, clause 2.4
  (let s := on (at_ []) fun c => { c with time := { c.time with lastSec := some 0 } }; decide (s.chip.secondCounts = false) && becomes .secondBoundary s s.chip)) = true := by decide

theorem test_leapSecondInsert : (
  -- OscillatorsSecondsAndTicks, clause 2.5
  (let s := on (at_ [(0xC23, 37)]) fun c => { c with time := { c.time with leapDue := true } }; (s.chip.ctlOn) && (s.chip.time.leapDue) && (ends .leapSecondInsert s (fun c => ((c.time.leaping)) && (decide (c.time.leapDue = false)) && (decide (c.reg 0xC23 = (if s.chip.reg 0xC23 = 0 then 0 else (s.chip.reg 0xC23 + 1) &&& maskAt 0xC23))) && (same [0xC23, 0x234, 0x605] s.chip c))))) = true := by decide

theorem test_loopLock : (
  -- LoopEvents, clause 1
  (let s := at_ [(0x210, 1)]; let l := PLoop.cpll; (s.chip.ctlOn) && decide (l ≠ .spll) && decide (s.chip.reg (loopA (loopNum l) 0) = 1) && (ends (.loopLock l) s (fun c => (decide (c.reg (loopA (loopNum l) 0) = 2)) && (same [loopA (loopNum l) 0, 0x234, 0x605] s.chip c)))) &&
  -- LoopEvents, clause 2
  (let s := at_ [(0x200, 1)]; (s.chip.ctlOn) && decide (s.chip.reg 0x200 = 1) && becomes (.loopLock .spll) s (((s.chip.syncTime.rebase.put 0x200 2).refreshWins 2 true false false).resumeAll))) = true := by decide

theorem test_loopLockLost : (
  -- LoopEvents, clause 3
  (let s := tl 3 (at_ [(0x220, 2)]); let l := PLoop.lpll; (s.chip.ctlOn) && decide (s.chip.bus.v1Wait = none) && ((decide (s.chip.reg (loopA (loopNum l) 0) = 2)) || (decide (s.chip.reg (loopA (loopNum l) 0) = 5))) && decide (s.chip.reg (loopA (loopNum l) 5) ≠ 0) && (ends (.loopLockLost l) s (fun c => (decide (c.reg (loopA (loopNum l) 0) = 3)) && (decide (c.reg (loopA (loopNum l) 7) = 0)) && (decide (c.reg (loopA (loopNum l) 8) = 0)) && ((c.isPending 8)) && ((c.isPending 9)) && (decide ((c.loop (loopNum l)).since = s.chip.time.now)) && (same [loopA (loopNum l) 0, loopA (loopNum l) 7, loopA (loopNum l) 8, loopA (loopNum l) 0x0A, loopA (loopNum l) 0x0C, 0x234, 0x605] s.chip c))))) = true := by decide

theorem test_coastDriftCheck : (
  -- LoopEvents, clause 4
  (let s := tl 3 (at_ [(0x200, 3), (0x206, 100)]); let l := PLoop.spll; let drift := (-1000 : Int); (s.chip.ctlOn) && decide (s.chip.bus.v1Wait = none) && decide (s.chip.reg (loopA (loopNum l) 0) = 3) && decide (s.chip.reg 0x23C ≠ 1) && decide (drift.natAbs ≤ 10 * s.chip.reg (loopA (loopNum l) 6)) && decide (drift.natAbs ≤ 32767) && (ends (.coastDriftCheck l drift) s (fun c => (decide (c.int (loopA (loopNum l) 7) 16 = drift)) && (decide (c.reg (loopA (loopNum l) 8) = min 0xFFFFFFFF (usBetween (s.chip.loop (loopNum l)).since s.chip.time.now))) && (same [loopA (loopNum l) 7, loopA (loopNum l) 8] s.chip c)))) &&
  -- LoopEvents, clause 4, with a V1_TUNE that waits
  (let w : TuneWait := { kHz := 98000, band := 1, sealedBy := none, gen := 4 }; let s := bus (tl 3 (up 1 [(0x509, 5), (laneA 5 6, 5), (0x200, 3), (0x206, 100)])) fun b => { b with v1Wait := some w, complete := false }; let l := PLoop.spll; (s.chip.ctlOn) && decide (s.chip.reg (loopA (loopNum l) 0) = 3) && decide (s.chip.reg 0x23C ≠ 1) && decide ((1000 : Int).natAbs ≤ 10 * s.chip.reg (loopA (loopNum l) 6)) && decide (s.chip.bus.v1Wait = some w) && decide (w.sealedBy = none) && decide (s.chip.bus.stretch = none) && decide (s.chip.reg (laneA (s.chip.reg 0x509) 6) ≠ w.gen) && (ends (.coastDriftCheck l 1000) s (fun c => (decide (c.bus.v1Wait = none)) && (c.isPending 4) && (replied c [0x04]))))) = true := by decide

theorem test_coastTimeout : (
  -- LoopEvents, clause 5
  (let s := tl 3 (at_ [(0x220, 3)]); (s.chip.ctlOn) && decide (s.chip.bus.v1Wait = none) && decide (s.chip.reg 0x220 = 3) && (ends (.coastTimeout .lpll) s (fun c => (decide (c.reg 0x220 = 4)) && ((c.isPending 10)) && (decide (c.reg 0x228 = min 0xFFFFFFFF (usBetween (s.chip.loop 2).since s.chip.time.now))) && (same [0x220, 0x228, 0x22B, 0x22C, 0x234, 0x605] s.chip c)))) &&
  -- LoopEvents, clause 6
  (let s := tl 3 (at_ [(0x210, 3)]); let l := PLoop.cpll; (s.chip.ctlOn) && decide (s.chip.bus.v1Wait = none) && decide (s.chip.reg (loopA (loopNum l) 0) = 3) && becomes (.coastTimeout l) s (s.chip.stopLoop (loopNum l)))) = true := by decide +kernel

theorem test_loopSlewEnd : (
  -- LoopEvents, clause 7
  (let s := tl 3 (at_ [(0x220, 5)]); let l := PLoop.lpll; (s.chip.ctlOn) && decide (s.chip.reg (loopA (loopNum l) 0) = 5) && (ends (.loopSlewEnd l) s (fun c => (decide (c.reg (loopA (loopNum l) 0) = 2)) && (decide ((c.loop (loopNum l)).coastedAt = some s.chip.time.now)) && (same [loopA (loopNum l) 0, 0x234, 0x605] s.chip c))))) = true := by decide

theorem test_stepAlignmentEnd : (
  -- LoopEvents, clause 8
  (let s := on (at_ [(0x210, 2)]) fun c => c.modLoop 1 fun x => { x with aligning := true }; let l := PLoop.cpll; (s.chip.ctlOn) && ((s.chip.loop (loopNum l)).aligning) && (ends (.stepAlignmentEnd l) s (fun c => (decide ((c.loop (loopNum l)).aligning = false)) && (decide ((c.loop (loopNum l)).coastedAt = some s.chip.time.now)) && (same [] s.chip c))))) = true := by decide

theorem test_loopRelock : (
  -- RelockAfterACoast, clause 1
  (let s := tl 3 (at_ [(0x220, 3), (0x223, 1)]); let l := PLoop.lpll; let phi := (20000 : Int); (s.chip.ctlOn) && decide (s.chip.bus.v1Wait = none) && (s.chip.upToDate) && decide (s.chip.reg (loopA (loopNum l) 0) = 3) && decide (s.chip.reg (loopA (loopNum l) 3) ≠ 0) && (ends (.loopRelock l phi) s (fun c => (decide (c.reg (loopA (loopNum l) 0) = 5)) && (decide (c.reg (loopA (loopNum l) 9) = ofSigned 32 phi)) && ((c.isPending 10)) && ((!(decide (s.chip.reg (loopA (loopNum l) 1) * 100 < phi.natAbs)) || ((c.isPending 11)))) && (decide (c.time.now = s.chip.time.now)) && (same [loopA (loopNum l) 0, loopA (loopNum l) 8, loopA (loopNum l) 9, 0x234, 0x605] s.chip c)))) &&
  -- RelockAfterACoast, clause 2
  (let s := tl 3 (at_ [(0x220, 3), (0x223, 0)]); let l := PLoop.lpll; let phi := (-20000 : Int); (s.chip.ctlOn) && decide (s.chip.bus.v1Wait = none) && (s.chip.upToDate) && decide (s.chip.reg (loopA (loopNum l) 0) = 3) && decide (s.chip.reg (loopA (loopNum l) 3) = 0) && decide (l ≠ .cpll) && (ends (.loopRelock l phi) s (fun c => (decide (c.reg (loopA (loopNum l) 0) = 2)) && (((c.loop (loopNum l)).aligning)) && (decide (c.time.now = s.chip.time.now)))))) = true := by decide

theorem test_hostAddressMatchSleep : (
  -- SleepAndWakes, clause 1
  (let s := at_ [(0x301, 2)]; let i := Instr.hostAddressMatchSleep; (s.chip.ctlOn) && (s.chip.asleep) && (s.chip.upToDate) && ((decide (i = .ctlOnlyWake)) || ((decide (i = .hostAddressMatchSleep)) && (decide (s.chip.bus.stuck = false)))) && (ends i s (fun c => (decide (c.reg 0x301 = 3)) && ((c.clk.tcxoEn)) && ((!(decide (s.chip.reg 0x231 = 0)) || (decide (c.reg 0x231 = 1)))) && (same [0x301, 0x231, 0x210] s.chip c)))) &&
  -- SleepAndWakes, clause 2.2
  (let s := at_ []; (s.chip.ctlOn) && decide (s.chip.asleep = false) && becomes .hostAddressMatchSleep s s.chip)) = true := by decide

theorem test_ctlOnlyWake : (
  -- SleepAndWakes, clause 2.1
  (let s := at_ []; (s.chip.ctlOn) && decide (s.chip.asleep = false) && becomes .ctlOnlyWake s s.chip)) = true := by decide

theorem test_hostHoldExpire : (
  -- SleepAndWakes, clause 3
  (let s := tl 9 (up 2 [(0x300, 1), (0x301, 1), (0x200, 2), (0x210, 2)]); (s.chip.ctlOn) && decide (s.chip.power.hostHold ≤ s.chip.tick) && (s.chip.maySleep) && (ends .hostHoldExpire s (fun c => (decide (c.reg 0x301 = 2)) && (decide (c.reg 0x210 = (if s.chip.reg 0x210 = 4 then 4 else 0))) && (decide (c.reg 0x200 = (if s.chip.reg 0x200 = 4 then 4 else 0))) && (decide (c.reg 0x220 = (if s.chip.reg 0x220 = 4 then 4 else 0)))))) &&
  -- SleepAndWakes, clause 4
  (let s := power (up 2 []) fun p => { p with hostHold := 5 }; ((decide (s.chip.tick < s.chip.power.hostHold)) || (decide (s.chip.maySleep = false))) && becomes .hostHoldExpire s s.chip)) = true := by decide

theorem test_wakePinRise : (
  -- SleepAndWakes, clause 5
  (let s := at_ []; decide (s.chip.power.wake = false) && decide (s.chip.power.deep = false) && decide (s.chip.blocksAsleep = false) && becomes .wakePinRise s { s.chip with power := { s.chip.power with wake := true, wakeUntil := none } })) = true := by decide

theorem test_wakePinFall : (
  -- SleepAndWakes, clause 6
  (let s := power (at_ []) fun p => { p with wake := true }; (s.chip.power.wake) && becomes .wakePinFall s { s.chip with power := { s.chip.power with wake := false, wakeUntil := some (s.chip.tick + 1) } })) = true := by decide

theorem test_hostAddressMatchDeep : (
  -- SleepAndWakes, clause 7
  (let s := power (at_ []) fun p => { p with deep := true, addrPins := 3 }; (s.chip.power.deep) && decide (s.chip.power.addrPins < 4) && (ends .hostAddressMatchDeep s (fun c => (decide (c.power.deep = false)) && (decide (c.reg 0x500 = 0x58 + s.chip.power.addrPins)))))) = true := by decide

theorem test_deepWakeTimer : (
  -- SleepAndWakes, clause 8
  (let s := power (at_ []) fun p => { p with deep := true, deepWakeAt := some 64000 }; (s.chip.power.deep) && decide (s.chip.power.deepWakeAt = some 64000) && (ends .deepWakeTimer s (fun c => (decide (c.power.deep = false)) && (decide (c.time.now = max s.chip.time.now 64000)))))) = true := by decide

theorem test_glimpseEnd : (
  -- SleepAndWakes, clause 9
  (let s := on (tl 9 (up 2 [])) fun c => { c with glimpses := Tbl.put c.glimpses 1 { gl with active := true } }; let g := { gl with active := true }; (s.chip.ctlOn) && decide (s.chip.asleep = false) && decide ((s.chip.glimpseStop 1).maySleep = false) && decide (Tbl.find s.chip.glimpses 1 = some g) && (g.active) && decide (s.chip.reg 0x30C < 0xFFFFFFFF) && (ends (.glimpseEnd 1) s (fun c => (decide (Tbl.find c.glimpses 1 = some { g with active := false, misses := 0 })) && (decide (c.reg 0x30C = s.chip.reg 0x30C + 1)))))) = true := by decide

theorem test_sketchWake : (
  -- SleepAndWakes, clause 10.1
  (let s := on (tl 9 (up 2 [(0x300, 1)])) fun c => { c with glimpses := Tbl.put c.glimpses 1 gl }; (s.chip.ctlOn) && decide (s.chip.reg 0x300 = 1) && decide (s.chip.blocksAsleep = false) && decide (Tbl.find s.chip.glimpses 1 = some gl) && decide (gl.active = false) && decide (s.chip.reg 0x231 ≠ 3) && decide (s.chip.reg 0x210 ≠ 4) && decide (s.chip.reg 0x200 ≠ 4) && decide (12 ≤ gl.nextG) && ends (.sketchWake 1 12) s (fun c => (decide (Tbl.find c.glimpses 1 = some { gl with active := true, blocks := 0, failed := false })))) &&
  -- SleepAndWakes, clause 10.2
  (let s := on (tl 9 (up 2 [(0x300, 1)])) fun c => { c with glimpses := Tbl.put c.glimpses 1 gl }; (s.chip.ctlOn) && decide (s.chip.reg 0x300 = 1) && decide (s.chip.blocksAsleep = false) && decide (Tbl.find s.chip.glimpses 1 = some gl) && decide (gl.active = false) && decide (gl.nextG < 13) && (ends (.sketchWake 1 13) s (fun c => (decide (Tbl.find c.glimpses 1 = some { gl with active := false, misses := min 0xFFFF (gl.misses + 1) })) && ((c.isPending 30)))))) = true := by decide

theorem test_vddAoValid : (
  -- SupplyAndResetEvents, clause 1
  (let s := at_ [(0x300, 1)]; (after .vddAoValid s (fun t => (decide (t.keys = [])) && (decide (t.pending = s.pending)) && (decide (t.chip.power.invalid.testBit 3 = false)) && (decide (t.chip.power.resetN = s.chip.power.resetN)) && (decide (t.chip.power.cause = some 0)))))) = true := by decide

theorem test_aoStartupTimeout : (
  -- SupplyAndResetEvents, clause 2
  (let s := at_ []; let i := Instr.aoStartupTimeout; decide (s.chip.power.invalid.testBit 3 = false) && decide (s.chip.power.aoReady = false) && decide (s.chip.power.cause = some 0) && decide (0 < 16) && (s.chip.ctlOn) && decide (s.chip.boot.phase = 0) && ((decide (i = .powerUpBootStart)) || ((decide (i = .aoStartupTimeout)) && (decide (s.chip.reg 0x23C ≠ 1)))) && (ends i s (fun c => ((c.power.aoReady)) && (decide (c.boot.phase = 1)) && (decide (c.reg 0x400 = 0 &&& maskAt 0x400)) && ((c.isPending 3)) && (decide (c.reg 0x231 = 1)) && ((c.clk.tcxoEn)) && ((!(decide (i = .aoStartupTimeout)) || ((decide (c.reg 0x23C = 1)) && ((c.isPending 13))))) && (same [0x400, 0x231, 0x23C] s.chip c))))) = true := by decide

theorem test_resetNAssert : (
  -- SupplyAndResetEvents, clause 3
  (let s := at_ [(0x300, 1)]; decide (1000 ≤ 1000) && decide (s.chip.power.invalid.testBit 3 = false) && (after (.resetNAssert 1000) s (fun t => (decide (t.keys = [])) && (decide (t.pending = s.pending)) && (decide (t.chip.power.resetN = false)) && (decide (t.chip.boot.done = false)) && (decide (t.chip.jobs = []))))) &&
  -- SupplyAndResetEvents, clause 4
  (let s := at_ []; decide (200 ≤ 200) && (s.chip.ctlOn) && becomes (.resetNAssert 200) s s.chip)) = true := by decide

theorem test_resetNRelease : (
  -- SupplyAndResetEvents, clause 5
  (let s := power (at_ []) fun p => { p with resetN := false }; decide (3 < 4) && decide (2 < 4) && decide (s.chip.power.resetN = false) && (ends (.resetNRelease 3 2) s (fun c => ((c.power.resetN)) && (decide (c.reg 0x500 = 0x58 + 3)) && (decide (c.reg 0x402 = 2))))) &&
  -- SupplyAndResetEvents, clause 6
  (let s := at_ []; (s.chip.power.resetN) && becomes (.resetNRelease 3 2) s s.chip)) = true := by decide

theorem test_railBelowWarning : (
  -- SupplyAndResetEvents, clause 7
  (let s := at_ []; decide (s.chip.power.invalid.testBit 3 = false) && decide (s.chip.bit 0x001 (railNum Rail.adc) = false) && decide (s.chip.reg 0x002 < 0xFFFFFFFF) && (ends (.railBelowWarning Rail.adc) s (fun c => ((c.bit 0x001 (railNum Rail.adc))) && ((c.isPending 6)) && (decide (c.reg 0x002 = s.chip.reg 0x002 + 1)) && (same [0x001, 0x002] s.chip c))))) = true := by decide

theorem test_railBelowValid : (
  -- SupplyAndResetEvents, clause 8
  (let s := at_ []; ((decide (Rail.core = .core)) || (decide (Rail.core = .ao))) && decide (s.chip.power.invalid.testBit (railNum Rail.core) = false) && decide (s.chip.power.invalid.testBit 3 = false) && (after (.railBelowValid Rail.core) s (fun t => (decide (t.keys = [])) && (decide (t.pending = s.pending)) && (decide (t.chip.ctlOn = false)) && (decide (t.chip.boot.done = false))))) &&
  -- SupplyAndResetEvents, clause 9
  (let s := at_ []; ((decide (Rail.adc = .adc)) || (decide (Rail.adc = .an))) && decide (s.chip.power.invalid.testBit (railNum Rail.adc) = false) && decide (s.chip.power.invalid.testBit 3 = false) && (s.chip.convRails) && (s.chip.ctlOn) && (ends (.railBelowValid Rail.adc) s (fun c => ((c.power.invalid.testBit (railNum Rail.adc))) && (decide (c.power.convAt = some s.chip.time.now))))) &&
  -- SupplyAndResetEvents, clause 10
  (let s := at_ []; decide (s.chip.power.invalid.testBit 4 = false) && (s.chip.ctlOn) && becomes (.railBelowValid .io) s (s.chip.setInvalid 4 true)) &&
  -- SupplyAndResetEvents, clause 11
  (let s := at_ []; decide (s.chip.power.invalid.testBit 5 = false) && (s.chip.ctlOn) && decide (s.chip.reg 0xD00 = 0) && becomes (.railBelowValid .pa) s (s.chip.setInvalid 5 true))) = true := by decide

theorem test_railRecovered : (
  -- SupplyAndResetEvents, clause 12
  (let s := at_ [(0x001, 255)]; decide (s.chip.power.invalid.testBit 3 = false) && decide (s.chip.power.invalid.testBit (railNum Rail.adc) = false) && becomes (.railRecovered Rail.adc) s (s.chip.putBit 0x001 (railNum Rail.adc) false))) = true := by decide

theorem test_vddIoValid : (
  -- SupplyAndResetEvents, clause 13
  (let s := at_ []; becomes (.vddIoValid 2500) s { s.chip with power := { s.chip.power with invalid := setBits s.chip.power.invalid 4 1 0, ioClass := if 2500 ≤ 2500 then 2 else 1 } })) = true := by decide

theorem test_vddDacValid : (
  -- SupplyAndResetEvents, clause 14
  (let s := at_ []; decide (2 < 3) && (ends (.vddDacValid 4500 2) s (fun c => (decide (c.power.invalid.testBit 6 = false)) && (decide (c.reg 0xE41 = (s.chip.reg 0xE41 + 1) % 65536)) && (upTo 4 (fun ch => (decide (c.reg (dacA ch 9) = 1)) && (decide (c.reg (dacA ch 0x0A) = (if 2 = 0 then 0 else if 2 = 1 then 0x8000 else 0xFFFF))) && (decide (c.reg (dacA ch 1) = (if 4500 ≤ 4500 then 1 else 0))))))))) = true := by decide

theorem test_vddDacLoss : (
  -- SupplyAndResetEvents, clause 15
  (let s := at_ []; ends .vddDacLoss s (fun c => ((c.power.invalid.testBit 6))))) = true := by decide +kernel

theorem test_directorWatchdogReset : (
  -- SupplyAndResetEvents, clause 16
  (let s := power (at_ [(0x300, 1)]) fun p => { p with aoReady := true }; (s.chip.ctlOn) && (s.chip.power.aoReady) && (after (.directorWatchdogReset 1) s (fun t => (decide (t.keys = [])) && (decide (t.pending = s.pending)) && (decide (t.chip.boot.phase = 1)) && ((t.chip.isPending 3)))))) = true := by decide +kernel

theorem test_agcReleaseStep : (
  -- FrontEndGainAndCombining, clause 1.1.1
  (let s := on (up 2 [(feA 1 3, 20), (feA 1 8, 3)]) fun c => c.modFe 1 fun f => { f with below := 64000, runDue := false }; (s.chip.dspOn) && decide (1 < 2) && decide (s.chip.reg (feA 1 3) ≤ 30) && decide (s.chip.reg (feA 1 2) = 0) && decide (s.chip.reg (feA 1 7) ≤ (s.chip.fe 1).below) && (((s.chip.fe 1).lastOvl).all (fun t => decide (t + s.chip.reg (feA 1 0x0C) ≤ s.chip.tick))) && decide (s.chip.reg (feA 1 8) < s.chip.reg (feA 1 3)) && decide (s.chip.ladderBusy 1 = false) && (ends (.agcReleaseStep 1) s (fun c => (decide (c.reg (feA 1 3) = s.chip.reg (feA 1 3) - 1)) && ((c.isPending 18)) && (decide ((c.fe 1).below = 0)) && (same [feA 1 3, feA 1 0x11, feA 1 0x13] s.chip c)))) &&
  -- FrontEndGainAndCombining, clause 1.1.2
  (let s := on (up 2 [(feA 1 3, 20), (feA 1 8, 3)]) fun c => c.modFe 1 fun f => { f with below := 64000, ladSection := some 2 }; (s.chip.dspOn) && decide (1 < 2) && decide (s.chip.reg (feA 1 3) ≤ 30) && decide (s.chip.reg (feA 1 2) = 0) && decide (s.chip.reg (feA 1 7) ≤ (s.chip.fe 1).below) && (((s.chip.fe 1).lastOvl).all (fun t => decide (t + s.chip.reg (feA 1 0x0C) ≤ s.chip.tick))) && decide (s.chip.reg (feA 1 8) < s.chip.reg (feA 1 3)) && (s.chip.ladderBusy 1) && (ends (.agcReleaseStep 1) s (fun c => (((c.fe 1).owedStep)) && (same [] s.chip c)))) &&
  -- FrontEndGainAndCombining, clause 1.2
  (let s := up 2 [(feA 0 3, 0)]; (s.chip.dspOn) && decide (0 < 2) && decide (s.chip.reg (feA 0 3) ≤ 30) && ((decide (s.chip.reg (feA 0 3) ≤ s.chip.reg (feA 0 8))) || (decide (s.chip.reg (feA 0 2) ≠ 0)) || (decide ((s.chip.fe 0).below < s.chip.reg (feA 0 7)))) && becomes (.agcReleaseStep 0) s s.chip)) = true := by decide

theorem test_overloadDeclared : (
  -- FrontEndGainAndCombining, clause 1.3
  (let s := tl 4 (up 2 [(feA 0 3, 27), (feA 0 2, 1)]); (s.chip.dspOn) && decide (0 < 2) && decide (s.chip.reg (feA 0 3) ≤ 30) && decide (s.chip.reg (feA 0 0x0A) ≤ 60000) && (ends (.overloadDeclared 0 60000) s (fun c => (decide (c.reg (feA 0 3) = min 30 (s.chip.reg (feA 0 3) + s.chip.reg (feA 0 0x0B)))) && (decide (c.reg (feA 0 0x0D) = (if s.chip.reg (feA 0 3) = 30 then 2 else 1))) && ((c.isPending (16 + 0))) && (decide ((c.fe 0).lastOvl = some s.chip.tick)) && (((c.fe 0).divOff)) && ((!(decide (s.chip.reg (feA 0 2) = 1)) || ((!(decide ((s.chip.fe 0).base = none)) || (decide ((c.fe 0).base = some (s.chip.reg (feA 0 3)))))))) && ((!(decide (s.chip.reg (feA 0 2) = 2)) || ((!(decide ((s.chip.fe 0).base = none)) || (decide ((c.fe 0).base = some (s.chip.reg (feA 0 4)))))))) && ((regKeys c s.chip).all (fun a => (!(decide (a / 256 ≠ 1)) || ((!(decide (a < 0x1000)) || ((!(decide (a ∉ [feA 0 3, feA 0 0x0D, feA 0 0x10, feA 0 0x11, feA 0 0x12, feA 0 0x13, 0xA17 + 16 * 0, 0xA18 + 16 * 0, 0xA19 + 16 * 0, 0xA38, 0xA48])) || (decide (c.reg a = s.chip.reg a)))))))))))) &&
  -- FrontEndGainAndCombining, clause 1.4
  (let s := up 2 []; (s.chip.dspOn) && decide (0 < 2) && decide (s.chip.reg (feA 0 3) ≤ 30) && decide (0 < s.chip.reg (feA 0 0x0A)) && decide (s.chip.reg (feA 0 0x12) + 0 ≤ 0xFFFFFFFF) && (ends (.overloadDeclared 0 0) s (fun c => (decide (c.reg (feA 0 0x12) = s.chip.reg (feA 0 0x12) + 0)) && (same [feA 0 0x12] s.chip c))))) = true := by decide

theorem test_ovlReturnStep : (
  -- FrontEndGainAndCombining, clause 1.5.1
  (let s := tl 9000 (on (up 2 [(feA 0 0x0D, 1)]) fun c => c.modFe 0 fun f => { f with lastOvl := some 2 }); (s.chip.dspOn) && decide (0 < 2) && decide (s.chip.reg (feA 0 3) ≤ 30) && decide ((s.chip.fe 0).lastOvl = some 2) && decide (2 + s.chip.reg (feA 0 0x0C) ≤ s.chip.tick) && decide ((s.chip.fe 0).base = none) && becomes (.ovlReturnStep 0) s (s.chip.put (feA 0 0x0D) 0)) &&
  (let s := tl 9000 (on (up 2 [(feA 0 0x0D, 1), (feA 0 3, 12)]) fun c => c.modFe 0 fun f => { f with lastOvl := some 2, base := some 11 }); (s.chip.dspOn) && decide (s.chip.reg (feA 0 3) ≤ 30) && decide (2 + s.chip.reg (feA 0 0x0C) ≤ s.chip.tick) && decide (s.chip.reg (feA 0 2) = 0) && (ends (.ovlReturnStep 0) s (fun c => (decide ((c.fe 0).base = none)) && (decide (c.reg (feA 0 0x0D) = 0)) && (same [feA 0 0x0D] s.chip c)))) &&
  -- FrontEndGainAndCombining, clause 1.5.2
  (let s := tl 9000 (on (up 2 [(feA 0 2, 1), (feA 0 0x0D, 1), (feA 0 3, 12)]) fun c => c.modFe 0 fun f => { f with lastOvl := some 2, base := some 11 }); (s.chip.dspOn) && decide (0 < 2) && decide (s.chip.reg (feA 0 3) ≤ 30) && decide ((s.chip.fe 0).lastOvl = some 2) && decide (2 + s.chip.reg (feA 0 0x0C) ≤ s.chip.tick) && decide ((s.chip.fe 0).base = some 11) && decide (11 < s.chip.reg (feA 0 3)) && decide (s.chip.reg (feA 0 2) ≠ 0) && decide ((s.chip.fe 0).lastReturn = none) && decide (s.chip.ladderBusy 0 = false) && (ends (.ovlReturnStep 0) s (fun c => (decide (c.reg (feA 0 3) = s.chip.reg (feA 0 3) - 1)) && (decide (c.reg (feA 0 0x0D) = 0)) && ((c.isPending 18)) && (decide ((c.fe 0).lastReturn = (if s.chip.reg (feA 0 3) - 1 ≤ 11 then none else some s.chip.tick))) && (same [feA 0 3, feA 0 0x0D, feA 0 0x11, feA 0 0x13] s.chip c))))) = true := by decide

theorem test_injectionEnd : (
  -- FrontEndGainAndCombining, clause 1.6
  (let s := tl 9 (on (up 2 [(feA 0 0x23, 1)]) fun c => c.modFe 0 fun f => { f with injEnd := some 9 }); let level := (-32768 : Int); (s.chip.dspOn) && decide (0 < 2) && decide (s.chip.reg (feA 0 3) ≤ 30) && decide (-32768 ≤ level) && decide (level ≤ 32767) && (s.chip.injecting 0) && decide ((s.chip.fe 0).injEnd = some 9) && decide (9 ≤ s.chip.tick) && (ends (.injectionEnd 0 level) s (fun c => (decide (c.reg (feA 0 0x23) = 2)) && (decide (c.int (feA 0 0x24) 16 = level)) && ((c.isPending 22)) && (decide ((c.fe 0).injAt = some s.chip.time.now)) && (same [feA 0 0x23, feA 0 0x24] s.chip c))))) = true := by decide

theorem test_divEstimateBlock : (
  -- FrontEndGainAndCombining, clause 2.1
  (let s := lane (runs (up 2 [(laneA 4 0, 0x10), (0x8E0, 1)]) 4 0 1) 5 id; let cRe := (30 : Int); let cIm := (-40 : Int); (s.chip.dspOn) && decide (4 < 160) && (s.chip.laneRuns 4) && (s.chip.laneCombines 4) && (ends (.divEstimateBlock 4 100 900 cRe cIm 50) s (fun c => (decide ((c.lane 4).pa = 100)) && (decide ((c.lane 4).pb = 900)) && (decide ((c.lane 4).cRe = cRe)) && (decide ((c.lane 4).cIm = cIm)) && ((!(decide (cRe.natAbs * cRe.natAbs + cIm.natAbs * cIm.natAbs < 50 * 50)) || ((decide ((c.lane 4).rotRe = (s.chip.lane 4).rotRe)) && (decide ((c.lane 4).rotIm = (s.chip.lane 4).rotIm))))) && ((!(decide (50 * 50 ≤ cRe.natAbs * cRe.natAbs + cIm.natAbs * cIm.natAbs)) || ((!(decide (cRe ≠ 0)) || ((decide ((c.lane 4).rotRe = cRe)) && (decide ((c.lane 4).rotIm = cIm))))))) && ((!(decide (s.chip.reg 0x8E0 ≠ 1)) || (decide ((c.lane 4).selB = (s.chip.lane 4).selB)))) && ((!(decide (s.chip.reg 0x8E0 = 1)) || ((!(decide ((s.chip.lane 4).selB = false)) || (decide ((c.lane 4).selB = decide (100 ^ 20 * 10 ^ s.chip.reg 0x8E2 < 900 ^ 20))))))) && (same [] s.chip c))))) = true := by decide

theorem test_divOvlReturn : (
  -- FrontEndGainAndCombining, clause 2.2.1
  (let s := tl 9000 (on (up 2 []) fun c => c.modFe 1 fun f => { f with lastOvl := some 2, divOff := true }); (s.chip.dspOn) && decide (1 < 2) && decide ((s.chip.fe 1).lastOvl = some 2) && decide (2 + s.chip.reg 0x8E3 ≤ s.chip.tick) && (ends (.divOvlReturn 1) s (fun c => (decide ((c.fe 1).divOff = false)) && (same [] s.chip c)))) &&
  -- FrontEndGainAndCombining, clause 2.2.2
  (let s := tl 9 (on (up 2 []) fun c => c.modFe 1 fun f => { f with lastOvl := some 9, divOff := true }); (s.chip.dspOn) && decide (1 < 2) && decide ((s.chip.fe 1).lastOvl = some 9) && decide (s.chip.tick < 9 + s.chip.reg 0x8E3) && becomes (.divOvlReturn 1) s s.chip)) = true := by decide

theorem test_sparePassDone : (
  -- SubConverterRotation, clause 1
  (let s := on (up 2 [(0x200, 2), (0x210, 2), (feA 1 0x40, 4)]) fun c => c.modAdc 1 fun x => { x with prevPass := some (100, 50, -20) }; let off := (350 : Int); let gain := (-50 : Int); let o := (100 : Int); let g := (50 : Int); let k := (-20 : Int); (s.chip.dspOn) && decide (1 < 2) && decide (s.chip.reg (feA 1 0x40) < 5) && decide ((s.chip.adc 1).accepted = false) && (s.chip.adcRuns 1) && (s.chip.calLoops) && decide (s.chip.calGlimpse = false) && decide (s.chip.reg 0x600 = 0) && decide ((s.chip.adc 1).prevPass = some (o, g, k)) && decide ((off - o).natAbs ≤ 250) && decide ((gain - g).natAbs ≤ 100) && decide (((0 : Int) - k).natAbs ≤ 20) && (ends (.sparePassDone 1 off gain (0 : Int)) s (fun c => (((c.adc 1).accepted)) && (decide ((c.adc 1).prevPass = none)) && (((c.adc 1).okSubs.testBit (s.chip.reg (feA 1 0x40)))) && (decide (c.reg (calAdcA 1 (1 + s.chip.reg (feA 1 0x40))) = coefWord ((off + o) / 2) ((gain + g) / 2) (((0 : Int) + k) / 2))) && (same [calAdcA 1 (1 + s.chip.reg (feA 1 0x40)), calAdcA 1 0, calAdcA 1 6, calAdcA 1 7, 0xA38, 0xA48] s.chip c)))) &&
  -- SubConverterRotation, clause 2
  (let s := up 2 [(0x200, 2), (0x210, 2), (feA 1 0x40, 4)]; let off := (350 : Int); let gain := (-50 : Int); (s.chip.dspOn) && decide (1 < 2) && decide (s.chip.reg (feA 1 0x40) ≠ 7) && decide ((s.chip.adc 1).accepted = false) && (s.chip.adcRuns 1) && (s.chip.calLoops) && decide ((s.chip.adc 1).prevPass = none) && (ends (.sparePassDone 1 off gain (0 : Int)) s (fun c => (decide ((c.adc 1).prevPass = some (off, gain, (0 : Int)))) && (same [] s.chip c))))) = true := by decide

theorem test_handoverDue : (
  -- SubConverterRotation, clause 3
  (let s := tl 700000 (on (up 2 [(0x200, 2), (0x210, 2), (feA 0 0x40, 4)]) fun c => c.modAdc 0 fun x => { x with accepted := true }); (s.chip.dspOn) && decide (0 < 2) && ((s.chip.adc 0).accepted) && decide ((s.chip.adc 0).shadow = none) && decide (s.chip.reg (feA 0 0x40) ≠ 7) && (s.chip.calLoops) && (s.chip.adcRuns 0) && decide (s.chip.calGlimpseUsed = false) && decide ((s.chip.adc 0).lastHand + s.chip.reg 0xA01 ≤ s.chip.tick) && decide ((s.chip.adc 0).ages = 0 :: [1, 2, 3]) && (ends (.handoverDue 0) s (fun c => (decide ((c.adc 0).shadow = some 0)) && (same [] s.chip c))))) = true := by decide

theorem test_handoverCompareDone : (
  -- SubConverterRotation, clause 4
  (let s := tl 7 (on (up 2 [(0x200, 2), (0x210, 2), (feA 0 0x40, 4)]) fun c => c.modAdc 0 fun x => { x with accepted := true, shadow := some 3 }); (s.chip.dspOn) && decide (0 < 2) && decide ((s.chip.adc 0).shadow = some 3) && decide (3 < 4) && decide (s.chip.reg (feA 0 0x40) < 5) && decide (1500 ≤ 1500) && (ends (.handoverCompareDone 0 1500) s (fun c => (decide (c.reg (feA 0 0x40) = s.chip.subOf 0 3)) && (decide (c.subOf 0 3 = s.chip.reg (feA 0 0x40))) && (upTo 4 (fun t => (!(decide (t ≠ 3)) || (decide (c.subOf 0 t = s.chip.subOf 0 t))))) && (decide ((c.adc 0).shadow = none)) && (decide ((c.adc 0).accepted = false)) && (decide ((c.adc 0).lastHand = s.chip.tick)) && (same [feA 0 0x40, feA 0 0x41, feA 0 0x43, feA 0 0x45, calAdcA 0 0] s.chip c)))) &&
  -- SubConverterRotation, clause 5
  (let s := tl 7 (on (up 2 [(0x200, 2), (0x210, 2), (feA 0 0x40, 4)]) fun c => c.modAdc 0 fun x => { x with accepted := true, shadow := some 3, fails := [(4, 1)] }); decide (s.chip.reg (feA 0 0x40) ≠ 7) && (s.chip.dspOn) && decide (0 < 2) && decide ((s.chip.adc 0).shadow = some 3) && decide (s.chip.reg (feA 0 0x42) = 0) && decide (Tbl.get 0 (s.chip.adc 0).fails (s.chip.reg (feA 0 0x40)) < 2) && decide (1500 < 1501) && (ends (.handoverCompareDone 0 1501) s (fun c => ((c.isPending 21)) && (decide ((c.adc 0).shadow = none)) && (decide ((c.adc 0).accepted = false)) && (decide (Tbl.get 0 (c.adc 0).fails (s.chip.reg (feA 0 0x40)) = Tbl.get 0 (s.chip.adc 0).fails (s.chip.reg (feA 0 0x40)) + 1)) && (same [feA 0 0x44, feA 0 0x45, calAdcA 0 0] s.chip c)))) &&
  -- SubConverterRotation, clause 6
  (let s := tl 7 (on (up 2 [(0x200, 2), (0x210, 2), (feA 0 0x40, 4)]) fun c => c.modAdc 0 fun x => { x with accepted := true, shadow := some 3, fails := [(4, 2)] }); (s.chip.dspOn) && decide (0 < 2) && decide ((s.chip.adc 0).shadow = some 3) && decide (s.chip.reg (feA 0 0x42) = 0) && decide (Tbl.get 0 (s.chip.adc 0).fails (s.chip.reg (feA 0 0x40)) = 2) && decide (s.chip.reg (feA 0 0x40) < 5) && decide (1500 < 1501) && (ends (.handoverCompareDone 0 1501) s (fun c => ((c.isPending 21)) && ((c.bit (feA 0 0x42) (s.chip.reg (feA 0 0x40)))) && (decide (c.reg (feA 0 0x40) = 7)))))) = true := by decide

theorem test_ladderRunStart : (
  -- Calibration, clause 1
  (let s := up 2 []; decide (1 < 2) && (s.chip.dspOn) && ((s.chip.fe 1).runDue) && (ends (.ladderRunStart 1) s (fun c => ((c.bit (calFeA 1 0) 10)) && (decide ((c.fe 1).runDue = false)) && (decide ((c.fe 1).ladDone = 0)) && (decide ((c.fe 1).ladSection = none)) && (same [calFeA 1 0] s.chip c))))) = true := by decide

theorem test_temperatureStep : (
  -- Calibration, clause 2.1
  (let s := on (up 2 [(0xA04, 100)]) fun c => c.modFe 1 fun f => { f with runTemp := some 200 }; let t := (300 : Int); (s.chip.ctlOn) && decide (-32768 ≤ t) && decide (t ≤ 32767) && ((List.range 2).any (fun fe => ((s.chip.fe fe).runTemp).any (fun t0 => decide (s.chip.reg 0xA04 ≤ (t - t0).natAbs)))) && (ends (.temperatureStep t) s (fun c => (decide (c.int 0xA05 16 = t)) && ((c.isPending 5)) && ((c.bit (calFeA 0 0) 10)) && ((c.bit (calFeA 1 0) 10)) && (same [0xA05, calFeA 0 0, calFeA 1 0] s.chip c)))) &&
  -- Calibration, clause 2.2
  (let s := on (up 2 [(0xA04, 100)]) fun c => c.modFe 1 fun f => { f with runTemp := some 200 }; let t := (299 : Int); (s.chip.ctlOn) && decide (-32768 ≤ t) && decide (t ≤ 32767) && ((List.range 2).all (fun fe => ((s.chip.fe fe).runTemp).all (fun t0 => decide ((t - t0).natAbs < s.chip.reg 0xA04)))) && becomes (.temperatureStep t) s (s.chip.putInt 0xA05 16 t))) = true := by decide

theorem test_ladderComparisonStart : (
  -- Calibration, clause 3
  (let s := tl 9000 (up 2 [(0x200, 2), (0x210, 2), (calFeA 0 0, 0x400), (feA 0 3, 0)]); decide (0 < 2) && decide (4 < 5) && (s.chip.dspOn) && (s.chip.bit (calFeA 0 0) 10) && decide ((s.chip.fe 0).ladSection = none) && decide ((s.chip.fe 0).ladDone.testBit 4 = false) && decide (s.chip.injecting 0 = false) && (s.chip.calLoops) && decide ((s.chip.fe 0).lastOvl = none) && ((isolate (s.chip.reg (feA 0 3)) 4).isSome) && (s.chip.ladderGap 0) && (ends (.ladderComparisonStart 0 4) s (fun c => (decide ((c.fe 0).ladSection = some 4)) && (decide ((c.fe 0).calAt = some s.chip.time.now)) && (same [] s.chip c))))) = true := by decide

theorem test_ladderComparisonDone : (
  -- Calibration, clause 4
  (let s := on (up 2 [(feA 0 3, 5)]) fun c => c.modFe 0 fun f => { f with ladSection := some 1 }; let diff := (2010 : Int); decide (0 < 2) && (s.chip.dspOn) && decide ((s.chip.fe 0).ladSection = some 1) && decide ((s.chip.fe 0).ladFirst = none) && decide ((s.chip.fe 0).owedStep = false) && ((isolate (s.chip.reg (feA 0 3)) 1).isSome) && (ends (.ladderComparisonDone 0 diff) s (fun c => (decide ((c.fe 0).ladFirst = some (s.chip.reg (feA 0 3) * 8 + 1, diff))) && (decide ((c.fe 0).ladSection = none)) && (same [] s.chip c)))) &&
  -- Calibration, clause 5
  (let s := tl 5 (on (up 2 [(feA 0 3, 0)]) fun c => c.modFe 0 fun f => { f with ladSection := some 1, ladFirst := some (1, 2000) }); let diff := (2010 : Int); let d := (2000 : Int); decide (0 < 2) && decide (1 < 5) && (s.chip.dspOn) && decide ((s.chip.fe 0).ladSection = some 1) && decide ((s.chip.fe 0).ladFirst = some (s.chip.reg (feA 0 3) * 8 + 1, d)) && decide ((s.chip.fe 0).owedStep = false) && decide (s.chip.reg 0x600 = 0) && decide ((diff - d).natAbs ≤ 10 * s.chip.reg 0xA02) && decide (s.chip.reg (feA 0 3) = 0) && decide (0 ≤ diff + d) && decide (diff + d < 131072) && (ends (.ladderComparisonDone 0 diff) s (fun c => (decide (Tbl.find (c.fe 0).ladStaged 1 = some ((diff + d) / 2).toNat)) && ((c.bit (calFeA 0 0) 1)) && (decide (c.reg (calFeA 0 8) = s.chip.tick % 2 ^ 32)) && (decide ((c.fe 0).ladFirst = none)) && (same [calFeA 0 0, calFeA 0 7, calFeA 0 8, 0xA38, 0xA48] s.chip c)))) &&
  -- Calibration, clause 6
  (let s := tl 5 (on (up 2 [(feA 0 3, 0)]) fun c => c.modFe 0 fun f => { f with ladSection := some 1, ladFirst := some (1, 2000) }); let diff := (9010 : Int); let d := (2000 : Int); decide (0 < 2) && (s.chip.dspOn) && decide ((s.chip.fe 0).ladSection = some 1) && decide ((s.chip.fe 0).ladFirst = some (s.chip.reg (feA 0 3) * 8 + 1, d)) && decide ((s.chip.fe 0).owedStep = false) && decide (s.chip.reg 0x600 = 0) && decide (10 * s.chip.reg 0xA02 < (diff - d).natAbs) && ((isolate (s.chip.reg (feA 0 3)) 1).isSome) && (ends (.ladderComparisonDone 0 diff) s (fun c => ((c.isPending 20)) && (decide ((c.fe 0).ladFirst = none)) && (decide ((c.fe 0).ladSection = none)) && (same [0xA0A, 0xA0B] s.chip c))))) = true := by decide

theorem test_referenceEstimate : (
  -- Calibration, clause 7.1
  (let s := rateUp [10, 9, 11, 10]; let m := (100 : Int); (s.chip.ctlOn) && decide (median s.chip.rateSources = some m) && decide (s.chip.reg 0x600 = 0) && decide (s.chip.reg 0xA06 ≤ (s.chip.rateSources.filter fun x => decide ((x - m).natAbs ≤ 10 * s.chip.reg 0xA07)).length) && (ends .referenceEstimate s (fun c => (decide (c.view 0x235 = ofSigned 32 m)) && (decide (c.reg 0x235 = s.chip.reg 0x235)) && (decide (c.reg 0xA08 = 1)) && (decide (c.reg 0xA09 = s.chip.tick % 2 ^ 32)) && (same [0xA08, 0xA09] s.chip c)))) &&
  -- Calibration, clause 7.2
  (let s := rateUp [10, 9000, -11000, 8]; let m := (90 : Int); (s.chip.ctlOn) && decide (median s.chip.rateSources = some m) && decide (s.chip.reg 0x600 = 0) && decide ((s.chip.rateSources.filter fun x => decide ((x - m).natAbs ≤ 10 * s.chip.reg 0xA07)).length < s.chip.reg 0xA06) && becomes .referenceEstimate s s.chip)) = true := by decide

theorem test_dacSenseMeasure : (
  -- Calibration, clause 8
  (let s := up 2 [(0x231, 2)]; let reading := (640008 : Int); decide (3 < 4) && (s.chip.ctlOn) && (s.chip.dacValid) && (s.chip.updateClock) && decide ((s.chip.dac 3).pairs.length < 63) && (ends (.dacSenseMeasure 3 40000 reading) s (fun c => (decide ((c.dac 3).pairs = (40000 % 65536, reading) :: (s.chip.dac 3).pairs)) && (same [] s.chip c)))) &&
  -- Calibration, clause 9
  (let s := on (up 2 [(0x231, 2)]) fun c => c.modDac 3 fun d => { d with pairs := List.replicate 63 (10000, 160000) }; let reading := (640008 : Int); decide (3 < 4) && (s.chip.ctlOn) && (s.chip.dacValid) && (s.chip.updateClock) && decide ((s.chip.dac 3).pairs.length = 63) && (ends (.dacSenseMeasure 3 40000 reading) s (fun c => (same [0xA50 + 3, 0xA54] s.chip c) && (decide (c.field 0xA54 (2 * 3) 2 = (if spansQuarter ((40000 % 65536, reading) :: (s.chip.dac 3).pairs) then 2 else 1))))))) = true := by decide +kernel

theorem test_windowFirstOutputSample : (
  -- CapturesAndExports, clause 1.1
  (let s := tl 1 (up 2 [(winA 3 2, 1)]); decide (3 < 12) && (s.chip.dspOn) && decide (s.chip.reg (winA 3 2) = 1) && decide ((s.chip.win 3).dsp.since + 48 ≤ s.chip.time.now) && (ends (.windowFirstOutputSample 3) s (fun c => (decide (c.reg (winA 3 2) = 2)) && (((c.win 3).settled)) && (same [winA 3 2] s.chip c))))) = true := by decide

theorem test_captureRingFull : (
  -- CapturesAndExports, clause 1.2
  (let s := up 2 [(winA 3 0x13, 1)]; decide (3 < 12) && (s.chip.dspOn) && decide (s.chip.reg (winA 3 0x13) = 1) && decide (s.chip.capSamples 3 ≤ s.chip.capWritten 3 s.chip.time.now) && becomes (.captureRingFull 3) s (s.chip.put (winA 3 0x13) 2))) = true := by decide

theorem test_captureTrigger : (
  -- CapturesAndExports, clause 1.3
  (let s := tl 9 (up 2 [(winA 3 0x13, 2), (winA 3 0x11, 6), (winA 3 2, 2)]); decide (3 < 12) && (s.chip.dspOn) && decide (s.chip.capCauses 3 12 s.chip.time.now &&& s.chip.reg (winA 3 0x11) ≠ 0) && (s.chip.winSamples 3) && ((decide (s.chip.reg (winA 3 0x13) = 1)) || (decide (s.chip.reg (winA 3 0x13) = 2))) && (ends (.captureTrigger 3 12) s (fun c => (decide (c.reg (winA 3 0x13) = 3)) && (decide (c.reg (winA 3 0x14) = s.chip.time.now % 2 ^ 32)) && (decide (c.reg (winA 3 0x15) = s.chip.time.now / 2 ^ 32 % 2 ^ 32)) && (decide (c.reg (winA 3 0x16) = s.chip.capCauses 3 12 s.chip.time.now &&& maskAt (winA 3 0x16))) && (decide ((c.win 3).capTrig = s.chip.time.now)) && (same [winA 3 0x13, winA 3 0x14, winA 3 0x15, winA 3 0x16] s.chip c)))) &&
  -- CapturesAndExports, clause 1.4
  (let s := tl 9 (up 2 [(winA 3 0x13, 2), (winA 3 0x11, 6)]); decide (3 < 12) && (s.chip.dspOn) && decide (s.chip.capCauses 3 8 s.chip.time.now &&& s.chip.reg (winA 3 0x11) = 0) && becomes (.captureTrigger 3 8) s s.chip) &&
  -- CapturesAndExports, clause 1.5
  (let s := tl 9 (up 2 [(winA 3 0x13, 4), (winA 3 0x11, 6)]); decide (3 < 12) && (s.chip.dspOn) && decide (s.chip.capCauses 3 12 s.chip.time.now &&& s.chip.reg (winA 3 0x11) ≠ 0) && decide (s.chip.reg (winA 3 0x13) ∈ [0, 4, 5]) && becomes (.captureTrigger 3 12) s (s.chip.count (winA 3 0x1A)))) = true := by decide

theorem test_capturePostComplete : (
  -- CapturesAndExports, clause 1.6
  (let s := tl 9 (up 2 [(winA 3 0x13, 3)]); decide (3 < 12) && (s.chip.dspOn) && decide (s.chip.reg (winA 3 0x13) = 3) && decide ((s.chip.win 3).capTrig + (s.chip.win 3).capPost ≤ s.chip.time.now) && (ends (.capturePostComplete 3) s (fun c => (decide (c.reg (winA 3 0x13) = 4)) && ((!(decide (s.chip.reg (winA 3 0x1B) < 0xFFFFFFFF)) || (decide (c.reg (winA 3 0x1B) = s.chip.reg (winA 3 0x1B) + 1)))))))) = true := by decide

theorem test_captureExportDone : (
  -- CapturesAndExports, clause 1.7
  (let s := job (on (up 2 [(winA 3 0x13, 5)]) fun c => c.modWin 3 fun x => { x with capJob := some 7 }) 7 (aJob (mkDesc 8 1 0 (handleWin 3) 0)); decide (3 < 12) && (s.chip.dspOn) && decide (s.chip.reg (winA 3 0x13) = 5) && decide ((s.chip.win 3).capJob = some 7) && decide ((s.chip.win 3).dsp.ring.length ≤ (s.chip.win 3).capSent) && decide ((s.chip.out.queue.any fun q => q.job == some 7) = false) && ((s.chip.job? 7).any (fun x => (decide (dKind x.desc = 8)) && (decide (hWin (dHandle x.desc) = 3)))) && (ends (.captureExportDone 3) s (fun c => (decide (c.reg (winA 3 0x13) = 4)) && (decide ((c.win 3).capJob = none)) && (decide (c.job? 7 = none))))) &&
  -- CapturesAndExports, clause 1.8
  (let s := on (up 2 []) fun c => { c.modWin 3 fun x => { x with capJob := some 7 } with out := { c.out with queue := [qrec (some 7) 1] } }; decide (3 < 12) && (s.chip.dspOn) && decide ((s.chip.win 3).capJob = some 7) && ((s.chip.out.queue.any fun q => q.job == some 7)) && becomes (.captureExportDone 3) s s.chip)) = true := by decide

theorem test_winExportWrite : (
  -- CapturesAndExports, clause 2.1
  (let s := on (up 2 []) fun c => c.modWin 3 fun x => { x with expJob := some 7 }; decide (3 < 12) && (s.chip.hostReady [2, 3]) && decide ((1#32).toNat % 2 = 1) && ((s.chip.win 3).expJob.isSome) && answers (.winExportWrite 3 (1#32)) s writeDone) &&
  -- CapturesAndExports, clause 2.2
  (let s := up 2 []; decide (3 < 12) && (s.chip.hostReady [2, 3]) && decide ((0#32).toNat % 2 = 0) && decide ((s.chip.win 3).expJob = none) && answers (.winExportWrite 3 (0#32)) s writeDone) &&
  -- CapturesAndExports, clause 2.3
  (let s := job (on (up 2 [(winA 3 8, 1)]) fun c => c.modWin 3 fun x => { x with expJob := some 7 }) 7 (aJob (mkDesc 7 0 0 (handleWin 3) 0)); let x := aJob (mkDesc 7 0 0 (handleWin 3) 0); decide (3 < 12) && (s.chip.hostReady [2, 3]) && decide ((0#32).toNat % 2 = 0) && decide ((s.chip.win 3).expJob = some 7) && decide (s.chip.job? 7 = some x) && decide (dKind x.desc = 7) && decide (x.ending = none) && (ends (.winExportWrite 3 (0#32)) s (fun c => (decide (c.job? 7 = some { x with ending := some (s.chip.tick + 1) })) && (replied c writeDone) && (same hostRegs s.chip c)))) &&
  -- CapturesAndExports, clause 2.4
  (let s := strUp; decide (3 < 12) && (s.chip.hostReady [2, 3]) && decide ((1#32).toNat % 2 = 1) && decide ((s.chip.win 3).expJob = none) && decide ((s.chip.taken.admission (mkDesc 7 0 0 (handleWin 3) (s.chip.reg 0x703))).reason = 0) && decide (s.chip.freeJob = some 0) && (ends (.winExportWrite 3 (1#32)) s (fun c => (decide (c.reg (winA 3 8) = 1)) && (decide ((c.win 3).expJob = some 0)) && ((c.job? 0).any (fun x => (decide (x.desc = mkDesc 7 0 0 (handleWin 3) (s.chip.reg 0x703))) && (decide (x.state = 1)) && (decide (x.start = s.chip.tick + 1)))) && (replied c writeDone))))) = true := by decide

theorem test_laneStart : (
  -- LaneStartAndFades, clause 1.1
  (let s := waiting 6 0x01; let x := aJob (mkDesc 1 0 0x01 0x60000000 0); (s.chip.dspOn) && decide (6 < 160) && decide ((s.chip.lane 6).job = some 7) && decide (s.chip.job? 7 = some x) && decide (x.state = 2) && decide ((s.chip.lane 6).started = false) && decide ((s.chip.lane 6).suspended = false) && (s.chip.winRuns (s.chip.laneWin 6)) && decide (s.chip.followOf 7 = none) && (s.chip.bankOk (s.chip.laneBank 6)) && (ends (.laneStart 6) s (fun c => (((c.lane 6).started)) && (decide ((c.lane 6).job = some 7)) && (decide ((c.lane 6).filled = false)) && (decide ((c.lane 6).phaseAt = s.chip.tick)) && (decide ((c.lane 6).actB = (s.chip.lane 6).actB)) && (decide (c.reg (laneA 6 6) = (s.chip.reg (laneA 6 6) + 1) % 65536)) && ((!(decide ((s.chip.lane 6).option ∈ [1, 2, 3, 4])) || (same [laneA 6 6] s.chip c)))))) &&
  -- LaneStartAndFades, clause 1.2
  (let s := on (waiting 6 0x10) fun c => c.put (dabA 0 0) 9; let x := aJob (mkDesc 1 0 0x01 0x60000000 0); (s.chip.dspOn) && decide (6 < 160) && decide ((s.chip.lane 6).job = some 7) && decide (s.chip.job? 7 = some x) && decide (x.state = 2) && decide ((s.chip.lane 6).started = false) && decide ((s.chip.lane 6).suspended = false) && (s.chip.winRuns (s.chip.laneWin 6)) && decide (s.chip.followOf 7 = none) && (s.chip.bankOk (s.chip.laneBank 6)) && decide ((s.chip.lane 6).option = 0x10) && decide (s.chip.ensOf 6 = none) && decide (1 < 8) && decide (s.chip.reg (dabA 1 0) = 0xFF) && (upTo (1) (fun d => decide (s.chip.reg (dabA d 0) ≠ 0xFF))) && (ends (.laneStart 6) s (fun c => (decide (c.reg (dabA 1 0) = 6)) && (decide (c.reg (dabA 1 1) = 1)) && (same [laneA 6 6, dabA 1 0, dabA 1 1] s.chip c)))) &&
  -- LaneStartAndFades, clause 1.3
  (let s := on (waiting 6 0x22) fun c => c.put (drmA 0 0) 9; let x := aJob (mkDesc 1 0 0x01 0x60000000 0); (s.chip.dspOn) && decide (6 < 160) && decide ((s.chip.lane 6).job = some 7) && decide (s.chip.job? 7 = some x) && decide (x.state = 2) && decide ((s.chip.lane 6).started = false) && decide ((s.chip.lane 6).suspended = false) && (s.chip.winRuns (s.chip.laneWin 6)) && decide (s.chip.followOf 7 = none) && (s.chip.bankOk (s.chip.laneBank 6)) && decide ((s.chip.lane 6).option ∈ [0x20, 0x21, 0x22]) && decide (s.chip.drmOf 6 = none) && decide (1 < 16) && decide (s.chip.reg (drmA 1 0) = 0xFF) && (upTo (1) (fun m => decide (s.chip.reg (drmA m 0) ≠ 0xFF))) && (ends (.laneStart 6) s (fun c => (decide (c.reg (drmA 1 0) = 6)) && (decide (c.reg (drmA 1 1) = 1)) && (same [laneA 6 6, drmA 1 0, drmA 1 1, drmA 1 3] s.chip c)))) &&
  -- LaneStartAndFades, clause 2
  (let s := up 2 []; (s.chip.dspOn) && decide (159 < 160) && decide ((s.chip.lane 159).job = none) && becomes (.laneStart 159) s s.chip)) = true := by decide

theorem test_bankFadeEnd : (
  -- LaneStartAndFades, clause 3
  (let s := lane (tl 9 (up 2 [])) 6 fun l => { l with fading := true, actB := true }; (s.chip.dspOn) && decide (6 < 160) && ((s.chip.lane 6).fading) && decide ((s.chip.lane 6).fadeAt + 2 ^ s.chip.laneFade 6 * s.chip.lanePeriod 6 ≤ s.chip.time.now) && decide ((s.chip.lane 6).pend = none) && (ends (.bankFadeEnd 6) s (fun c => (decide ((c.lane 6).fading = false)) && (decide ((c.lane 6).actB = !(s.chip.lane 6).actB)) && (same [] s.chip c)))) &&
  (let s := lane (up 2 []) 6 fun l => { l with fading := true }; (s.chip.dspOn) && decide (s.chip.time.now < (s.chip.lane 6).fadeAt + 2 ^ s.chip.laneFade 6 * s.chip.lanePeriod 6) && becomes (.bankFadeEnd 6) s s.chip) &&
  -- LaneStartAndFades, clause 4
  (let s := lane (tl 9 (up 2 [])) 6 fun l => { l with fading := true, pend := some 63 }; (s.chip.dspOn) && decide (6 < 160) && ((s.chip.lane 6).fading) && decide ((s.chip.lane 6).fadeAt + 2 ^ s.chip.laneFade 6 * s.chip.lanePeriod 6 ≤ s.chip.time.now) && decide ((s.chip.lane 6).pend = some 63) && decide ((s.chip.lane 6).pendLink = none) && decide (63 < 64) && decide (63 ≠ s.chip.laneBankOf 6 (!(s.chip.lane 6).actB)) && (ends (.bankFadeEnd 6) s (fun c => (((c.lane 6).fading)) && (decide ((c.lane 6).pend = none)) && (decide ((c.lane 6).actB = !(s.chip.lane 6).actB)) && (decide (c.laneBankOf 6 (s.chip.lane 6).actB = 63)) && (same [laneA 6 3] s.chip c))))) = true := by decide

theorem test_pilotLock : (
  -- CarrierPilotAndLoopLock, clause 1
  (let s := lane (runs (up 2 []) 6 0 1) 6 fun l => { l with pilotOn := 16 }; (s.chip.dspOn) && decide (6 < 160) && (s.chip.laneRuns 6) && (s.chip.laneIsFm 6) && decide (16 ≤ (s.chip.lane 6).pilotOn) && (ends (.pilotLock 6) s (fun c => (((c.lane 6).pilot)) && (same [] s.chip c)))) &&
  -- CarrierPilotAndLoopLock, clause 3
  (let s := lane (runs (up 2 []) 6 0 1) 6 fun l => { l with pilotOn := 15 }; (s.chip.dspOn) && decide (6 < 160) && decide ((s.chip.lane 6).pilotOn < 16) && becomes (.pilotLock 6) s s.chip)) = true := by decide

theorem test_pilotUnlock : (
  -- CarrierPilotAndLoopLock, clause 2
  (let s := lane (runs (up 2 []) 6 0 1) 6 fun l => { l with pilotOff := 4, pilot := true, pilotTicks := 9 }; (s.chip.dspOn) && decide (6 < 160) && (s.chip.laneRuns 6) && (s.chip.laneIsFm 6) && decide (4 ≤ (s.chip.lane 6).pilotOff) && (ends (.pilotUnlock 6) s (fun c => (decide ((c.lane 6).pilot = false)) && (decide ((c.lane 6).pilotTicks = 0)) && (same [] s.chip c)))) &&
  -- CarrierPilotAndLoopLock, clause 4
  (let s := lane (runs (up 2 []) 6 0 1) 6 fun l => { l with pilotOff := 3, pilot := true }; (s.chip.dspOn) && decide (6 < 160) && decide ((s.chip.lane 6).pilotOff < 4) && becomes (.pilotUnlock 6) s s.chip)) = true := by decide

theorem test_carrierFound : (
  -- CarrierPilotAndLoopLock, clause 5
  (let s := lane (runs (up 2 []) 6 0 1) 6 fun l => { l with foundRun := 4 }; (s.chip.dspOn) && decide (6 < 160) && (s.chip.laneRuns 6) && (s.chip.demodulates 6) && decide ((s.chip.lane 6).found = false) && decide (4 ≤ (s.chip.lane 6).foundRun) && (ends (.carrierFound 6) s (fun c => (((c.lane 6).found)) && ((c.isPending 32)) && ((!((s.chip.laneIsFm 6)) || (same [] s.chip c))) && ((regKeys c s.chip).all (fun a => (!(decide (a / 256 ≠ 1)) || ((!(decide (a / 256 ≠ 0x0C)) || (decide (c.reg a = s.chip.reg a)))))))))) &&
  -- CarrierPilotAndLoopLock, clause 6
  (let s := lane (runs (up 2 []) 6 0 1) 6 fun l => { l with foundRun := 3 }; (s.chip.dspOn) && decide (6 < 160) && decide ((s.chip.lane 6).foundRun < 4) && becomes (.carrierFound 6) s s.chip)) = true := by decide

theorem test_carrierLost : (
  -- CarrierPilotAndLoopLock, clause 7
  (let s := lane (runs (up 2 [(0x5182, 9)]) 6 0 1) 6 fun l => { l with found := true, lostRun := 9 }; (s.chip.dspOn) && decide (6 < 160) && (s.chip.laneRuns 6) && (s.chip.demodulates 6) && ((s.chip.lane 6).found) && decide (s.chip.reg 0x5182 ≤ (s.chip.lane 6).lostRun) && (ends (.carrierLost 6) s (fun c => (decide ((c.lane 6).found = false)) && ((c.isPending 33)) && ((regKeys c s.chip).all (fun a => (!(decide (a / 256 ≠ 1)) || ((!((decide (a < 0x1000)) || (decide (0x2000 ≤ a))) || (decide (c.reg a = s.chip.reg a))))))))))) = true := by decide +kernel

theorem test_amLoopLock : (
  -- CarrierPilotAndLoopLock, clause 8.1
  (let s := lane (runs (up 2 []) 6 0 3) 6 fun l => { l with amGood := 16 }; (s.chip.dspOn) && decide (6 < 160) && (s.chip.laneRuns 6) && ((decide (s.chip.laneOption 6 = 0x03)) || (decide (s.chip.laneOption 6 = 0x04))) && decide (16 ≤ (s.chip.lane 6).amGood) && (ends (.amLoopLock 6) s (fun c => (((c.lane 6).amLock)) && (same [] s.chip c))))) = true := by decide

theorem test_amLoopUnlock : (
  -- CarrierPilotAndLoopLock, clause 8.2
  (let s := lane (runs (up 2 []) 6 0 4) 6 fun l => { l with amLock := true, amBad := 4 }; decide (4 ≤ (s.chip.lane 6).amBad) && (s.chip.dspOn) && decide (6 < 160) && (s.chip.laneRuns 6) && ((decide (s.chip.laneOption 6 = 0x03)) || (decide (s.chip.laneOption 6 = 0x04))) && (ends (.amLoopUnlock 6) s (fun c => (decide ((c.lane 6).amLock = false)) && (same [] s.chip c)))) &&
  (let s := lane (runs (up 2 []) 6 0 4) 6 fun l => { l with amLock := true, amGood := 15, amBad := 3 }; (s.chip.dspOn) && becomes (.amLoopUnlock 6) s s.chip && becomes (.amLoopLock 6) s s.chip)) = true := by decide

theorem test_laneFirstOutputSample : (
  -- CarrierPilotAndLoopLock, clause 9
  (let s := lane (runs (tl 9 (up 2 [])) 6 0 4) 6 fun l => { l with filled := false }; decide ((s.chip.lane 6).dsp.since + s.chip.laneFill 6 ≤ s.chip.time.now) && (s.chip.dspOn) && decide (6 < 160) && ((s.chip.lane 6).started) && decide ((s.chip.lane 6).suspended = false) && decide ((s.chip.lane 6).filled = false) && (ends (.laneFirstOutputSample 6) s (fun c => (((c.lane 6).filled)) && (same [] s.chip c))))) = true := by decide

theorem test_slotAttach : (
  -- SlotsAttachAndRampIn, clause 1
  (let s := runs (up 2 [(fmsA 15 0, 6)]) 6 0 1; (s.chip.dspOn) && decide (15 < (if true then 16 else 8)) && (s.chip.slotLaneRuns true 6) && decide (s.chip.reg (if true then fmsA 15 0 else amsA 15 0) = 6) && decide (6 ≠ 0xFF) && decide ((s.chip.slot true 15).lane = none) && decide (s.chip.time.now % 32000 = 0) && (ends (.slotAttach true 15) s (fun c => (decide ((c.slot true 15).lane = some 6)) && (decide ((c.slot true 15).ramped = false)) && (decide ((c.slot true 15).qSet = false)) && ((!((true)) || ((decide (c.reg (fmsA 15 0x0A) = 150 * 2 ^ 24)) && (same [fmsA 15 0x0A] s.chip c)))) && ((!(decide (true = false)) || (same [] s.chip c)))))) &&
  -- SlotsAttachAndRampIn, clause 4
  (let s := on (runs (up 2 [(amsA 7 0, 6)]) 6 0 2) fun c => c.modSlot false 7 fun x => { x with lane := some 6 }; (s.chip.dspOn) && decide (7 < (if false then 16 else 8)) && (s.chip.slotLaneRuns false 6) && decide ((s.chip.slot false 7).lane ≠ none) && becomes (.slotAttach false 7) s s.chip)) = true := by decide

theorem test_slotRampInComplete : (
  -- SlotsAttachAndRampIn, clause 2
  (let s := on (runs (tl 9 (up 2 [(amsA 7 0, 6)])) 6 0 2) fun c => c.modSlot false 7 fun x => { x with lane := some 6 }; decide ((s.chip.lane 6).dsp.since + s.chip.laneFill 6 + (if false then 8192 else 16384) + 32 * 1024 ≤ s.chip.time.now) && (s.chip.dspOn) && decide (7 < (if false then 16 else 8)) && (s.chip.slotLaneRuns false 6) && decide ((s.chip.slot false 7).lane = some 6) && ((s.chip.lane 6).filled) && (ends (.slotRampInComplete false 7) s (fun c => (((c.slot false 7).ramped)) && (decide ((c.slot false 7).lane = some 6)) && (same [] s.chip c)))) &&
  -- SlotsAttachAndRampIn, clause 3
  (let s := on (lane (runs (up 2 [(amsA 7 0, 6)]) 6 0 2) 6 fun l => { l with filled := false }) fun c => c.modSlot false 7 fun x => { x with lane := some 6 }; (s.chip.dspOn) && decide (7 < (if false then 16 else 8)) && (s.chip.slotLaneRuns false 6) && decide ((s.chip.slot false 7).lane = some 6) && decide ((s.chip.lane 6).filled = false) && becomes (.slotRampInComplete false 7) s s.chip)) = true := by decide

theorem test_dabNullDetected : (
  -- DabAcquisition, clause 1.1
  (let s := ensWith 1 fun x => { x with dsp := { dipDsp with dips := [103505] } }; (s.chip.dspOn) && decide (2 < 8) && (s.chip.ensRuns 2) && decide (s.chip.reg (dabA 2 1) = 1) && decide ((s.chip.ens 2).dsp.nextDip = some 300113) && ((s.chip.ens 2).dsp.dips.any fun q => near 64 (q + 196608) 300113) && (ends (.dabNullDetected 2) s (fun c => (decide (c.reg (dabA 2 1) = 2)) && (decide ((c.ens 2).dsp.start = 300113)) && (same [dabA 2 1] s.chip c)))) &&
  -- DabAcquisition, clause 1.2
  (let s := ensWith 1 fun x => { x with dsp := { dipDsp with dips := [103440] } }; (s.chip.dspOn) && decide (2 < 8) && (s.chip.ensRuns 2) && decide (s.chip.reg (dabA 2 1) = 1) && decide ((s.chip.ens 2).dsp.nextDip = some 300113) && !((s.chip.ens 2).dsp.dips.any fun q => near 64 (q + 196608) 300113) && (ends (.dabNullDetected 2) s (fun c => (decide (300113 ∈ (c.ens 2).dsp.dips)) && (same [] s.chip c)))) &&
  -- DabAcquisition, clause 2
  (let s := ensAt 1; (s.chip.dspOn) && decide (2 < 8) && (s.chip.ensRuns 2) && decide (s.chip.reg (dabA 2 1) = 1) && decide ((s.chip.ens 2).dsp.nextDip = none) && becomes (.dabNullDetected 2) s s.chip)) = true := by decide +kernel

theorem test_dabPhaseReference : (
  -- DabAcquisition, clauses 3.1 and 3.2: their premises
  (upTo 4 fun k => let s := ensWith (2 + k) fun x => { x with phaseFails := k, dsp := { x.dsp with line := List.replicate 2600 (3, 4), last := 5255 } }; (s.chip.dspOn) && decide (2 < 8) && (s.chip.ensRuns 2) && decide ((s.chip.ens 2).dsp.sym = 0) && ((s.chip.ens 2).dsp.has ((s.chip.ens 2).dsp.symAt 1) 2552) && decide (s.chip.reg (dabA 2 1) = 2 + k)) &&
  -- DabAcquisition, clause 4
  (let s := ensWith 2 fun x => { x with dsp := { x.dsp with line := List.replicate 2600 (3, 4), last := 5207, start := 1 } }; (s.chip.dspOn) && decide (2 < 8) && (s.chip.ensRuns 2) && !((s.chip.ens 2).dsp.has ((s.chip.ens 2).dsp.symAt 1) 2552) && becomes (.dabPhaseReference 2) s s.chip)) = true := by decide +kernel

def judgeAt (st : Nat) (f : EnsSt → EnsSt) : State := ensWith st fun x => f { x with dsp := { x.dsp with due := true, nullOk := true } }

theorem test_dabFrameJudged : (
  -- DabAcquisition, clause 5.1
  (let s := judgeAt 4 fun x => { x with good := true, held := 3, noGood := 2 }; (s.chip.dspOn) && decide (2 < 8) && (s.chip.ensRuns 2) && decide (s.chip.staged = []) && (s.chip.ficDone 2) && ((s.chip.ens 2).good) && decide (3 ≤ s.chip.reg (dabA 2 1)) && (ends (.dabFrameJudged 2) s (fun c => (decide ((c.ens 2).held = 0)) && (decide ((c.ens 2).noGood = 0)) && (decide ((c.ens 2).good = false)) && (same [dabA 2 0x12, dabA 2 0x14] s.chip c)))) &&
  -- DabAcquisition, clause 5.2
  (let s := judgeAt 3 fun x => { x with noGood := 1 }; (s.chip.dspOn) && (s.chip.ensRuns 2) && decide (s.chip.staged = []) && (s.chip.ficDone 2) && decide ((s.chip.ens 2).good = false) && decide (s.chip.reg (dabA 2 1) = 3) && decide ((s.chip.ens 2).noGood + 1 < s.chip.reg (dabA 2 8)) && (ends (.dabFrameJudged 2) s (fun c => (decide ((c.ens 2).noGood = (s.chip.ens 2).noGood + 1)) && (same [] s.chip c)))) &&
  -- DabAcquisition, clause 5.3
  (let s := on (judgeAt 3 fun x => { x with noGood := 4 }) fun c => c.put (dabA 2 8) 5; (s.chip.dspOn) && (s.chip.ensRuns 2) && decide (s.chip.staged = []) && (s.chip.ficDone 2) && decide ((s.chip.ens 2).good = false) && decide (s.chip.reg (dabA 2 1) = 3) && decide (s.chip.reg (dabA 2 8) ≤ (s.chip.ens 2).noGood + 1) && (ends (.dabFrameJudged 2) s (fun c => (decide (c.reg (dabA 2 1) = 1)) && (same [dabA 2 1] s.chip c)))) &&
  -- DabAcquisition, clause 5.4
  (let s := judgeAt 4 fun x => { x with held := 1 }; (s.chip.dspOn) && (s.chip.ensRuns 2) && decide (s.chip.staged = []) && (s.chip.ficDone 2) && decide ((s.chip.ens 2).good = false) && decide (4 ≤ s.chip.reg (dabA 2 1)) && decide ((s.chip.ens 2).held + 1 < s.chip.reg (dabA 2 8)) && (ends (.dabFrameJudged 2) s (fun c => (decide (c.reg (dabA 2 1) = 5)) && (decide ((c.ens 2).held = (s.chip.ens 2).held + 1)) && (same [dabA 2 1, dabA 2 0x12, dabA 2 0x14] s.chip c)))) &&
  -- DabAcquisition, clause 5.5
  (let s := on (judgeAt 5 fun x => { x with held := 4 }) fun c => c.put (dabA 2 8) 5; (s.chip.dspOn) && (s.chip.ensRuns 2) && decide (s.chip.staged = []) && (s.chip.ficDone 2) && decide ((s.chip.ens 2).good = false) && decide (4 ≤ s.chip.reg (dabA 2 1)) && decide (s.chip.reg (dabA 2 8) ≤ (s.chip.ens 2).held + 1) && (ends (.dabFrameJudged 2) s (fun c => (decide (c.reg (dabA 2 1) = 1)) && ((c.isPending 35)) && (same [dabA 2 1, dabA 2 0x12, dabA 2 0x14] s.chip c)))) &&
  -- DabAcquisition, clause 5.6
  (let s := judgeAt 4 fun x => { x with good := true, dsp := { x.dsp with nullOk := false } }; (s.chip.dspOn) && (s.chip.ensRuns 2) && decide (s.chip.staged = []) && (s.chip.ficDone 2) && decide (4 ≤ s.chip.reg (dabA 2 1)) && decide (s.chip.reg (dabA 2 0x12) < 0xFFFFFFFF) && (ends (.dabFrameJudged 2) s (fun c => (decide (c.reg (dabA 2 0x12) = s.chip.reg (dabA 2 0x12) + 1))))) &&
  -- DabAcquisition, clause 6
  (let s := ensAt 4; (s.chip.dspOn) && (s.chip.ensRuns 2) && !(s.chip.ficDone 2) && becomes (.dabFrameJudged 2) s s.chip) &&
  -- DabAcquisition, clause 7
  (let s := on (judgeAt 4 id) fun c => c.stage (dabA 2 5) 40; (s.chip.dspOn) && (s.chip.ensRuns 2) && decide (s.chip.staged = [(dabA 2 5, (40#32))]) && (s.chip.ficDone 2) && decide (3 ≤ s.chip.reg (dabA 2 1)) && (ends (.dabFrameJudged 2) s (fun c => (decide (c.staged = [])) && (decide (c.reg (dabA 2 5) = (40#32).toNat &&& maskAt (dabA 2 5))))))) = true := by decide

def ficAt (st : Nat) (l : List Byte) : State := ensWith st fun x => { x with fic := [{ ref := 5, block := 0, bytes := l }] }

theorem test_dabFicDecoded : (
  -- DabDecoding, clause 1.1
  (let s := ficAt 4 (zeros 96); let l := groupsOf 32 3 (zeros 96); (s.chip.dspOn) && decide (2 < 8) && (s.chip.ensRuns 2) && decide (3 ≤ s.chip.reg (dabA 2 1)) && (l.all fun f => fibOk f == false) && (ends (.dabFicDecoded 2) s (fun c => (decide (c.reg (dabA 2 0x11) = s.chip.reg (dabA 2 0x11) + l.length)) && (decide ((c.ens 2).fic = [])) && (same [dabA 2 0x11] s.chip c)))) &&
  -- DabDecoding, clause 1.2
  ([3, 5].all fun st => let b := fibW []; let s := ficAt st b; let l := groupsOf 32 3 b; (s.chip.dspOn) && (s.chip.ensRuns 2) && decide (3 ≤ s.chip.reg (dabA 2 1)) && (l.all fun f => fibOk f && decide (figsOf f = [])) && decide (l ≠ []) && decide (s.chip.reg (dabA 2 0x10) + l.length ≤ 0xFFFFFFFF) && (ends (.dabFicDecoded 2) s (fun c => (decide (st = 3) → c.isPending 34) && (decide (c.reg (dabA 2 1) = 4)) && (((c.ens 2).good)) && (decide (c.reg (dabA 2 0x10) = s.chip.reg (dabA 2 0x10) + l.length)) && (same [dabA 2 1, dabA 2 0x10] s.chip c)))) &&
  -- DabDecoding, clause 1.3
  ([(0, true), (0x80, false)].all fun x => let b := fibW (figSub63 x.1); let s := ficAt 4 b; let l := groupsOf 32 3 b; (s.chip.dspOn) && (s.chip.ensRuns 2) && decide (3 ≤ s.chip.reg (dabA 2 1)) && decide (l = [b]) && (fibOk b) && decide (figsOf b = [.subchannel (!x.2) 63 864 80 130 80]) && (ends (.dabFicDecoded 2) s (fun c => (decide (Tbl.find (c.ens 2).next 63 = if x.2 then some { start := 864, size := 80, prot := 130, rate := 80 } else none)) && (decide ((c.ens 2).subs = (s.chip.ens 2).subs))))) &&
  -- DabDecoding, clause 2
  (let s := ensAt 4; (s.chip.dspOn) && (s.chip.ensRuns 2) && decide ((s.chip.ens 2).fic = []) && becomes (.dabFicDecoded 2) s s.chip)) = true := by decide +kernel

def sub48 : SubCh := { start := 0, size := 48, prot := 2, rate := 64 }

def cifAt (cif : Nat) (f : EnsSt → EnsSt) : State := ensWith 4 fun x => f { x with next := [(3, sub48)], dsp := { x.dsp with ready := [(cif, 5, [1, 2])] } }

theorem test_dabCifDecoded : (
  -- DabDecoding, clause 3.1
  (let s := cifAt 4999 id; (s.chip.dspOn) && decide (2 < 8) && (s.chip.ensRuns 2) && decide (4 ≤ s.chip.reg (dabA 2 1)) && decide (s.chip.mscOn (s.chip.reg (dabA 2 0)) = []) && (ends (.dabCifDecoded 2) s (fun c => (decide (c.reg (dabA 2 0x0D) = 4999)) && (decide ((c.ens 2).dsp.ready = [])) && (decide ((c.ens 2).subs = [(3, sub48)])) && (same [dabA 2 0x0D] s.chip c)))) &&
  ([(249, [(3, sub48)]), (248, [])].all fun z => let s := cifAt (250 + z.1) fun x => { x with announced := true, occurs := 249 }; (s.chip.ensRuns 2) && (ends (.dabCifDecoded 2) s (fun c => (decide ((c.ens 2).subs = z.2)) && (same [dabA 2 0x0D] s.chip c)))) &&
  -- DabDecoding, clause 3.2
  (let s := ensAt 4; (s.chip.ensRuns 2) && decide (s.chip.mscOn (s.chip.reg (dabA 2 0)) = []) && decide ((s.chip.ens 2).dsp.ready = []) && becomes (.dabCifDecoded 2) s s.chip)) = true := by decide

theorem test_dabReconfiguration : (
  -- DabDecoding, clause 4
  (let s := cifAt 499 fun x => { x with announced := true, occurs := 249 }; (s.chip.dspOn) && decide (2 < 8) && (s.chip.ensRuns 2) && decide (4 ≤ s.chip.reg (dabA 2 1)) && ((s.chip.ens 2).announced) && decide (499 % 250 = (s.chip.ens 2).occurs) && (ends (.dabReconfiguration 2) s (fun c => (decide ((c.ens 2).subs = (s.chip.ens 2).next)) && (decide ((c.ens 2).announced = false)) && (same [] s.chip c)))) &&
  (let s := cifAt 498 fun x => { x with announced := true, occurs := 249 }; (s.chip.ensRuns 2) && becomes (.dabReconfiguration 2) s s.chip) &&
  -- DabDecoding, clause 5
  (let s := cifAt 499 id; (s.chip.ensRuns 2) && decide ((s.chip.ens 2).announced = false) && becomes (.dabReconfiguration 2) s s.chip)) = true := by decide

theorem gfMul_zero (x : Nat) : gfMul 0 x = 0 := by
  simp [gfMul, List.range_succ]

theorem gfEval_zeros (n x : Nat) : gfEval (List.replicate n 0) x = 0 := by
  induction n with
  | zero => rfl
  | succ n h => simpa [gfEval, List.replicate_succ, gfMul_zero] using h

theorem superDecode_zeros : superDecode 1 (zeros 120) = (zeros 110, 0, 0) := by
  have w : ((List.range 1).map fun r => (List.range 120).map fun c => ((zeros 120).getD (r + c * 1) 0).toNat) = [List.replicate 120 0] := by decide +kernel
  have z : rsCorrect (List.replicate 120 0) = some (List.replicate 120 0, 0) := by
    have s : syndromes (List.replicate 120 0) = List.replicate 10 0 := by simp only [syndromes, gfEval_zeros]; rfl
    have q : (syndromes (List.replicate 120 0)).all (· == 0) = true := by rw [s]; rfl
    unfold rsCorrect
    exact if_pos q
  rw [superDecode, w]
  simp only [List.map_cons, List.map_nil, z]
  decide +kernel

theorem test_dabSuperframeDecoded : (
  -- DabDecoding, clause 6.1: a superframe of zeros, which is one by `superDecode_zeros`
  (let s := mscWith 6 8 fun m => { m with sf := superBytes (zeros 120) }; (s.chip.dspOn) && decide (2 < 8) && (s.chip.ensRuns 2) && decide (hLane (dHandle (s.chip.jobDesc 4)) = s.chip.reg (dabA 2 0)) && decide (s.chip.ensOf (s.chip.reg (dabA 2 0)) = some 2) && ((s.chip.msc 4).decoding) && ((s.chip.msc 4).sync) && (s.chip.dabPlus 4) && (s.chip.jobEmits 4) && decide ((s.chip.msc 4).sf.length = 5) && decide ((((s.chip.msc 4).sf.take 5).map (·.bytes)).flatten = zeros 120) && (fireOk (zeros 110)) && decide (s.chip.reg (dabA 2 0x13) ≤ 0xFFFFFFFF)) &&
  -- DabDecoding, clause 6.2: a subchannel of 0 kb/s
  ([2, 3].all fun n => let s := mscWith 6 0 fun m => { m with sf := superBytes (zeros 120), fails := n }; let y := superDecode 0 ((((s.chip.msc 4).sf.take 5).map (·.bytes)).flatten); (s.chip.ensRuns 2) && (s.chip.jobEmits 4) && !(fireOk y.1) && decide (y.2.1 = 0) && (ends (.dabSuperframeDecoded 4) s (fun c => (decide (c.reg (dabA 2 0x13) = s.chip.reg (dabA 2 0x13))) && (decide ((c.msc 4).sync = decide (n < 3))) && (decide ((c.msc 4).fails = (if n < 3 then n + 1 else 0)))))) &&
  -- DabDecoding, clause 7
  (let s := mscWith 6 8 id; (s.chip.ensRuns 2) && decide ((s.chip.msc 4).sf.length < 5) && becomes (.dabSuperframeDecoded 4) s s.chip)) = true := by decide +kernel

theorem test_dabTiiMeasurementEnd : (
  -- DabDecoding, clause 8
  (let s := on (ensWith 4 fun x => { x with dsp := { x.dsp with mean := 0, tiiDone := some [5, 6] } }) fun c => (c.put (dabA 2 0x0B) 1).put (dabA 2 0x21) 77; (s.chip.dspOn) && decide (2 < 8) && (s.chip.ensRuns 2) && decide (3 ≤ s.chip.reg (dabA 2 1)) && (ends (.dabTiiMeasurementEnd 2) s (fun c => (upTo 8 fun i => c.reg (dabA 2 (0x20 + i)) == 0) && (decide ((c.ens 2).dsp.tiiDone = none)) && (same [dabA 2 0x20, dabA 2 0x21, dabA 2 0x22, dabA 2 0x23, dabA 2 0x24, dabA 2 0x25, dabA 2 0x26, dabA 2 0x27] s.chip c)))) &&
  -- DabDecoding, clause 9
  (let s := ensAt 4; (s.chip.ensRuns 2) && decide ((s.chip.ens 2).dsp.tiiDone = none) && becomes (.dabTiiMeasurementEnd 2) s s.chip)) = true := by decide +kernel

theorem test_trellisBlockDone : (
  -- DabDecoding, clause 10.1
  (let b := trlB (.fic 2 5 3) 14; let s := on (ensAt 4) fun c => { c with trl := [b], trlUsed := 62487, trlPart := 1 }; (s.chip.dspOn) && decide (2 < 8) && (s.chip.ensRuns 2) && decide (nextBlock s.chip.trl = some b) && decide (s.chip.trlUsed + (b.steps - s.chip.trlPart) ≤ 62500) && decide (s.chip.reg 0x7A2 < 0xFFFFFFFF) && (ends .trellisBlockDone s (fun c => (decide (c.reg 0x7A2 = s.chip.reg 0x7A2 + 1)) && (decide (c.trlUsed = 62500)) && (decide (c.trl = [])) && (decide ((c.ens 2).fic = [{ ref := 5, block := 3, bytes := bitsBytes (descramble (viterbi b.soft)) }])) && (same [0x7A2] s.chip c)))) &&
  (let b := trlB (.msc 4 2 5 9) 14; let s := on (mscWith 6 8 id) fun c => { c with trl := [b] }; (s.chip.ensRuns 2) && decide (nextBlock s.chip.trl = some b) && ((s.chip.msc 4).decoding) && (ends .trellisBlockDone s (fun c => (decide ((c.msc 4).out.length = 1)) && (same [0x7A2] s.chip c)))) &&
  -- DabDecoding, clause 10.2
  (let b := trlB (.fic 2 5 3) 14; let s := on (ensAt 4) fun c => { c with trl := [b], trlUsed := 62487 }; (s.chip.ensRuns 2) && decide (nextBlock s.chip.trl = some b) && decide (62500 < s.chip.trlUsed + (b.steps - s.chip.trlPart)) && becomes .trellisBlockDone s s.chip) &&
  -- DabDecoding, clause 11
  (let s := ensAt 4; (s.chip.ensRuns 2) && decide (s.chip.trl = []) && becomes .trellisBlockDone s s.chip)) = true := by decide +kernel

theorem test_drmModeIdentified : (
  -- DrmReception, clause 1: its premises
  (let s := chAt 1; (s.chip.dspOn) && decide (2 < 16) && (s.chip.chRuns 2) && decide (s.chip.reg (drmA 2 1) = 1))) = true := by decide

theorem test_drmTimeReference : (
  -- DrmReception, clause 2: its premises
  (let s := chAt 2; (s.chip.dspOn) && decide (2 < 16) && (s.chip.chRuns 2) && decide (s.chip.reg (drmA 2 1) = 2))) = true := by decide

theorem test_drmFrameSearchTimeout : (
  -- DrmReception, clause 3
  (let s := chWith 2 fun x => { x with dsp := { x.dsp with from_ := 7, last := 57606 } }; (s.chip.dspOn) && decide (2 < 16) && (s.chip.chRuns 2) && decide (s.chip.reg (drmA 2 1) = 2) && decide ((s.chip.drm 2).dsp.from_ + 57600 ≤ (s.chip.drm 2).dsp.last + 1) && (ends (.drmFrameSearchTimeout 2) s (fun c => (decide (c.reg (drmA 2 1) = 1)) && (same [drmA 2 1] s.chip c)))) &&
  -- DrmReception, clause 4
  (let s := chWith 2 fun x => { x with dsp := { x.dsp with from_ := 7, last := 57605 } }; (s.chip.chRuns 2) && decide ((s.chip.drm 2).dsp.last + 1 < (s.chip.drm 2).dsp.from_ + 57600) && becomes (.drmFrameSearchTimeout 2) s s.chip)) = true := by decide

theorem test_drmFacBlock : (
  -- DrmReception, clause 5.1
  (let s := chWith 3 fun x => { x with facs := [(5, 0, 0, bytesBits (zeros 9))] }; (s.chip.dspOn) && decide (2 < 16) && (s.chip.chRuns 2) && decide (3 ≤ s.chip.reg (drmA 2 1)) && !(facOk (bytesBits (zeros 9))) && (ends (.drmFacBlock 2) s (fun c => (decide (c.reg (drmA 2 0x11) = s.chip.reg (drmA 2 0x11) + 1)) && (decide ((c.drm 2).facs = [])) && (same [drmA 2 0x11] s.chip c)))) &&
  -- DrmReception, clause 5.2: its premises
  (let s := chWith 3 fun x => { x with mode := 1, facs := [(5, 0, 0, facZ)] }; (s.chip.dspOn) && (s.chip.chRuns 2) && (facOk facZ) && decide (s.chip.reg (drmA 2 1) = 3) && decide (s.chip.reg (drmA 2 0x10) < 0xFFFFFFFF)) &&
  -- DrmReception, clause 6
  (let s := chAt 3; (s.chip.chRuns 2) && decide ((s.chip.drm 2).facs = []) && becomes (.drmFacBlock 2) s s.chip)) = true := by decide +kernel

/-- SDC data fields: the AFS index and zeros, and a multiplex entity of one stream of 3 and 4,095 bytes. -/
def sdcZ : List Bool := sdcW (natB 28 0)
def sdcM : List Bool := sdcW (natB 4 1 ++ natB 12 (3 * 32) ++ natB 4 9 ++ natB 12 3 ++ natB 12 4095)

theorem test_drmSdcBlock : (
  -- DrmReception, clause 7.1
  (let s := chWith 4 fun x => { x with sdcs := [(5, 0, 0, natB 44 0)] }; (s.chip.dspOn) && decide (2 < 16) && (s.chip.chRuns 2) && decide (4 ≤ s.chip.reg (drmA 2 1)) && decide (s.chip.bit (drmA 2 3) 11 = false) && !(sdcOk (natB 44 0)) && (ends (.drmSdcBlock 2) s (fun c => (decide (c.reg (drmA 2 0x13) = s.chip.reg (drmA 2 0x13) + 1)) && (decide ((c.drm 2).sdcs = [])) && (same [drmA 2 0x13] s.chip c)))) &&
  -- DrmReception, clause 7.2
  (let s := chWith 4 fun x => { x with mux := some (0, []), sdcs := [(5, 0, 0, sdcZ)] }; (s.chip.chRuns 2) && (sdcOk sdcZ) && decide (sdcParse sdcZ = []) && ((s.chip.drm 2).mux.isSome) && decide (s.chip.reg (drmA 2 0x12) < 0xFFFFFFFF) && (ends (.drmSdcBlock 2) s (fun c => (((c.drm 2).sdcOk)) && (decide (c.reg (drmA 2 0x12) = s.chip.reg (drmA 2 0x12) + 1)) && (sameButRecords [drmA 2 0x12] s.chip c)))) &&
  -- DrmReception, clause 7.3
  (let s := chWith 4 fun x => { x with sdcs := [(5, 0, 0, sdcM)] }; (s.chip.chRuns 2) && (sdcOk sdcM) && decide (sdcParse sdcM = [.multiplex 9 [{ a := 3, b := 4095 }]]) && (ends (.drmSdcBlock 2) s (fun c => (((c.drm 2).sdcOk)) && (decide ((c.drm 2).next = some (9, [{ a := 3, b := 4095 }]))) && (decide ((c.drm 2).mux = some (9 + 16 * s.chip.field (drmA 2 3) 7 2, [{ a := 3, b := 4095 }])))))) &&
  -- DrmReception, clause 8
  (let s := chAt 4; (s.chip.chRuns 2) && decide ((s.chip.drm 2).sdcs = []) && becomes (.drmSdcBlock 2) s s.chip)) = true := by decide +kernel

def chJudge (st : Nat) (f : DrmSt → DrmSt) : State := chWith st fun x => f { x with dsp := { x.dsp with due := true, trefOk := true } }

theorem test_drmFrameJudged : (
  -- DrmReception, clause 9.1
  (let s := chJudge 3 fun x => { x with good := true }; (s.chip.dspOn) && decide (2 < 16) && (s.chip.chRuns 2) && decide (s.chip.staged = []) && (s.chip.facDone 2) && decide (s.chip.reg (drmA 2 1) = 3) && (ends (.drmFrameJudged 2) s (fun c => (decide ((c.drm 2).good = false)) && (decide ((c.drm 2).dsp.due = false)) && (same [] s.chip c)))) &&
  -- DrmReception, clause 9.2
  ([0, 2].all fun h => let s := chJudge 5 fun x => { x with good := true, held := h, frames := 65535, dsp := { x.dsp with trefOk := h == 0 } }; (s.chip.chRuns 2) && decide (s.chip.staged = []) && (s.chip.facDone 2) && decide (4 ≤ s.chip.reg (drmA 2 1)) && ((s.chip.drm 2).good) && decide ((s.chip.drm 2).dsp.trefOk = true ∨ (s.chip.drm 2).held ≠ 0) && (ends (.drmFrameJudged 2) s (fun c => (decide ((c.drm 2).held = 0)) && (decide (c.reg (drmA 2 1) = s.chip.reg (drmA 2 1))) && (decide ((c.drm 2).frames = ((s.chip.drm 2).frames + 1) % 65536)) && (same [drmA 2 3, drmA 2 0x0B, drmA 2 0x14, drmA 2 0x15] s.chip c)))) &&
  -- DrmReception, clauses 9.3 and 9.4
  ([(false, 1), (true, 0)].all fun g => let s := chJudge 4 fun x => { x with good := g.1, held := g.2, dsp := { x.dsp with trefOk := false } }; (s.chip.chRuns 2) && (s.chip.facDone 2) && decide (4 ≤ s.chip.reg (drmA 2 1)) && decide ((s.chip.drm 2).held + 1 < s.chip.reg (drmA 2 8)) && decide (s.chip.reg (drmA 2 0x14) < 0xFFFFFFFF) && (ends (.drmFrameJudged 2) s (fun c => (decide (c.reg (drmA 2 1) = 5)) && (decide ((c.drm 2).held = (s.chip.drm 2).held + 1)) && (decide (c.reg (drmA 2 0x14) = s.chip.reg (drmA 2 0x14) + 1)) && (same [drmA 2 1, drmA 2 3, drmA 2 0x0B, drmA 2 0x14, drmA 2 0x15] s.chip c)))) &&
  (let s := on (chJudge 4 fun x => { x with held := 4 }) fun c => c.put (drmA 2 8) 5; (s.chip.chRuns 2) && decide (s.chip.staged = []) && (s.chip.facDone 2) && decide (4 ≤ s.chip.reg (drmA 2 1)) && decide ((s.chip.drm 2).good = false) && decide (s.chip.reg (drmA 2 8) ≤ (s.chip.drm 2).held + 1) && (ends (.drmFrameJudged 2) s (fun c => (decide (c.reg (drmA 2 1) = 1)) && ((c.isPending 37)) && (same [drmA 2 1, drmA 2 0x0B, drmA 2 0x14, drmA 2 0x15] s.chip c)))) &&
  -- DrmReception, clause 10
  (let s := chAt 4; (s.chip.chRuns 2) && !(s.chip.facDone 2) && becomes (.drmFrameJudged 2) s s.chip)) = true := by decide

theorem test_drmMscFrame : (
  -- DrmReception, clause 11
  (let s := on (job (chWith 4 fun x => { x with mscs := [(5, 7, 0, natB 16 0xAA55)] }) 4 (aJob (mkDesc 3 1 0 (9 * 131072) 0))) fun c => { c with mscs := [(4, { MscSt.reset with decoding := true, fill := 6 })] }; (s.chip.dspOn) && decide (2 < 16) && (s.chip.chRuns 2) && decide (4 ≤ s.chip.reg (drmA 2 1)) && decide (s.chip.chJob 2 = some 4) && ((s.chip.msc 4).decoding) && (s.chip.jobEmits 4) && (upTo 4 fun i => s.chip.drmUnit 2 i == none) && (ends (.drmMscFrame 2) s (fun c => (decide ((c.msc 4).first = false)) && (decide ((c.drm 2).mscs = [])) && (same [] s.chip c)))) &&
  -- DrmReception, clause 12
  (let s := chAt 4; (s.chip.chRuns 2) && decide ((s.chip.drm 2).mscs = []) && becomes (.drmMscFrame 2) s s.chip)) = true := by decide

theorem test_drmReconfiguration : (
  -- DrmReception, clause 13
  (let s := chWith 4 fun x => { x with next := some (0, []), announced := true, recDue := true }; (s.chip.dspOn) && decide (2 < 16) && (s.chip.chRuns 2) && decide (4 ≤ s.chip.reg (drmA 2 1)) && ((s.chip.drm 2).recDue) && (ends (.drmReconfiguration 2) s (fun c => (decide ((c.drm 2).mux = s.chip.nextMux 2)) && (decide ((c.drm 2).announced = false)) && (decide ((c.drm 2).recDue = false)) && (same [drmA 2 3, drmA 2 0x0B] s.chip c)))) &&
  -- DrmReception, clause 14
  (let s := chAt 4; (s.chip.chRuns 2) && decide ((s.chip.drm 2).recDue = false) && becomes (.drmReconfiguration 2) s s.chip)) = true := by decide

theorem test_rdsBlockReceived : (
  -- RdsBlocksAndGroups, clause 1.1: three stray bits, then blocks A and B
  (let l := rdsB 5 0x3000000; let m := l.take 3 ++ rdsB 90000 (rdsW 0xD318 0) ++ rdsB 900000 (rdsW 0x0408 1); let s := rdsAt id m; (s.chip.dspOn) && decide (9 < 160) && (s.chip.rdsRuns 9) && decide (s.chip.glimpses = []) && decide ((s.chip.rds 9).sync = false) && decide (rdsSearch m 0 = some 3) && (ends (.rdsBlockReceived 9) s (fun c => (((c.rds 9).sync)) && (decide ((c.rds 9).recent = [])) && (decide ((c.rds 9).group.map (·.2.bits) = [0xD318#16, 0x0408#16])) && (decide ((c.lane 9).dsp.rdsBits.bits = [])) && (same [] s.chip c)))) &&
  -- RdsBlocksAndGroups, clause 1.2
  (let m := rdsB 5 0 ++ rdsB 800000 0 ++ [(1600000, true)]; let s := rdsAt id m; (s.chip.rdsRuns 9) && decide (s.chip.glimpses = []) && decide ((s.chip.rds 9).sync = false) && decide (rdsSearch m 0 = none) && (ends (.rdsBlockReceived 9) s (fun c => (decide ((c.rds 9).sync = false)) && (decide ((c.lane 9).dsp.rdsBits.bits = m.drop 2)) && (same [] s.chip c)))) &&
  -- RdsBlocksAndGroups, clause 2: an uncorrectable block at C, with 44 bad ones before it, and a good one
  (let m := rdsB 27594 0; [44, 43].all fun n => let s := rdsAt (fun x => { x with sync := true, expect := 2, recent := List.replicate n false }) m; (s.chip.rdsRuns 9) && decide (s.chip.glimpses = []) && ((s.chip.rds 9).sync) && decide (rdsBreak (s.chip.rds 9).lastBit 0 ((m.take 26).map (·.1)) = none) && decide (s.chip.reg 0xC13 < 0xFFFFFFFF) && !(rdsDecode (s.chip.field 0xC10 0 3) (rdsWord m) [2, 4]).ok && (ends (.rdsBlockReceived 9) s (fun c => (decide (c.reg 0xC13 = s.chip.reg 0xC13 + 1)) && (decide ((c.rds 9).sync = decide (n + 1 < s.chip.reg 0xC11))) && (!(c.rds 9).sync || ((decide ((c.rds 9).expect = 3)) && (decide ((c.rds 9).recent.length = n + 1)))) && (decide ((c.lane 9).dsp.rdsBits.bits = [])) && (same [0xC13] s.chip c)))) &&
  (let m := rdsB 27594 (rdsW 0xBEEF 4 ^^^ 0x18); let s := rdsAt (fun x => { x with sync := true, expect := 2 }) m; (s.chip.rdsRuns 9) && decide (rdsDecode (s.chip.field 0xC10 0 3) (rdsWord m) [2, 4] = { bits := 0xBEEF, offset := some 4, corrected := 2, ok := true }) && (ends (.rdsBlockReceived 9) s (fun c => (decide (c.reg 0xC13 = s.chip.reg 0xC13)) && ((c.rds 9).sync) && (decide ((c.rds 9).recent = [true])) && (same [0xC13] s.chip c))))) = true := by decide +kernel

def badB : RdsBlock := { blk 0 with ok := false }

theorem test_rdsGroup : (
  -- RdsBlocksAndGroups, clause 3.1
  (let g := grp (blk 0xD318) badB (blk 0) (blk 0); let s := rdsAt (fun x => { x with sync := true, ready := [(5, g)] }) []; (s.chip.dspOn) && decide (9 < 160) && (s.chip.rdsRuns 9) && decide (g.b.state = 2) && (ends (.rdsGroup 9) s (fun c => (decide ((c.rds 9).ready = [])) && (same [] s.chip c)))) &&
  -- RdsBlocksAndGroups, clause 3.2
  (let g := grp (blk 0xD318) (blk 0x0408) (blk 0xE0CD) (blk 0x4142); let s := rdsAt (fun x => { x with sync := true, seen := [(keyPi, 0xD318)], ready := [(5, g)] }) []; (s.chip.rdsRuns 9) && decide (g.b.state ≠ 2) && decide (g.a.state = 0) && decide (Tbl.find (s.chip.rds 9).seen keyPi = some g.a.bits.toNat) && decide (s.chip.reg 0xC12 < 0xFFFFFFFF) && (ends (.rdsGroup 9) s (fun t => (decide (t.reg 0xC12 = s.chip.reg 0xC12 + 1)) && (decide ((t.rds 9).last = some (g.body, s.chip.tick))) && (decide ((t.rds 9).pi = some g.a.bits.toNat)) && ((regKeys t s.chip).all (fun r => (!(decide (r / 256 ∉ [1, 2, 6, 7, 0x0C])) || (decide (t.reg r = s.chip.reg r)))))))) &&
  -- RdsBlocksAndGroups, clause 4
  (let s := rdsAt id []; (s.chip.rdsRuns 9) && decide ((s.chip.rds 9).ready = []) && becomes (.rdsGroup 9) s s.chip)) = true := by decide

theorem test_galleryAgeing : (
  -- GalleryTimeAndAlarms, clause 1
  (let s := on (up 2 []) fun c => { ((c.setGalW 3 1 1).setGalW 3 7 9) with gal := { c.gal with seen := [(5, true)] } }; (s.chip.ctlOn) && (ends .galleryAgeing s (fun c => (decide (c.gal.seen = [])) && (same [] s.chip c))))) = true := by decide

theorem test_timeSourceTimeout : (
  -- GalleryTimeAndAlarms, clause 2.1
  (let s := tl 200000 (on (up 2 []) fun c => { c with times := [(9, tim)], timeUse := some 9 }); (s.chip.ctlOn) && decide (s.chip.timeUse = some 9) && decide (Tbl.find s.chip.times 9 = some tim) && decide (tim.accepted = some 64000) && decide (silence ≤ s.chip.time.now - 64000) && (ends .timeSourceTimeout s (fun c => ((c.timeStale)) && (decide (c.timeUse = some 9)) && (same [] s.chip c)))) &&
  -- GalleryTimeAndAlarms, clause 2.2
  (let s := tl 2000 (on (up 2 []) fun c => { c with times := [(9, tim)], timeUse := some 9 }); (s.chip.ctlOn) && decide (s.chip.timeUse = some 9) && decide (Tbl.find s.chip.times 9 = some tim) && decide (tim.accepted = some 64000) && decide (s.chip.time.now - 64000 < silence) && becomes .timeSourceTimeout s s.chip)) = true := by decide

theorem test_alarmInstanceStart : (
  -- GalleryTimeAndAlarms, clause 3
  (let s := tl 7 (on (up 2 []) fun c => { c with almPend := [almP true] }); (s.chip.ctlOn) && ((almP true).start) && decide (s.chip.almPend = [(almP true)]) && decide (s.chip.alarms = []) && (ends .alarmInstanceStart s (fun c => (decide (c.almPend = [])) && ((c.isPending 40)) && (decide (c.reg 0xC40 = (almP true).source % 2 ^ 32)) && (decide (c.field 0xC39 0 6 = 1)) && ((c.bit 0xC39 6)) && (decide (c.alertAt = s.chip.tick))))) &&
  -- GalleryTimeAndAlarms, clause 4
  (let s := on (up 2 []) fun c => { c with almPend := [almP false] }; (s.chip.ctlOn) && ((s.chip.almPend).all (fun p => decide (p.start = false))) && becomes .alarmInstanceStart s s.chip)) = true := by decide +kernel

theorem test_alarmInstanceEnd : (
  -- GalleryTimeAndAlarms, clause 5
  (let s := tl 7 (on (up 2 [(0xC43, 5), (0xC39, 1)]) fun c => { c with almPend := [almP false], alarms := [(3, alm)] }); let p := almP false; (s.chip.ctlOn) && decide (3 < 32) && decide (p.start = false) && decide (s.chip.almPend = [p]) && decide (s.chip.alarms = [(3, alm)]) && (alm.is p.kind p.source p.identity) && (ends .alarmInstanceEnd s (fun c => (decide (c.alarms = [])) && (decide (c.almPend = [])) && ((c.isPending 41)) && (decide (c.reg (0xC40 + 3) = 0)) && (decide (c.field 0xC39 0 6 = 0)))))) = true := by decide

theorem test_alarmSignalTimeout : (
  -- GalleryTimeAndAlarms, clause 6.1
  (let s := tl 70000 (on (up 2 [(0xC5F, 5), (0xC39, 1)]) fun c => { c with alarms := [(31, alm)] }); (s.chip.ctlOn) && decide (31 < 32) && decide (s.chip.alarms = [(31, alm)]) && decide (alm.kind = 2) && decide (alm.lastSig + s.chip.reg 0xC32 * 32000 ≤ s.chip.time.now) && (ends (.alarmSignalTimeout 31) s (fun c => (decide (c.alarms = [])) && ((c.isPending 41)) && (decide (c.reg (0xC40 + 31) = 0))))) &&
  -- GalleryTimeAndAlarms, clause 6.2
  (let s := on (up 2 []) fun c => { c with alarms := [(31, { alm with kind := 1 })] }; let a := { alm with kind := 1 }; (s.chip.ctlOn) && decide (31 < 32) && decide (s.chip.alarms = [(31, a)]) && decide (a.kind = 1) && becomes (.alarmSignalTimeout 31) s s.chip)) = true := by decide

theorem test_alarmLostHoldExpire : (
  -- GalleryTimeAndAlarms, clause 6.3
  (let s := tl 70000 (on (up 2 [(0xC5F, 5), (0xC34, 100)]) fun c => { c with alarms := [(31, alm)] }); (s.chip.ctlOn) && decide (31 < 32) && decide (s.chip.alarms = [(31, alm)]) && decide (alm.lostAt = some 0) && decide (s.chip.reg 0xC34 ≠ 0xFFFF) && decide (0 + s.chip.reg 0xC34 * 32000 ≤ s.chip.time.now) && (ends (.alarmLostHoldExpire 31) s (fun c => (decide (c.alarms = [])) && ((c.isPending 41)) && (decide (c.reg (0xC40 + 31) = 0))))) &&
  -- GalleryTimeAndAlarms, clause 6.4
  (let s := on (up 2 []) fun c => { c with alarms := [(31, { alm with lostAt := none })] }; let a := { alm with lostAt := none }; (s.chip.ctlOn) && decide (31 < 32) && decide (s.chip.alarms = [(31, a)]) && decide (a.lostAt = none) && becomes (.alarmLostHoldExpire 31) s s.chip)) = true := by decide

theorem test_alertRelease : (
  -- GalleryTimeAndAlarms, clause 7
  (let s := tl 9000 (up 2 [(0xC39, 0x40)]); (s.chip.ctlOn) && decide (s.chip.alarms = []) && decide (s.chip.alertAt + s.chip.reg 0xC35 ≤ s.chip.tick) && (ends .alertRelease s (fun c => (decide (c.bit 0xC39 6 = false)) && (same [0xC39] s.chip c)))) &&
  -- GalleryTimeAndAlarms, clause 8
  (let s := on (up 2 []) fun c => { c with alarms := [(31, alm)] }; (s.chip.ctlOn) && decide (s.chip.alarms ≠ []) && becomes .alertRelease s s.chip)) = true := by decide

theorem test_memberVisitEnd : (
  -- MembersAreObserved, clause 1.1
  (let s := tl 9000 (fol fun x => { x with bgs := [{ lane := 3, member := some 41, park := 0, since := some 2, mnr := (1501, 3) }] }); (s.chip.dspOn) && decide (5 < 8) && decide (s.chip.bgIdx 5 3 = some 0) && decide ((s.chip.follow 5).bgs[0]? = some { lane := 3, member := some 41, park := 0, since := some 2, mnr := (1501, 3) }) && decide (2 + s.chip.field (lnkA 5 5) 0 16 ≤ s.chip.tick) && decide (s.chip.member 5 41 = some mem0) && ends (.memberVisitEnd 5 3) s (fun c => ((c.member 5 41).any (fun m' => decide (m'.score = some ((500 : Int) - s.chip.reg 0xC61)))))) &&
  -- MembersAreObserved, clause 1.2
  (let s := tl 9000 (fol fun x => { x with bgs := [{ lane := 3, member := some 41, park := 0, since := some 2, mnr := (1501, 3) }], anchor := some 40 }); (s.chip.dspOn) && decide (5 < 8) && decide (s.chip.bgIdx 5 3 = some 0) && decide ((s.chip.follow 5).bgs[0]? = some { lane := 3, member := some 41, park := 0, since := some 2, mnr := (1501, 3) }) && decide (2 + s.chip.field (lnkA 5 5) 0 16 ≤ s.chip.tick) && decide (s.chip.member 5 41 = some mem0) && (mem0.verified) && decide (mem0.aligned = false) && decide ((s.chip.reg 0xC61 : Int) ≤ 1501 / 3) && (s.chip.fLinking 5) && (ends (.memberVisitEnd 5 3) s (fun c => (decide ((c.follow 5).bgs[0]? = some { lane := 3, member := some 41, park := 2, since := some s.chip.tick })) && (same [] s.chip c))))) = true := by decide

theorem test_memberParkEnd : (
  -- MembersAreObserved, clause 2
  (let s := tl 9000 (fol fun x => { x with members := [(40, mem0)], bgs := [{ lane := 3, member := some 41, park := 2, since := some 2 }] }); (s.chip.dspOn) && decide (5 < 8) && decide ((s.chip.follow 5).bgs = { lane := 3, member := some 41, park := 2, since := some 2 } :: []) && decide (2 ≠ 0) && decide (2 + 1049 * 2 ≤ s.chip.tick) && decide (s.chip.visitList 5 0 = []) && (ends (.memberParkEnd 5 3) s (fun c => (decide ((c.follow 5).bgs = { lane := 3, member := none, park := 0, since := none } :: [])) && (same [] s.chip c))))) = true := by decide

theorem test_verificationExpire : (
  -- MembersAreObserved, clause 3.1
  (let s := tl 4096 (fol id); (s.chip.dspOn) && decide (5 < 8) && decide (s.chip.member 5 41 = some mem0) && decide (mem0.evidence = some 0) && decide (0 + 4096 ≤ s.chip.tick) && (ends (.verificationExpire 5 41) s (fun c => (decide (c.member 5 41 = some { mem0 with evidence := none, verified := false })) && (sameButRecords [] s.chip c)))) &&
  -- MembersAreObserved, clause 3.2
  (let s := tl 4095 (fol id); (s.chip.dspOn) && decide (5 < 8) && decide (s.chip.member 5 41 = some mem0) && decide (mem0.evidence = some 0) && decide (s.chip.tick < 0 + 4096) && becomes (.verificationExpire 5 41) s s.chip)) = true := by decide

/-- Member 41 has an excerpt, and the anchor's history reaches up to connector time `n`. -/
def estAt (n : Nat) : State :=
  tl 9 (fol fun x => { x with anchor := some 40, exs := [{ key := 41, lane := 3, tx := 0, xs := List.replicate 8192 0 }], hist := [(n, 5), (0, 5)] })

-- MembersAreObserved, clause 4.1
theorem test_estimateComplete_searched : ((estAt 41746432).chip.dspOn && decide (5 < 8) && decide (41 < 16384) && decide ((estAt 41746432).chip.member 5 41 = some mem0) && decide (mem0.aligned = false) &&
    (estAt 41746432).chip.estimating 5 41 && (estAt 41746432).chip.searchable 5 0) = true := by decide
theorem test_estimateComplete_excerpt : ((estAt 41746432).chip.excerpt 5 41).map (·.1) = some 0 := by decide +kernel

-- MembersAreObserved, clause 4.2
theorem test_estimateComplete_early : ((estAt 41746431).chip.dspOn && decide ((estAt 41746431).chip.member 5 41 = some mem0) && (estAt 41746431).chip.estimating 5 41 &&
    decide ((estAt 41746431).chip.searchable 5 0 = false)) = true := by decide
theorem test_estimateComplete_early_excerpt : ((estAt 41746431).chip.excerpt 5 41).map (·.1) = some 0 := by decide +kernel

theorem test_estimateComplete : (
  -- MembersAreObserved, clause 5
  (let s := tl 9 (fol fun x => { x with anchor := some 40 }); (s.chip.dspOn) && decide (5 < 8) && decide (s.chip.excerpt 5 41 = none) && becomes (.estimateComplete 5 41) s s.chip)) = true := by decide

/-- A search over a short excerpt, by hand: the only sample of the history other than 0 is met at n = 4 with τ = 2, so the peak of 1 is at τ = 2. -/
theorem test_lagSearch : (let h : List (Nat × Int) := (List.range 12).map fun n => (4096 * n, if n = 4 then (3 : Int) else 0)
    let cs := lagSearch [0, 0, 0, 0, 3, 0] (histLine 10 0 h) 2
    decide (cs = [0, 0, 0, 0, 2 ^ 30]) && decide (argMaxInt cs = 4)) = true := by decide +kernel

/-- R157, R451, R453, R289 by hand: the line and channel of a programme, a slot's word, the frames of one tick at 48 and 32 kHz, a fade sample. -/
theorem test_audioPort : (decide (audPort 8 5 = some (1, 2)) && decide (audPort 0 1 = some (1, 0)) && decide (audPort 0 2 = none) && decide (slotWord (-1) = 0xFFFFFF00) &&
    decide ((nominalFrames 0 0 96000).length = 47) && decide ((nominalFrames 4 0 96000).take 2 = [0, 3072]) && decide (fadeSample 4 1 100 (-100) = 50)) = true := by decide +kernel

theorem test_reestimateDue : (
  -- MembersAreObserved, clause 6.1
  (let s := tl 900000 (fol fun x => { x with members := [(40, mem0), (41, { mem0 with aligned := true })] }); let m := { mem0 with aligned := true }; (s.chip.dspOn) && decide (5 < 8) && decide (s.chip.member 5 41 = some m) && (m.aligned) && decide (s.chip.onAirKey 5 41 = false) && decide (m.estAt + s.chip.reg 0xC67 ≤ s.chip.tick) && (ends (.reestimateDue 5 41) s (fun c => (decide (c.member 5 41 = some { m with wanted := true, estAt := s.chip.tick })) && (same [] s.chip c)))) &&
  -- MembersAreObserved, clause 6.2
  (let s := tl 9 (fol fun x => { x with members := [(40, mem0), (41, { mem0 with aligned := true })] }); let m := { mem0 with aligned := true }; (s.chip.dspOn) && decide (5 < 8) && decide (s.chip.member 5 41 = some m) && (m.aligned) && decide (s.chip.onAirKey 5 41 = false) && decide (s.chip.tick < m.estAt + s.chip.reg 0xC67) && becomes (.reestimateDue 5 41) s s.chip)) = true := by decide

theorem test_linkSlewEnd : (
  -- MembersAreObserved, clause 7
  (let s := on (fol fun x => { x with slew := some 0 }) fun c => c.put (lnkA 5 7) 1; (s.chip.dspOn) && decide (5 < 8) && decide ((s.chip.follow 5).slew = some (s.chip.fE 5)) && decide ((s.chip.follow 5).slewAt ≤ s.chip.time.now) && (ends (.linkSlewEnd 5) s (fun c => (decide ((c.follow 5).slew = none)) && (decide (c.bit (lnkA 5 7) 0 = false)) && (decide (c.fE 5 = s.chip.fE 5)) && (sameButRecords [lnkA 5 7] s.chip c)))) &&
  -- MembersAreObserved, clause 8
  (let s := fol id; (s.chip.dspOn) && decide (5 < 8) && decide ((s.chip.follow 5).slew = none) && becomes (.linkSlewEnd 5) s s.chip)) = true := by decide

theorem test_linkFadeStart : (
  -- ChangesOfCarrier, clause 1
  (let s := changing id; (s.chip.dspOn) && decide (5 < 8) && decide ((s.chip.follow 5).change = some (chg id)) && (s.chip.fadeDue 5 (chg id)) && decide (((s.chip.fadeLanes 5 (chg id)).any fun k => s.chip.fadeBusy k) = false) && (ends (.linkFadeStart 5) s (fun c => (decide (c.fState 5 = 5)) && (decide ((c.follow 5).change = some { (chg id) with fading := true, cs := if (chg id).cs = 0 then s.chip.time.now - s.chip.outLat 5 else (chg id).cs })) && (sameButRecords [lnkA 5 6, lnkA 5 7] s.chip c)))) &&
  -- ChangesOfCarrier, clause 2
  (let s := changing fun x => { x with hard := true }; let x := chg fun x => { x with hard := true }; (s.chip.dspOn) && decide (5 < 8) && decide ((s.chip.follow 5).change = some x) && decide (s.chip.fadeDue 5 x = false) && becomes (.linkFadeStart 5) s s.chip)) = true := by decide

theorem test_linkFadeEnd : (
  -- ChangesOfCarrier, clause 3
  (let s := tl 200 (changing fun x => { x with fading := true }); let x := chg fun x => { x with fading := true }; (s.chip.dspOn) && decide (5 < 8) && decide ((s.chip.follow 5).change = some x) && (s.chip.fadeOver 5 x) && decide (s.chip.reg 0xC69 < 0xFFFFFFFF) && (ends (.linkFadeEnd 5) s (fun c => (decide ((c.follow 5).current = some x.dst)) && (decide ((c.follow 5).change = none)) && (decide ((c.follow 5).changedAt = s.chip.tick)) && ((c.isPending 38)) && (decide (c.reg 0xC69 = s.chip.reg 0xC69 + 1)) && ((decide (c.fState 5 = 2)) || (decide (c.fState 5 = 3)))))) &&
  -- ChangesOfCarrier, clause 4
  (let s := changing fun x => { x with fading := true }; let x := chg fun x => { x with fading := true }; (s.chip.dspOn) && decide (5 < 8) && decide ((s.chip.follow 5).change = some x) && decide (s.chip.fadeOver 5 x = false) && becomes (.linkFadeEnd 5) s s.chip)) = true := by decide

/-- A hard switch back to the member on the on-air lane, whose slot runs. -/
def hardSw : State := on (follow (runs (changing fun x => { x with hard := true }) 3 7 0x01) 5 fun f => { f with slotCur := 4 }) fun c => c.modSlot true 4 fun x => { x with lane := some 3 }

theorem test_hardSwitchRampIn : (
  -- ChangesOfCarrier, clause 5
  (let s := hardSw; let x := chg fun x => { x with hard := true }; (s.chip.dspOn) && decide (5 < 8) && decide ((s.chip.follow 5).change = some x) && (s.chip.hardDue 5 x) && decide (s.chip.reg 0xC69 < 0xFFFFFFFF) && (ends (.hardSwitchRampIn 5) s (fun c => (decide ((c.follow 5).current = some x.dst)) && (decide ((c.follow 5).change = none)) && ((c.isPending 38)) && (decide (c.reg 0xC69 = s.chip.reg 0xC69 + 1)) && ((!(decide (isDigital x.dst = false)) || (decide ((c.follow 5).anchor = some x.dst))))))) &&
  -- ChangesOfCarrier, clause 6
  (let s := changing fun x => { x with hard := true }; let x := chg fun x => { x with hard := true }; (s.chip.dspOn) && decide (5 < 8) && decide ((s.chip.follow 5).change = some x) && decide (s.chip.hardDue 5 x = false) && becomes (.hardSwitchRampIn 5) s s.chip)) = true := by decide

theorem test_jobSubmit : (
  -- Jobs, clause 1.1
  (let s := winUp; let d := mkDesc 1 0 1 0x60120000 0; (s.chip.hostReady [2, 3]) && decide (d.length = 28) && decide ((s.chip.taken.admission d).reason = 0) && decide (s.chip.freeJob = some 0) && (ends (.jobSubmit d) s (fun c => ((c.job? 0).any (fun x => (decide (x.desc = d)) && (decide (x.state = 1)) && (decide (x.origin = 0)) && (decide (x.start = s.chip.startTick d)) && (decide (x.stop = (if dDuration d = 0 then none else some (s.chip.startTick d + dDuration d)))))) && ((List.range 12).all (fun i => i == 0 || decide (c.job? i = s.chip.job? i))) && (replied c ([0x00, 0x00] ++ le 2 0 ++ le 4 0 ++ le 4 (s.chip.startTick d % 2 ^ 32)))))) &&
  -- Jobs, clause 1.2
  (let s := up 2 []; let d := mkDesc 1 0 1 0x60120000 0; (s.chip.hostReady [2, 3]) && decide (d.length = 28) && decide ((s.chip.taken.admission d).reason ≠ 0) && (ends (.jobSubmit d) s (fun c => (decide (c.jobs = s.chip.jobs)) && ((c.isPending 24)) && (replied c ([b8 (s.chip.taken.admission d).reason, b8 (s.chip.taken.admission d).res] ++ le 2 0xFFFF ++ le 4 (s.chip.taken.admission d).short ++ le 4 (s.chip.taken.earliest d))) && (same ([0x70A, 0x70B, 0x70C, 0x711] ++ hostRegs) s.chip c)))) &&
  -- Jobs, clause 1.3
  (let s := up 2 []; (s.chip.hostReady [2, 3]) && decide ([1, 2].length ≠ 28) && answers (.jobSubmit [1, 2]) s [0x0A])) = true := by decide

theorem test_jobWithdraw : (
  -- Jobs, clause 1.4
  (let s := jobUp id; (s.chip.hostReady [2, 3]) && decide (s.chip.job? 4 = some (jobAt id)) && decide ((jobAt id).ending = none) && (ends (.jobWithdraw 4) s (fun c => (decide (c.job? 4 = some { (jobAt id) with ending := some (s.chip.tick + 1) })) && (replied c [0x00]) && (same hostRegs s.chip c)))) &&
  -- Jobs, clause 1.5
  (let s := up 2 []; (s.chip.hostReady [2, 3]) && decide (s.chip.job? 9 = none) && answers (.jobWithdraw 9) s [0x0A])) = true := by decide

theorem test_jobStatus : (
  -- Jobs, clause 1.6
  (let s := jobUp id; (s.chip.hostReady [2, 3]) && answers (.jobStatus 4) s (0x00 :: s.chip.taken.jobStatus 4))) = true := by decide

theorem test_jobTimedStart : (
  -- Jobs, clause 2.1
  (let s := jobT 8; (s.chip.ctlOn) && decide (s.chip.job? 4 = some (jobTJ 8)) && (dTimed (jobTJ 8).desc) && decide ((jobTJ 8).state = 1) && decide ((jobTJ 8).start ≤ s.chip.tick) && decide (dKind (jobTJ 8).desc ≠ 8) && (ends (.jobTimedStart 4) s (fun c => (decide (c.job? 4 = some { (jobTJ 8) with state := 2 })) && (same [] s.chip c)))) &&
  -- Jobs, clause 2.2
  (let s := jobT 9; (s.chip.ctlOn) && decide (s.chip.job? 4 = some (jobTJ 9)) && decide (s.chip.tick < (jobTJ 9).start) && becomes (.jobTimedStart 4) s s.chip)) = true := by decide

theorem test_jobDurationEnd : (
  -- Jobs, clause 2.3
  (let s := jobUp fun x => { x with stop := some 9 }; let x := jobAt fun x => { x with stop := some 9 }; (s.chip.ctlOn) && decide (s.chip.job? 4 = some x) && decide (x.stop = some 9) && decide (9 ≤ s.chip.tick) && (ends (.jobDurationEnd 4) s (fun c => (decide (c.job? 4 = none)) && ((c.sched.released))))) &&
  -- Jobs, clause 2.4
  (let s := jobUp id; (s.chip.ctlOn) && decide (s.chip.job? 4 = some (jobAt id)) && decide ((jobAt id).stop = none) && becomes (.jobDurationEnd 4) s s.chip)) = true := by decide

theorem test_jobWithdrawEffect : (
  -- Jobs, clause 2.5
  (let s := jobUp fun x => { x with ending := some 9 }; let x := jobAt fun x => { x with ending := some 9 }; (s.chip.ctlOn) && decide (s.chip.job? 4 = some x) && decide (x.ending = some 9) && decide (9 ≤ s.chip.tick) && decide (s.chip.bus.v1Wait = none) && (ends (.jobWithdrawEffect 4) s (fun c => (decide (c.job? 4 = none)) && ((c.sched.released)))))) = true := by decide

theorem test_jobRenewal : (
  -- Jobs, clause 2.6
  (let s := on winUp fun c => c.setJob 4 (jobAt fun x => { x with state := 4 }); let x := jobAt fun x => { x with state := 4 }; (s.chip.ctlOn) && decide (s.chip.job? 4 = some x) && decide ((s.chip.renewTest 4 x.desc).reason = 0) && (ends (.jobRenewal 4) s (fun c => ((c.job? 4).any (fun y => (decide (y.state = (if x.state = 4 then 2 else x.state))) && (decide (y.rate = s.chip.rateOf x.desc (s.chip.costNow x.desc))) && (decide (y.desc = x.desc))))))) &&
  -- Jobs, clause 2.7
  (let s := on (up 2 []) fun c => c.setJob 4 gJob; (s.chip.ctlOn) && decide (s.chip.job? 4 = some gJob) && decide ((s.chip.renewTest 4 gJob.desc).reason ≠ 0) && decide (s.chip.reg 0x70F < 0xFFFFFFFF) && (ends (.jobRenewal 4) s (fun c => (decide (c.reg 0x70F = s.chip.reg 0x70F + 1)) && ((c.isPending 24)) && ((!(decide (dClass gJob.desc = 0)) || ((!(decide (gJob.state = 2)) || ((c.job? 4).any (fun y => (decide (y.state = 4)) && (decide (y.reason = (s.chip.renewTest 4 gJob.desc).reason)))))))) && (same [0x70F] s.chip c))))) = true := by decide

theorem test_recordSend : (
  -- StreamAndAudioPorts, clause 1.1
  (let s := queued [(0x600, 1), (0x210, 2), (0x200, 2), (0x602, 500)] qr; (s.chip.strClk) && decide (s.chip.head = some qr) && decide (qr.job = none) && decide (qr.cls = 0) && decide ((s.chip.stream (streamKey qr.rec_.ty qr.rec_.handle)).shed = []) && decide (qr.rec_.size ≤ s.chip.reg 0x602) && decide (s.chip.reg 0x602 ≤ 32768) && decide (s.chip.reg 0x608 < 0xFFFFFFFF) && (ends .recordSend s (fun c => (decide (c.out.sent = qr.rec_.bytes)) && (decide (c.out.queue = s.chip.out.queue.filter (fun y => y.order != qr.order))) && (decide (c.reg 0x602 = s.chip.reg 0x602 - qr.rec_.size)) && (decide (c.reg 0x608 = s.chip.reg 0x608 + 1)) && (sameButRecords [] s.chip c)))) &&
  -- StreamAndAudioPorts, clause 1.2
  (let s := queued [(0x600, 1), (0x210, 2), (0x200, 2), (0x602, 5)] qr; (s.chip.strClk) && decide (s.chip.head = some qr) && decide (qr.cls = 0) && decide (s.chip.reg 0x602 < qr.rec_.size) && (ends .recordSend s (fun c => (decide (c.out.queue = s.chip.out.queue)) && (decide (c.out.sent = s.chip.out.sent)) && (same [0x605] s.chip c)))) &&
  -- StreamAndAudioPorts, clause 1.3.1
  (let s := up 2 []; decide (s.chip.strClk = false) && becomes .recordSend s s.chip)) = true := by decide

theorem test_strCrdEdge : (
  -- StreamAndAudioPorts, clause 1.3.2
  (let s := up 2 []; decide (s.chip.strClk = false) && becomes .strCrdEdge s s.chip) &&
  -- StreamAndAudioPorts, clause 1.5
  (let s := up 2 [(0x600, 1), (0x210, 2), (0x200, 2), (0x602, 32256)]; (s.chip.strClk) && decide (s.chip.reg 0x602 + 512 ≤ 32768) && becomes .strCrdEdge s (s.chip.put 0x602 (s.chip.reg 0x602 + 512))) &&
  -- StreamAndAudioPorts, clause 1.6
  (let s := up 2 [(0x600, 1), (0x210, 2), (0x200, 2), (0x602, 32257)]; (s.chip.strClk) && decide (32768 < s.chip.reg 0x602 + 512) && becomes .strCrdEdge s (s.chip.count 0x609))) = true := by decide

theorem test_probeRecordShed : (
  -- StreamAndAudioPorts, clause 1.4
  (let s := tl 9 (job (queued [(0x600, 1)] probeRec) 4 (jobAt id)); (s.chip.ctlOn) && decide (s.chip.out.queue = [probeRec]) && decide (probeRec.cls = 2) && decide (probeRec.job = some 4) && decide (s.chip.job? 4 = some (jobAt id)) && decide (probeRec.deadline = some 100) && decide (100 < s.chip.time.now) && decide ((jobAt id).shedRun = false) && decide ((jobAt id).shed < 0xFFFFFFFF) && decide (s.chip.reg 0x70E < 0xFFFFFFFF) && (ends .probeRecordShed s (fun c => (decide (c.out.queue = [])) && (decide (c.job? 4 = some { (jobAt id) with shedRun := true, shed := (jobAt id).shed + 1 })) && ((c.isPending 26)) && (decide (c.reg 0x70E = s.chip.reg 0x70E + 1)) && (decide ((c.stream (streamKey probeRec.rec_.ty probeRec.rec_.handle)).shed ≠ [])) && (sameButRecords [] s.chip c))))) = true := by decide

theorem test_audioFrameClockAccept : (
  -- StreamAndAudioPorts, clause 2.1
  (let s := up 2 [(0x640, 1), (0x231, 2)]; let e := (-32767 : Int); (s.chip.audTarget) && decide (e.natAbs ≤ 50000) && decide (e.natAbs ≤ 32767) && (ends (.audioFrameClockAccept e) s (fun c => (decide (c.reg 0x641 = 2)) && (decide (c.int 0x642 16 = e)) && (same [0x641, 0x642] s.chip c)))) &&
  -- StreamAndAudioPorts, clause 2.4.1
  (let s := up 2 []; decide (s.chip.audTarget = false) && becomes (.audioFrameClockAccept (5 : Int)) s s.chip)) = true := by decide

theorem test_audioFrameClockOutOfRange : (
  -- StreamAndAudioPorts, clause 2.2
  (let s := up 2 [(0x640, 1), (0x231, 2)]; let e := (-50001 : Int); (s.chip.audTarget) && decide (50000 < e.natAbs) && (ends (.audioFrameClockOutOfRange e) s (fun c => (decide (c.reg 0x641 = 3)) && (decide (c.int 0x642 16 = (if 0 < e then 32767 else -32768))) && (same [0x641, 0x642] s.chip c)))) &&
  -- StreamAndAudioPorts, clause 2.4.2
  (let s := up 2 []; let e := (50001 : Int); decide (s.chip.audTarget = false) && becomes (.audioFrameClockOutOfRange e) s s.chip)) = true := by decide

theorem test_audioFrameClockLoss : (
  -- StreamAndAudioPorts, clause 2.3
  (let s := up 2 [(0x640, 1), (0x231, 2), (0x641, 2)]; (s.chip.audTarget) && decide (s.chip.reg 0x641 ≠ 4) && decide (s.chip.reg 0x646 < 0xFFFFFFFF) && (ends .audioFrameClockLoss s (fun c => (decide (c.reg 0x641 = 4)) && (decide (c.reg 0x646 = s.chip.reg 0x646 + 1)) && (same [0x641, 0x646] s.chip c)))) &&
  -- StreamAndAudioPorts, clause 2.4.3
  (let s := up 2 []; decide (s.chip.audTarget = false) && becomes .audioFrameClockLoss s s.chip)) = true := by decide

theorem test_eventRecordEmit : (
  -- StreamAndAudioPorts, clause 2.5.1
  (let s := evUp [(0x600, 1)] 71; decide (71 < 72) && (s.chip.ctlOn) && decide (s.chip.reg 0x600 = 1) && decide (Tbl.find s.chip.ev.recs 71 = some evr) && (s.chip.recDue 71) && decide (s.chip.recEnabled 71 = false) && (ends (.eventRecordEmit 71) s (fun c => (decide (Tbl.find c.ev.recs 71 = none)) && (decide (c.out = s.chip.out)) && (same [] s.chip c)))) &&
  -- StreamAndAudioPorts, clause 2.5.2
  (let s := evUp [(0x600, 1), (0x106, 8)] 3; decide (3 < 72) && (s.chip.ctlOn) && decide (s.chip.reg 0x600 = 1) && decide (Tbl.find s.chip.ev.recs 3 = some evr) && (s.chip.recDue 3) && (s.chip.recEnabled 3) && decide (s.chip.recsNow < 48) && (decide (((List.range 3).any fun m => s.chip.recDue m && s.chip.recEnabled m) = false)) && (ends (.eventRecordEmit 3) s (fun c => (decide (Tbl.find c.ev.last 3 = some s.chip.tick)) && (sameButRecords [] s.chip c))))) = true := by decide

theorem test_swatchIntervalEnd : (
  -- SwatchIntervals, clause 1
  (let e := { swtE with stop := 288001 }; let s := swtWith e id 2; (s.chip.ctlOn) && decide (s.chip.job? 4 = some (swtJ 2)) && decide ((s.chip.swt 4).ended = e :: []) && decide (s.chip.reg 0xB01 < 0xFFFFFFFF) && decide (s.chip.reg 0xB02 < 0xFFFFFFFF) && !(s.chip.swtComplete (swtJ 2).desc e.stop) && becomes (.swatchIntervalEnd 4) s s.chip) &&
  -- SwatchIntervals, clause 2.1: with data, without any, and with a cause
  ([(swtE, 0), ({ swtE with data := [] }, 1), ({ swtE with causes := 8 }, 1)].all fun z => let s := swtWith z.1 id 2; (s.chip.ctlOn) && decide (s.chip.job? 4 = some (swtJ 2)) && decide ((s.chip.swt 4).ended = z.1 :: []) && (s.chip.swtComplete (swtJ 2).desc z.1.stop) && decide (mLog (swtJ 2).desc = false) && (ends (.swatchIntervalEnd 4) s (fun c => (decide ((c.swt 4).ended = [])) && (decide (c.reg 0xB01 = s.chip.reg 0xB01 + 1)) && (decide (c.reg 0xB02 = s.chip.reg 0xB02 + z.2)) && (sameButRecords [0xB01, 0xB02] s.chip c)))) &&
  -- SwatchIntervals, clause 2.2
  (let s := on (swt id 4) fun c => (c.put 0xB08 0xFFFFFFFF).put 0xB09 0xFFFFFFFF; (s.chip.ctlOn) && decide (s.chip.job? 4 = some (swtJ 4)) && decide ((s.chip.swt 4).ended = swtE :: []) && (s.chip.swtComplete (swtJ 4).desc swtE.stop) && (mLog (swtJ 4).desc) && decide (mRecords (swtJ 4).desc = false) && decide (s.chip.logFill < 32768) && (ends (.swatchIntervalEnd 4) s (fun c => (decide ((c.swt 4).ended = [])) && (decide (c.reg 0xB08 = (s.chip.reg 0xB08 + 1) % 2 ^ 32)) && (decide (c.logFill = s.chip.logFill + 1)) && (decide (c.reg 0xB0A = s.chip.logFill + 1)) && (decide ((Tbl.get 0 c.swtLog (4 * (s.chip.reg 0xB08 % 32768))).toNat = swtE.start % 2 ^ 32)) && (same [0xB01, 0xB02, 0xB08, 0xB0A, 0xB0E] s.chip c))))) = true := by decide +kernel

theorem test_nvmHeaderRead : (
  -- BootReads, clause 1
  (let s := bootAt 1 [] id; let b := head1 512 20; (s.chip.ctlOn) && decide (s.chip.boot.phase = 1) && (headerOk b) && decide (journalAt b ≠ none) && (ends (.nvmHeaderRead (some b)) s (fun c => (decide (c.boot.phase = 2)) && (decide (c.boot.dir = directory b)) && (decide (c.boot.jptr = journalAt b)) && (decide (c.field 0x403 0 3 = 1)) && (decide (c.reg 0x405 = leAt b 48 4)) && (decide (c.reg 0x40C = 1)) && (same [0x403, 0x405, 0x408, 0x40C] s.chip c)))) &&
  -- BootReads, clause 2
  (let s := bootAt 1 [] id; let b := head1 0xFFFFFFFF 20; (s.chip.ctlOn) && decide (s.chip.boot.phase = 1) && (headerOk b) && decide (journalAt b = none) && decide (((directory b).getD (s.chip.reg 0x402) (0, 0)).2 ≠ 0) && (ends (.nvmHeaderRead (some b)) s (fun c => (decide (c.boot.phase = 3)) && (decide (c.field 0x403 0 3 = 1)) && (decide (c.reg 0x405 = leAt b 48 4)) && (decide (c.boot.jptr = none)) && (same [0x403, 0x405, 0x408, 0x410, 0x418] s.chip c)))) &&
  -- BootReads, clause 3
  (let s := bootAt 1 [(0x402, 2)] id; let b := head1 0xFFFFFFFF 20; (s.chip.ctlOn) && decide (s.chip.boot.phase = 1) && (headerOk b) && decide (journalAt b = none) && decide (((directory b).getD (s.chip.reg 0x402) (0, 0)).2 = 0) && (ends (.nvmHeaderRead (some b)) s (fun c => (decide (c.boot.phase = 4)) && (decide (c.boot.prof = some (15, []))) && ((c.boot.fbk)) && ((c.isPending 1)) && ((c.bit 0x403 3)) && (decide (c.reg 0x404 = 0x0D))))) &&
  -- BootReads, clause 4
  (let s := bootAt 1 [] id; (s.chip.ctlOn) && decide (s.chip.boot.phase = 1) && decide (headerOk (zeros 64) = false) && decide (s.chip.boot.reread = false) && (ends (.nvmHeaderRead (some (zeros 64))) s (fun c => (decide (c.boot.phase = 1)) && ((c.boot.reread)) && (same [] s.chip c)))) &&
  -- BootReads, clause 5
  (let s := bootAt 1 [] fun b => { b with reread := true }; let b := [0x45, 0x41, 0x53, 0x4C] ++ zeros 60; (s.chip.ctlOn) && decide (s.chip.boot.phase = 1) && decide (headerOk b = false) && (s.chip.boot.reread) && (ends (.nvmHeaderRead (some b)) s (fun c => (decide (c.field 0x403 0 3 = (if magicOk b then 4 else 3))) && (decide (c.boot.phase = 4)) && (decide (c.boot.prof = some (15, []))) && ((!((magicOk b)) || ((c.boot.fbk))))))) &&
  -- BootReads, clause 6
  (let s := bootAt 1 [] id; (s.chip.ctlOn) && decide (s.chip.boot.phase = 1) && (ends (.nvmHeaderRead none) s (fun c => (decide (c.field 0x403 0 3 = 5)) && (decide (c.boot.phase = 4)) && (decide (c.boot.prof = some (15, []))) && ((c.boot.fbk)) && (decide (c.reg 0x404 = 0x0E)))))) = true := by decide

theorem test_journalRead : (
  -- BootReads, clause 7
  (let s := bootAt 2 [] fun b => { b with fmt := 1, dir := [(1024, 20)] }; (s.chip.ctlOn) && decide (s.chip.boot.phase = 2) && decide ((s.chip.entryOf (s.chip.reg 0x402)).2 ≠ 0)) &&
  -- BootReads, clause 8
  (let s := bootAt 2 [] fun b => { b with fmt := 1, dir := [(1024, 20)] }; (s.chip.ctlOn) && decide (s.chip.boot.phase = 2) && decide (newestSlot (zeros 128) (zeros 128) = none) && decide ((s.chip.entryOf (s.chip.reg 0x402)).2 ≠ 0) && (ends (.journalRead (some (zeros 128)) (some (zeros 128))) s (fun c => (decide (c.boot.phase = 3)) && (same [0x410, 0x418] s.chip c)))) &&
  -- BootReads, clause 9
  (let s := bootAt 2 [] id; (s.chip.ctlOn) && decide (s.chip.boot.phase = 2) && (ends (.journalRead none none) s (fun c => (decide (c.boot.phase = 4)) && (decide (c.boot.prof = some (15, []))) && ((c.boot.fbk)) && (decide (c.reg 0x404 = 0x0E)) && (same [0x404, 0x410, 0x418] s.chip c))))) = true := by decide +kernel

theorem test_profileReadChecked : (
  -- BootReads, clause 10
  (let s := bootAt 3 [(0x402, 2)] fun b => { b with fmt := 1, dir := [(0, 0), (0, 0), (1024, 20)] }; let b := profB 2 [] 0; let r := (none : NvmRead); (s.chip.ctlOn) && decide (s.chip.boot.phase = 3) && (profileOk s.chip.boot.fmt (s.chip.reg 0x402) (s.chip.entryOf (s.chip.reg 0x402)).2 b) && decide (s.chip.reg 0x411 < 0xFFFFFFFF) && (ends (.profileReadChecked (s.chip.reg 0x402) (some b) r) s (fun c => (decide (c.boot.phase = 4)) && (decide (c.boot.prof = some (s.chip.reg 0x402, b))) && (decide (c.reg 0x411 = s.chip.reg 0x411 + 1)) && (same [0x411] s.chip c)))) &&
  -- BootReads, clause 11
  (let s := bootAt 3 [(0x402, 2)] fun b => { b with fmt := 1, dir := [(0, 0), (0, 0), (1024, 20)] }; let a := profB 1 [] 0; (s.chip.ctlOn) && decide (s.chip.boot.phase = 3) && decide (profileOk s.chip.boot.fmt (s.chip.reg 0x402) (s.chip.entryOf (s.chip.reg 0x402)).2 a = false) && decide (profileOk s.chip.boot.fmt (s.chip.reg 0x402) (s.chip.entryOf (s.chip.reg 0x402)).2 (zeros 20) = false) && (ends (.profileReadChecked (s.chip.reg 0x402) (some a) (some (zeros 20))) s (fun c => (decide (c.boot.phase = 4)) && (decide (c.boot.prof = some (15, []))) && ((c.boot.fbk)) && ((c.bit 0x403 4)) && ((c.isPending 1)) && ((c.isPending 2)) && (decide (c.reg 0x404 = 0x0A)) && (same [0x403, 0x404, 0x411, 0x412, 0x418] s.chip c))))) = true := by decide +kernel

theorem test_profileApply : (
  -- ProfilesInForce, clause 1
  (let s := bootAt 4 [] fun b => { b with fmt := 1, prof := some (2, profB 2 [] 0) }; let b := profB 2 [] 0; (s.chip.ctlOn) && decide (s.chip.boot.phase = 4) && decide (s.chip.boot.prof = some (2, b)) && (after .profileApply s (fun t => (decide (t.pending = s.pending)) && (decide (t.chip.boot.phase = 5)) && (decide (t.chip.boot.appliedAt = t.chip.tick)) && (decide (t.chip.reg 0x401 = 2 &&& maskAt 0x401)) && ((!(decide (2 ≠ 15)) || (decide (t.chip.reg 0x406 = leAt b 8 4)))))))) = true := by decide +kernel

theorem test_jobSectionApply : (
  -- ProfilesInForce, clause 2
  (let s := bootAt 5 [(0x401, 2), (winA 0 1, 2), (winA 1 1, 2)] fun b => { b with prof := some (2, profB 2 [] 0) }; (s.chip.ctlOn) && decide (s.chip.boot.phase = 5) && (s.chip.jobsReady) && decide (s.chip.boot.jobs = []) && decide (s.chip.reg 0x401 ≠ 15) && (ends .jobSectionApply s (fun c => (decide (c.boot.phase = 6)) && (decide (c.boot.prof = none)) && (decide (c.jobs = s.chip.jobs)) && (same [] s.chip c)))) &&
  -- ProfilesInForce, clause 3
  (let s := bootAt 5 [(0x401, 2), (winA 11 1, 1)] id; (s.chip.ctlOn) && decide (s.chip.boot.phase = 5) && decide (s.chip.jobsReady = false) && becomes .jobSectionApply s s.chip)) = true := by decide

theorem test_bootDone : (
  -- ProfilesInForce, clause 4
  (let s := bootAt 6 [(0x401, 2)] id; (s.chip.ctlOn) && decide (s.chip.boot.phase = 6) && decide (s.chip.bus.held = none) && decide (s.chip.reg 0x401 ≠ 15) && (ends .bootDone s (fun c => (decide (c.boot.phase = 7)) && ((c.boot.done)) && ((c.isPending 0)) && (same [] s.chip c))))) = true := by decide

theorem test_profile : (
  -- ProfilesInForce, clause 5.1
  (let s := up 2 []; let a := (none : NvmRead); let b := (none : NvmRead); (s.chip.ctlOn) && (s.chip.hostReady [1, 2, 3]) && decide (s.chip.needsSeal = false) && decide (s.chip.switchPending = false) && (ends (.profile 15 a b) s (fun c => (decide (c.boot.prof = some (15, []))) && (decide (c.boot.appliedAt = s.chip.tick + 1)) && ((c.bit 0x403 5)) && (replied c (0x00 :: le 4 (s.chip.tick + 1))) && (same (0x403 :: hostRegs) s.chip c)))) &&
  -- ProfilesInForce, clause 5.2
  (let s := up 2 []; let a := (none : NvmRead); let b := (none : NvmRead); (s.chip.ctlOn) && (s.chip.hostReady [1, 2, 3]) && decide (s.chip.needsSeal = false) && decide (s.chip.switchPending = false) && decide (4 ≤ 4) && decide (4 ≠ 15) && answers (.profile 4 a b) s [0x0A]) &&
  -- ProfilesInForce, clause 5.3
  (let s := boot (up 2 []) fun b => { b with fmt := 1, dir := [(1024, 20)] }; let a := (none : NvmRead); let b := (none : NvmRead); (s.chip.ctlOn) && (s.chip.hostReady [1, 2, 3]) && decide (s.chip.needsSeal = false) && decide (s.chip.switchPending = false) && decide (3 < 4) && decide (s.chip.boot.jwrite = none) && ((decide (s.chip.boot.fmt = 0)) || (decide ((s.chip.entryOf 3).2 = 0))) && answers (.profile 3 a b) s [0x0D]) &&
  -- ProfilesInForce, clause 5.4
  (let s := boot (up 2 []) fun b => { b with fmt := 1, dir := [(0, 0), (0, 0), (1024, 20)] }; let a := profB 2 [] 0; let r := (none : NvmRead); (s.chip.ctlOn) && (s.chip.hostReady [1, 2, 3]) && decide (s.chip.needsSeal = false) && decide (s.chip.switchPending = false) && decide (2 < 4) && decide (s.chip.boot.jwrite = none) && decide (s.chip.boot.fmt ≠ 0) && (profileOk s.chip.boot.fmt 2 (s.chip.entryOf 2).2 a) && decide ((s.chip.entryOf 2).2 ≠ 0) && (ends (.profile 2 (some a) r) s (fun c => (decide (c.boot.prof = some (2, a))) && ((c.bit 0x403 5)) && (replied c (0x00 :: le 4 (s.chip.tick + 1)))))) &&
  -- ProfilesInForce, clause 5.5
  (let s := boot (up 2 []) fun b => { b with jwrite := some ([], 0) }; let a := (none : NvmRead); let b := (none : NvmRead); (s.chip.ctlOn) && (s.chip.hostReady [1, 2, 3]) && decide (s.chip.needsSeal = false) && decide (s.chip.switchPending = false) && decide (2 < 4) && decide (s.chip.boot.jwrite ≠ none) && (ends (.profile 2 a b) s (fun c => (decide (c.boot.wait = some (2, a, b, none))) && (decide (c.bus.complete = false)) && (decide (c.reg 0x508 = 2)) && (same hostRegs s.chip c))))) = true := by decide +kernel

theorem test_profileSwitch : (
  -- ProfilesInForce, clause 6
  (let s := boot (tl 9 (up 2 [])) fun b => { b with fmt := 1, prof := some (2, profB 2 [] 0), appliedAt := 9 }; let b := profB 2 [] 0; (s.chip.ctlOn) && (s.chip.boot.done) && decide (s.chip.boot.prof = some (2, b)) && decide (s.chip.boot.appliedAt ≤ s.chip.tick) && decide (s.chip.boot.wait = none) && decide (s.chip.bus.v1Wait = none) && (after .profileSwitch s (fun t => (decide (t.pending = s.pending)) && (decide (t.chip.reg 0x401 = 2 &&& maskAt 0x401)) && (decide (t.chip.boot.prof = none)) && (decide (t.chip.bit 0x403 5 = false)) && (decide (t.chip.boot.fbk = false))))) &&
  -- ProfilesInForce, clause 7
  (let s := boot (tl 8 (up 2 [])) fun b => { b with fmt := 1, prof := some (2, profB 2 [] 0), appliedAt := 9 }; (s.chip.ctlOn) && decide (s.chip.tick < s.chip.boot.appliedAt) && decide (s.chip.boot.wait = none) && decide (s.chip.bus.v1Wait = none) && becomes .profileSwitch s s.chip)) = true := by decide +kernel

theorem test_scanVisitEnd : (
  -- FactoryScan, clause 1
  (let s := scanning 135 id; (s.chip.ctlOn) && (s.chip.boot.scan) && decide (72 ≤ 135) && decide (135 ≤ 135) && (s.chip.laneRuns 135) && decide ((s.chip.lane 135).phaseAt + 1024 ≤ s.chip.tick) && decide (Tbl.get 0 s.chip.boot.fmRound 135 = 0) && decide ((s.chip.lane 135).found = false) && (ends (.scanVisitEnd 135) s (fun c => (decide (Tbl.get 0 c.boot.fmRound 135 = 1)) && (decide (c.reg (laneA 135 1) = fNco 0 (fmKHz (135 - 72 + 64))))))) &&
  -- FactoryScan, clause 2
  (let s := tl 511 (scanning 135 id); (s.chip.ctlOn) && (s.chip.boot.scan) && decide (s.chip.tick < (s.chip.lane 135).phaseAt + 512) && becomes (.scanVisitEnd 135) s s.chip) &&
  -- FactoryScan, clause 3.1
  (let s := on (scanning 64 fun b => { b with dabOn := [(64, 7)] }) fun c => ((c.put (dabA 0 0) 64).put (dabA 0 1) 4).modEns 0 fun e => { e with eid := some 0x1234 }; (s.chip.ctlOn) && (s.chip.boot.scan) && decide (64 ≤ 64) && decide (64 ≤ 71) && (s.chip.laneRuns 64) && decide ((s.chip.lane 64).phaseAt + 512 ≤ s.chip.tick) && decide (Tbl.find s.chip.boot.dabOn 64 = some 7) && decide (s.chip.isKept 64 = false) && decide (s.chip.ensOf 64 = some 0) && decide (s.chip.ensState 0 = 4) && ((s.chip.ens 0).eid.isSome) && (ends (.scanVisitEnd 64) s (fun c => (decide (Tbl.find c.boot.kept 64 = some (blockKHz 7, s.chip.ifLevel 64))) && (decide (Tbl.find c.boot.dabOn 64 = none)) && (same [] s.chip c)))) &&
  -- FactoryScan, clause 3.2
  (let s := on (scanning 71 fun b => { b with dabOn := [(71, 7)], dabNext := 37 }) fun c => (c.put (dabA 0 0) 71).put (dabA 0 1) 1; (s.chip.ctlOn) && (s.chip.boot.scan) && decide (64 ≤ 71) && decide (71 ≤ 71) && (s.chip.laneRuns 71) && decide ((s.chip.lane 71).phaseAt + 512 ≤ s.chip.tick) && decide (Tbl.find s.chip.boot.dabOn 71 = some 7) && decide (s.chip.isKept 71 = false) && decide (s.chip.ensOf 71 = some 0) && decide (s.chip.ensState 0 ≠ 4) && decide (s.chip.boot.dabNext < 38) && (ends (.scanVisitEnd 71) s (fun c => (decide (c.boot.dabNext = s.chip.boot.dabNext + 1)) && (decide (c.reg (laneA 71 0) = 0xF0 + blockWin (blockKHz s.chip.boot.dabNext))) && (decide (c.reg (laneA 71 1) = fNco (blockWin (blockKHz s.chip.boot.dabNext)) (blockKHz s.chip.boot.dabNext))))))) = true := by decide

theorem test_scanEnd : (
  -- FactoryScan, clause 4
  (let s := scanning 72 fun b => { b with fmRound := scanLanes.map fun k => (k, 4) }; (s.chip.ctlOn) && (s.chip.boot.scan) && (s.chip.scanOver) && ends .scanEnd s (fun c => (decide (c.boot.scan = false)))) &&
  -- FactoryScan, clause 5
  (let s := scanning 72 id; (s.chip.ctlOn) && decide (s.chip.scanOver = false) && becomes .scanEnd s s.chip)) = true := by decide +kernel

theorem test_fRescanDue : (
  -- FactoryScan, clause 6
  (let s := tl 61440 (up 2 [(0x401, 15), (0x40F, 1)]); (s.chip.ctlOn) && (s.chip.boot.done) && decide (s.chip.reg 0x401 = 15) && decide (s.chip.boot.scan = false) && decide (s.chip.reg 0x40F ≠ 0) && decide (s.chip.boot.scanAt + s.chip.reg 0x40F * 61440 ≤ s.chip.tick) && decide (s.chip.asleep = false) && decide (s.chip.blocksAsleep = false) && (ends .fRescanDue s (fun c => ((c.boot.scan)) && (decide (c.boot.fmRound = [])) && (decide (c.boot.cands = [])))))) = true := by decide +kernel

theorem test_journalWriteDue : (
  -- JournalAndNvmBus, clause 1.1
  (let s := on (jr id) fun c => (c.put 0x300 1).put 0x301 2; (s.chip.ctlOn) && (s.chip.boot.done) && (s.chip.boot.jen) && decide (s.chip.reg 0x40A ≠ 0) && decide (s.chip.boot.jptr ≠ none) && decide (s.chip.boot.jwrite = none) && decide (s.chip.boot.jat + 3600 * 32768000 ≤ s.chip.time.now) && (s.chip.asleep) && becomes .journalWriteDue s (s.chip.put 0x40C 2)) &&
  -- JournalAndNvmBus, clause 1.2
  (let s := jr fun b => { b with jnew := some (0, 5) }; (s.chip.ctlOn) && (s.chip.boot.done) && (s.chip.boot.jen) && decide (s.chip.reg 0x40A ≠ 0) && decide (s.chip.boot.jptr ≠ none) && decide (s.chip.boot.jwrite = none) && decide (s.chip.boot.jat + 3600 * 32768000 ≤ s.chip.time.now) && decide (s.chip.asleep = false) && decide (slotContent s.chip.journalSlot ≠ s.chip.boot.jlast) && (ends .journalWriteDue s (fun c => (decide (c.reg 0x40C = 3)) && (same [0x40C] s.chip c)))) &&
  -- JournalAndNvmBus, clause 1.3
  (let s := jr fun b => { b with jnew := some (0, 5), jlast := slotContent (jr fun b => { b with jnew := some (0, 5) }).chip.journalSlot }; (s.chip.ctlOn) && (s.chip.boot.done) && (s.chip.boot.jen) && decide (s.chip.reg 0x40A ≠ 0) && decide (s.chip.boot.jptr ≠ none) && decide (s.chip.boot.jwrite = none) && decide (s.chip.boot.jat + 3600 * 32768000 ≤ s.chip.time.now) && decide (s.chip.asleep = false) && decide (slotContent s.chip.journalSlot = s.chip.boot.jlast) && decide (s.chip.boot.jask = false) && (ends .journalWriteDue s (fun c => (decide (c.boot.jwrite = none)) && (decide (c.reg 0x40C = 1)) && (same [0x40C] s.chip c)))) &&
  -- JournalAndNvmBus, clause 2
  (let s := tl 3686399 (jr id); (s.chip.ctlOn) && decide (s.chip.time.now < s.chip.boot.jat + 3600 * 32768000) && becomes .journalWriteDue s s.chip)) = true := by decide

theorem test_journalReadback : (
  -- JournalAndNvmBus, clause 3.1
  (let s := jr fun b => { b with jwrite := some (zeros 128, 1) }; (s.chip.ctlOn) && decide (s.chip.boot.jwrite = some ((zeros 128), 1)) && decide (s.chip.boot.wait = none) && decide (s.chip.reg 0x415 < 0xFFFFFFFF) && (ends (.journalReadback true) s (fun c => (decide (c.boot.jwrite = none)) && (decide (c.boot.jnew = some (1, leAt (zeros 128) 4 4))) && (decide (c.reg 0x415 = s.chip.reg 0x415 + 1)) && (decide (c.reg 0x40C = 1)) && (decide (c.reg 0x40D = s.chip.tick % 2 ^ 32)) && (same [0x407, 0x40C, 0x40D, 0x415] s.chip c)))) &&
  -- JournalAndNvmBus, clause 3.2
  (let s := jr fun b => { b with jwrite := some (zeros 128, 1) }; (s.chip.ctlOn) && decide (s.chip.boot.jwrite = some ((zeros 128), 1)) && decide (s.chip.boot.wait = none) && decide (s.chip.reg 0x416 < 0xFFFFFFFF) && (ends (.journalReadback false) s (fun c => (decide (c.boot.jwrite = none)) && ((c.boot.jask)) && (decide (c.boot.jnew = s.chip.boot.jnew)) && ((c.isPending 54)) && (decide (c.reg 0x416 = s.chip.reg 0x416 + 1)) && (same [0x40C, 0x416] s.chip c))))) = true := by decide +kernel

theorem test_nvmArbitrationLost : (
  -- JournalAndNvmBus, clause 4.1
  (let s := bootAt 3 [] fun b => { b with losses := 6 }; (s.chip.ctlOn) && decide (s.chip.boot.wait = none) && (s.chip.nvmActive) && decide (s.chip.boot.losses < 7) && decide (s.chip.reg 0x413 < 0xFFFFFFFF) && (ends .nvmArbitrationLost s (fun c => (decide (c.boot.losses = s.chip.boot.losses + 1)) && ((c.isPending 51)) && (decide (c.reg 0x413 = s.chip.reg 0x413 + 1)) && (same [0x413] s.chip c))))) = true := by decide

theorem test_nvmBusBusyTimeout : (
  -- JournalAndNvmBus, clause 4.2
  (let s := bootAt 3 [] id; (s.chip.ctlOn) && decide (s.chip.boot.wait = none) && (s.chip.nvmActive) && decide (s.chip.boot.phase = 3) && (ends .nvmBusBusyTimeout s (fun c => (decide (c.boot.phase = 4)) && (decide (c.boot.prof = some (15, []))) && ((c.boot.fbk)) && (decide (c.reg 0x404 = 0x0E)) && (same [0x404] s.chip c))))) = true := by decide

theorem test_nvmNoAckRetry : (
  -- JournalAndNvmBus, clause 4.3
  (let s := bootAt 1 [] id; (s.chip.ctlOn) && decide (s.chip.boot.wait = none) && (s.chip.nvmActive) && decide (s.chip.boot.phase = 1) && decide (10000 ≤ 10000) && (ends (.nvmNoAckRetry 10000) s (fun c => (decide (c.field 0x403 0 3 = 2)) && (decide (c.boot.phase = 4)) && (decide (c.boot.prof = some (15, [])))))) &&
  -- JournalAndNvmBus, clause 4.4
  (let s := bootAt 3 [] id; (s.chip.ctlOn) && decide (s.chip.boot.wait = none) && (s.chip.nvmActive) && decide (9999 < 10000) && becomes (.nvmNoAckRetry 9999) s s.chip)) = true := by decide

theorem test_nvmBusClear : (
  -- JournalAndNvmBus, clause 4.5
  (let s := bootAt 3 [] fun b => { b with clears := 2 }; (s.chip.ctlOn) && decide (s.chip.boot.wait = none) && (s.chip.nvmActive) && decide (s.chip.reg 0x414 < 0xFFFFFFFF) && (ends (.nvmBusClear 9 true) s (fun c => (decide (c.boot.clears = 0)) && ((c.isPending 50)) && (decide (c.reg 0x414 = s.chip.reg 0x414 + 1)) && (same [0x414] s.chip c)))) &&
  -- JournalAndNvmBus, clause 4.6
  (let s := bootAt 3 [] fun b => { b with clears := 2 }; (s.chip.ctlOn) && decide (s.chip.boot.wait = none) && (s.chip.nvmActive) && decide (s.chip.boot.phase = 3) && decide (2 ≤ s.chip.boot.clears) && (ends (.nvmBusClear 9 false) s (fun c => (decide (c.boot.phase = 4)) && (decide (c.reg 0x404 = 0x0E)) && ((c.boot.fbk)))))) = true := by decide

theorem test_replyRead : (
  -- BusReadsAndFaults, clause 1
  (let s := bus (up 2 []) fun b => { b with reply := [1, 2, 3] }; (s.chip.ctlOn) && decide (s.chip.asleep = false) && decide (s.chip.bus.atStop = false) && decide (s.chip.bus.stuck = false) && decide (s.chip.replyPending = false) && decide (0 < 4) && decide (4 < 2 + s.chip.bus.reply.length) && (ends (.replyRead 4) s (fun c => (decide (c.bus.out = s.chip.frame.take 4)) && (decide (c.ev.fresh = false)) && (decide (c.bus.reply = s.chip.bus.reply)) && (same [] s.chip c)))) &&
  -- BusReadsAndFaults, clause 2
  (let s := bus (up 2 []) fun b => { b with reply := [1, 2, 3] }; (s.chip.ctlOn) && decide (s.chip.asleep = false) && decide (s.chip.bus.atStop = false) && decide (s.chip.bus.stuck = false) && decide (s.chip.replyPending = false) && decide (s.chip.bus.staged = []) && decide (3 + s.chip.bus.reply.length ≤ 8) && (ends (.replyRead 8) s (fun c => (decide (c.bus.out = s.chip.frame ++ List.replicate (8 - (3 + s.chip.bus.reply.length)) 0xFF)) && (decide (c.reg 0x508 = 0)) && (same [0x508] s.chip c)))) &&
  -- BusReadsAndFaults, clause 3
  (let s := at2 [(0x504, 0)]; (s.chip.ctlOn) && decide (s.chip.asleep = false) && decide (s.chip.bus.atStop = false) && decide (s.chip.bus.stuck = false) && (s.chip.replyPending) && decide (s.chip.reg 0x504 = 0) && decide (3 ≤ 5) && decide (s.chip.reg 0x513 < 0xFFFFFFFF) && (ends (.replyRead 5) s (fun c => (decide (c.bus.out = s.chip.nrdFrame ++ List.replicate (5 - 3) 0xFF)) && (decide (c.reg 0x513 = s.chip.reg 0x513 + 1)) && (same [0x513] s.chip c)))) &&
  -- BusReadsAndFaults, clause 4
  (let s := at2 [(0x504, 25)]; (s.chip.ctlOn) && decide (s.chip.asleep = false) && decide (s.chip.bus.atStop = false) && decide (s.chip.bus.stuck = false) && (s.chip.replyPending) && decide (s.chip.reg 0x504 ≠ 0) && (ends (.replyRead 5) s (fun c => (decide (c.bus.stretch = some 5)) && (decide (c.bus.out = s.chip.bus.out)) && (same [] s.chip c)))) &&
  -- BusReadsAndFaults, clause 12.2
  (let s := bus (up 2 []) fun b => { b with stuck := true }; (s.chip.ctlOn) && decide (s.chip.asleep = false) && decide (s.chip.bus.atStop = false) && (s.chip.bus.stuck) && becomes (.replyRead 4) s s.chip)) = true := by decide +kernel

theorem test_nrdStretchTimeout : (
  -- BusReadsAndFaults, clause 5
  (let s := bus (at2 [(0x504, 25)]) fun b => { b with stretch := some 4 }; (s.chip.ctlOn) && decide (s.chip.asleep = false) && decide (s.chip.bus.atStop = false) && decide (s.chip.bus.stretch = some 4) && decide (3 ≤ 4) && decide (s.chip.reg 0x513 < 0xFFFFFFFF) && (ends .nrdStretchTimeout s (fun c => (decide (c.bus.stretch = none)) && (decide (c.bus.out.take 3 = s.chip.nrdFrame)) && (decide (c.reg 0x513 = s.chip.reg 0x513 + 1)) && (same [0x513] s.chip c)))) &&
  -- BusReadsAndFaults, clause 6
  (let s := up 2 []; (s.chip.ctlOn) && decide (s.chip.asleep = false) && decide (s.chip.bus.atStop = false) && decide (s.chip.bus.stretch = none) && becomes .nrdStretchTimeout s s.chip)) = true := by decide +kernel

theorem test_commandFrameDiscard : (
  -- BusReadsAndFaults, clause 7
  (let s := up 2 []; (s.chip.ctlOn) && decide (s.chip.asleep = false) && decide (s.chip.bus.atStop = false) && decide (s.chip.bus.stuck = false) && decide (s.chip.replyPending = false) && decide (s.chip.bus.stretch = none) && decide (s.chip.reg 0x511 < 0xFFFFFFFF) && (ends (.commandFrameDiscard 0) s (fun c => (replied c [0x0A]) && ((c.isPending 52)) && (decide (c.reg 0x511 = s.chip.reg 0x511 + 1)) && (same [0x508, 0x511] s.chip c)))) &&
  -- BusReadsAndFaults, clause 8
  (let s := up 2 []; (s.chip.ctlOn) && decide (s.chip.asleep = false) && decide (s.chip.bus.atStop = false) && decide (s.chip.bus.stuck = false) && decide (s.chip.replyPending = false) && decide (s.chip.bus.stretch = none) && (ends (.commandFrameDiscard 1) s (fun c => (replied c [0x0A]) && (same [0x508] s.chip c))))) = true := by decide

theorem test_commandWriteBusy : (
  -- BusReadsAndFaults, clause 9
  (let s := at2 []; (s.chip.ctlOn) && decide (s.chip.asleep = false) && decide (s.chip.bus.atStop = false) && decide (s.chip.bus.stuck = false) && (s.chip.replyPending) && becomes .commandWriteBusy s (s.chip.count 0x512)) &&
  -- BusReadsAndFaults, clause 12.3
  (let s := bus (up 2 []) fun b => { b with stuck := true }; (s.chip.ctlOn) && decide (s.chip.asleep = false) && decide (s.chip.bus.atStop = false) && (s.chip.bus.stuck) && becomes .commandWriteBusy s s.chip)) = true := by decide

theorem test_sclTimeout : (
  -- BusReadsAndFaults, clause 10
  (let s := up 2 []; (s.chip.ctlOn) && decide (s.chip.asleep = false) && decide (s.chip.bus.atStop = false) && decide (s.chip.reg 0x514 < 0xFFFFFFFF) && (ends (.sclTimeout true) s (fun c => ((c.isPending 48)) && (decide (c.reg 0x514 = s.chip.reg 0x514 + 1)) && (same [0x514] s.chip c))))) = true := by decide

theorem test_sdaStuck : (
  -- BusReadsAndFaults, clause 11
  (let s := up 2 []; (s.chip.ctlOn) && decide (s.chip.asleep = false) && decide (s.chip.bus.atStop = false) && decide (s.chip.bus.stuck = false) && decide (s.chip.reg 0x515 < 0xFFFFFFFF) && (ends .sdaStuck s (fun c => ((c.bus.stuck)) && ((c.isPending 49)) && (decide (c.reg 0x515 = s.chip.reg 0x515 + 1)) && (same [0x515] s.chip c)))) &&
  -- BusReadsAndFaults, clause 12.1
  (let s := bus (up 2 []) fun b => { b with stuck := true }; (s.chip.ctlOn) && decide (s.chip.asleep = false) && decide (s.chip.bus.atStop = false) && (s.chip.bus.stuck) && becomes .sdaStuck s s.chip)) = true := by decide

theorem test_sdaStuckEnd : (
  -- BusReadsAndFaults, clause 13
  (let s := bus (up 2 []) fun b => { b with stuck := true }; (s.chip.ctlOn) && decide (s.chip.asleep = false) && decide (s.chip.bus.atStop = false) && becomes .sdaStuckEnd s { s.chip with bus := { s.chip.bus with stuck := false } })) = true := by decide

theorem test_commandUnlistedCode : (
  -- BusReadsAndFaults, clause 14
  (let s := up 2 []; (s.chip.ctlOn) && decide (s.chip.asleep = false) && decide (s.chip.bus.atStop = false) && (unlisted (0x60) 48) && (s.chip.hostReady [1, 2, 3]) && answers (.commandUnlistedCode (0x60) 48) s [0x0A])) = true := by decide

theorem test_attentionRequest : (
  -- AttentionRequests, clause 1
  (let s := atn []; (s.chip.ctlOn) && (s.chip.atnMay) && (ends .attentionRequest s (fun c => ((c.bus.atnActive)) && (decide (c.bus.atnAt = some s.chip.tick)) && (decide (c.reg 0x508 = 4)) && (same [0x508] s.chip c)))) &&
  -- AttentionRequests, clause 2
  (let s := up 3 []; (s.chip.ctlOn) && ((decide (s.chip.reg 0x501 ≠ 3)) || (decide (s.chip.reg 0x503 = 0)) || (decide (s.chip.ev.fresh = false)) || (decide (s.chip.boot.done = false))) && becomes .attentionRequest s s.chip)) = true := by decide

theorem test_attentionRequestCompleted : (
  -- AttentionRequests, clause 3.1
  (let s := bus (atn []) fun b => { b with atnActive := true, ignored := 4 }; (s.chip.ctlOn) && (s.chip.bus.atnActive) && decide (s.chip.bus.atStop = false) && decide (s.chip.reg 0x516 < 0xFFFFFFFF) && (ends .attentionRequestCompleted s (fun c => (decide (c.bus.out = [s.chip.addrRead, b8 s.chip.status, crc8 [s.chip.addrRead, b8 s.chip.status]])) && (decide (c.ev.fresh = false)) && (decide (c.bus.ignored = 0)) && (decide (c.reg 0x516 = s.chip.reg 0x516 + 1)) && (decide (c.reg 0x508 = 0)) && (same [0x508, 0x516] s.chip c)))) &&
  -- AttentionRequests, clause 4.1
  (let s := atn []; (s.chip.ctlOn) && decide (s.chip.bus.atnActive = false) && becomes .attentionRequestCompleted s s.chip)) = true := by decide +kernel

theorem test_attentionWaitTimeout : (
  -- AttentionRequests, clause 3.2
  (let s := bus (atn []) fun b => { b with atnActive := true, ignored := 6 }; (s.chip.ctlOn) && (s.chip.bus.atnActive) && decide (s.chip.bus.ignored < 7) && decide (s.chip.reg 0x517 < 0xFFFFFFFF) && (ends .attentionWaitTimeout s (fun c => (decide (c.bus.ignored = s.chip.bus.ignored + 1)) && ((c.isPending 55)) && (decide (c.reg 0x517 = s.chip.reg 0x517 + 1)) && (decide (c.bus.atnActive = false)) && (same [0x508, 0x517] s.chip c)))) &&
  -- AttentionRequests, clause 3.3
  (let s := bus (atn []) fun b => { b with atnActive := true, ignored := 7 }; (s.chip.ctlOn) && (s.chip.bus.atnActive) && decide (s.chip.bus.ignored = 7) && (ends .attentionWaitTimeout s (fun c => (decide (c.reg 0x503 = 0)) && (decide (c.bus.ignored = 0)) && ((c.isPending 55))))) &&
  -- AttentionRequests, clause 4.2
  (let s := atn []; (s.chip.ctlOn) && decide (s.chip.bus.atnActive = false) && becomes .attentionWaitTimeout s s.chip)) = true := by decide

theorem test_attentionArbitrationLost : (
  -- AttentionRequests, clause 3.4
  (let s := bus (atn []) fun b => { b with atnActive := true, ignored := 7 }; (s.chip.ctlOn) && (s.chip.bus.atnActive) && (ends .attentionArbitrationLost s (fun c => (decide (c.bus.atnActive = false)) && (decide (c.bus.ignored = s.chip.bus.ignored)) && (same [0x508] s.chip c)))) &&
  -- AttentionRequests, clause 4.3
  (let s := atn []; (s.chip.ctlOn) && decide (s.chip.bus.atnActive = false) && becomes .attentionArbitrationLost s s.chip)) = true := by decide

theorem test_tableRead : (
  -- TablePorts, clause 1
  (let s := up 2 []; (s.chip.hostReady [2, 3]) && decide (0 < 2) && decide (2 ≤ 63) && decide (8190 + 2 ≤ tableSize 1) && answers (.tableRead 1 8190 2) s (0x00 :: (List.range 2).flatMap fun i => le 4 (s.chip.tableWord 1 (8190 + i)).toNat)) &&
  -- TablePorts, clause 2
  (let s := up 2 []; (s.chip.hostReady [2, 3]) && ((decide (3 = 0)) || (decide (63 < 3)) || (decide (tableSize 1 < 8190 + 3))) && answers (.tableRead 1 8190 3) s [0x0A])) = true := by decide

theorem test_tableWrite : (
  -- TablePorts, clause 3
  (let s := up 2 []; (s.chip.hostReady [2, 3]) && decide (8191 < 8192) && decide (s.chip.bankInUse (8191 / 128) = false)) &&
  -- TablePorts, clause 4
  (let s := runs (up 2 [(laneA 9 3, 0x0900)]) 9 0 1; (s.chip.hostReady [2, 3]) && (s.chip.bankInUse (0 / 128)) && answers (.tableWrite 1 0 [(5#32)]) s [0x0A]) &&
  -- TablePorts, clause 5
  (let s := up 2 []; (s.chip.hostReady [2, 3]) && decide (2 ∉ [1, 6]) && answers (.tableWrite 2 0 [5#32]) s [0x0A]) &&
  -- TablePorts, clause 6
  (let s := on (up 2 []) fun c => c.setRef 7 3 1; (s.chip.hostReady [2, 3]) && decide (32799 < 32800) && decide (s.chip.refStatus (32799 / 4100) = 1) && answers (.tableWrite 6 32799 [(5#32)]) s [0x0A]) &&
  -- TablePorts, clause 7
  (let s := up 2 []; (s.chip.hostReady [2, 3]) && decide (32799 < 32800) && decide (s.chip.refStatus (32799 / 4100) ≠ 1) && decide (4 ≤ 32799 % 4100) && (ends (.tableWrite 6 32799 [(5#32)]) s (fun c => (decide (Tbl.get 0 c.linkRef 32799 = (5#32))) && (replied c [0x00]) && (same hostRegs s.chip c)))) &&
  -- TablePorts, clause 8
  (let s := up 2 []; let ws := ([] : List Word); (s.chip.hostReady [2, 3]) && ((decide (ws = [])) || (decide (62 < ws.length))) && answers (.tableWrite 1 0 ws) s [0x0A])) = true := by decide

theorem test_v1Status : (
  -- LegacyCommands, clause 1
  (let s := up 1 []; (s.chip.hostReady [1]) && answers .v1Status s s.chip.taken.v1StatusCmd)) = true := by decide

theorem test_v1Rds : (
  -- LegacyCommands, clause 2
  (let s := up 1 []; (s.chip.hostReady [1]) && answers .v1Rds s s.chip.taken.v1RdsCmd) &&
  -- LegacyCommands, clause 3
  (let s := tl 9 (lane (up 1 [(0x509, 159)]) 159 fun l => { l with rds := { l.rds with last := some ([1, 2, 3, 4, 5, 6, 7, 8, 9, 10, 11, 12], 4) } }); let b := [1, 2, 3, 4, 5, 6, 7, 8, 9, 10, 11, 12]; (s.chip.hostReady [1]) && decide (s.chip.reg 0x509 < 160) && decide ((s.chip.rds (s.chip.reg 0x509)).last = some (b, 4)) && answers .v1Rds s (0x00 :: (b ++ le 4 (s.chip.tick - 4))))) = true := by decide

theorem test_v1Events : (
  -- LegacyCommands, clause 4
  (let s := raised (up 1 [(0x509, 5)]) [42]; (s.chip.hostReady [1]) && decide ((s.chip.taken.v1Bits.filter fun x => x.2.2) = [v1e]) && (ends .v1Events s (fun c => (replied c [0x00, b8 (2 ^ v1e.1)]) && (decide (c.isPending v1e.2.1 = false)) && (upTo 64 (fun n => (!(decide (n ≠ v1e.2.1)) || (decide (c.isPending n = s.chip.taken.isPending n))))) && (same hostRegs s.chip c)))) &&
  -- LegacyCommands, clause 5
  (let s := up 1 []; (s.chip.hostReady [1]) && decide ((s.chip.taken.v1Bits.filter fun x => x.2.2) = []) && answers .v1Events s [0x00, 0x00])) = true := by decide

theorem test_v1Tune : (
  -- LegacyCommands, clause 6
  (let s := up 1 [(0xF00, 4)]; (s.chip.hostReady [1]) && (s.chip.needsSeal) && answers (.v1Tune 98000 1) s [0x08]) &&
  -- LegacyCommands, clause 7.1
  (let s := up 1 [(0x509, 0xFF)]; (s.chip.hostReady [1]) && decide (s.chip.needsSeal = false) && decide (s.chip.reg 0x509 = 0xFF) && answers (.v1Tune 98000 1) s [0x0D]) &&
  -- LegacyCommands, clause 7.2
  (let s := up 1 [(0x509, 5)]; (s.chip.hostReady [1]) && decide (s.chip.needsSeal = false) && decide (s.chip.reg 0x509 ≠ 0xFF) && decide (2 < 3) && answers (.v1Tune 98000 3) s [0x0A]) &&
  -- LegacyCommands, clause 7.3
  (let s := up 1 [(0x509, 5)]; (s.chip.hostReady [1]) && decide (s.chip.needsSeal = false) && decide (s.chip.reg 0x509 ≠ 0xFF) && decide (s.chip.v1Window 98000 1 = none) && answers (.v1Tune 98000 1) s [0x03]) &&
  -- LegacyCommands, clause 7.4
  (let s := up 1 [(0x509, 5)]; (s.chip.hostReady [1]) && decide (s.chip.needsSeal = false) && decide (s.chip.reg 0x509 ≠ 0xFF) && decide (s.chip.v1Held = false) && (ends (.v1Tune 98000 2) s (fun c => (replied c (0x00 :: le 4 (s.chip.tick + 1))) && (decide (c.jobs = s.chip.jobs))))) &&
  -- LegacyCommands, clause 7.5
  (let s := job (bus v1Up fun b => { b with v1Job := some 4 }) 4 (jobAt id); (s.chip.hostReady [1]) && decide (s.chip.needsSeal = false) && decide (s.chip.reg 0x509 ≠ 0xFF) && (s.chip.v1Held) && decide (s.chip.bus.v1Job = some 4) && decide (s.chip.job? 4 = some (jobAt id)) && decide ((jobAt id).ending = none) && decide (s.chip.v1Window 100000 1 ≠ none) && (ends (.v1Tune 100000 1) s (fun c => (decide (c.bus.v1Wait = some { kHz := 100000, band := 1, sealedBy := none, gen := s.chip.reg (laneA (s.chip.reg 0x509) 6) })) && (decide (c.bus.complete = false)) && (decide (c.job? 4 = some { (jobAt id) with ending := some (s.chip.tick + 1) }))))) &&
  -- LegacyCommands, clause 7.6
  (let s := v1Up; (s.chip.hostReady [1]) && decide (s.chip.needsSeal = false) && decide (s.chip.reg 0x509 = 5) && decide (s.chip.v1Held = false) && decide (s.chip.v1Window 100000 1 = some 0) && decide (s.chip.jobs = []) && decide ((s.chip.taken.v1Start 100000 1).1.headD 1 = 0) && (ends (.v1Tune 100000 1) s (fun c => ((c.job? 0).any (fun x => (decide (dOption x.desc = 0x10)) && (decide (dHandle x.desc = 0x600A0000)))) && (decide (c.bus.v1kHz = 100000)) && (replied c (0x00 :: le 4 (s.chip.tick + 1))))))) = true := by decide

theorem test_sealOpen : (
  -- SealedSessions, clause 1
  (let s := up 1 []; (s.chip.hostReady [1]) && decide (keyFor s.keys 7 3 = none) && answers (.sealOpen 7 (zeros 8)) s [0x0A]) &&
  -- SealedSessions, clause 2
  (let s := withKey 7 (up 1 []); (s.chip.hostReady [1]) && decide (7 < 8) && decide (keyFor s.keys 7 3 = some key0) && decide ((zeros 8).length = 8) && decide (s.chip.reg 0xF19 < 0xFFFFFFFF) && (ends (.sealOpen 7 (zeros 8)) s (fun c => (decide (c.varn.nh = (zeros 8))) && (decide (c.reg 0xF05 = 7 + 8)) && (same ([0xF05, 0xF06, 0xF19] ++ hostRegs) s.chip c))))) = true := by decide

theorem test_sealClose : (
  -- SealedSessions, clause 3
  (let s := sealed [] 5; (s.chip.hostReady [1]) && (ends .sealClose s (fun c => (decide (c.sealActive = false)) && (replied c [0x00]) && (same (0xF05 :: hostRegs) s.chip c))))) = true := by decide

theorem test_sealStatus : (
  -- SealedSessions, clause 4
  (let s := up 1 []; (s.chip.hostReady [1]) && decide (s.chip.sealActive = false) && answers .sealStatus s ([0x00, 0xFF] ++ le 4 (s.chip.reg 0xF06) ++ [b8 (s.chip.field 0xF05 4 4)])) &&
  -- SealedSessions, clause 5
  (let s := sealed [] 5; (s.chip.hostReady [1]) && (s.chip.sealActive) && answers .sealStatus s ([0x00, b8 (s.chip.field 0xF05 0 3)] ++ le 4 (s.chip.reg 0xF06) ++ [b8 (s.chip.field 0xF05 4 4)]))) = true := by decide

theorem test_sealCmd : (
  -- SealedSessions, clause 6
  (let s := sealed [] 5; let a := (none : NvmRead); let b := (none : NvmRead); (s.chip.hostReady [1]) && ((decide (241 < (zeros 242).length)) || (decide ((zeros 8).length ≠ 8))) && answers (.sealCmd (6#32) (0x20) (zeros 242) (zeros 8) a b) s [0x0A]) &&
  -- SealedSessions, clause 7
  (let s := up 1 []; let p := ([] : List Byte); let a := (none : NvmRead); let b := (none : NvmRead); (s.chip.hostReady [1]) && decide (p.length ≤ 241) && decide ((zeros 8).length = 8) && decide (s.chip.sealActive = false) && answers (.sealCmd (6#32) (0x20) p (zeros 8) a b) s [0x08]) &&
  -- SealedSessions, clause 8.1
  (let s := sealed [] 5; let p := ([] : List Byte); (s.chip.hostReady [1]) && (s.chip.sealActive) && decide (Tbl.find s.keys (s.chip.field 0xF05 0 3) = some key0) && decide (s.chip.slotCtr (s.chip.field 0xF05 0 3) ≠ 0xFFFFFFFF) && decide (s.chip.reg 0xF19 < 0xFFFFFFFF) && decide (p.length ≤ 241) && decide ((zeros 8).length = 8) && decide ((zeros 8) ≠ s.chip.sealTag key0 0x43 (le 4 (6#32).toNat ++ [b8 (0x20), b8 p.length] ++ p)) && decide (s.chip.reg 0xF1A < 0xFFFFFFFF) && decide (s.chip.field 0xF05 4 4 + 1 < s.chip.reg 0xF04)) &&
  -- SealedSessions, clause 8.2
  (let s := sealed [(0xF04, 2)] 6; let p := ([] : List Byte); (s.chip.hostReady [1]) && (s.chip.sealActive) && decide (Tbl.find s.keys (s.chip.field 0xF05 0 3) = some key0) && decide (s.chip.slotCtr (s.chip.field 0xF05 0 3) ≠ 0xFFFFFFFF) && decide (s.chip.reg 0xF19 < 0xFFFFFFFF) && decide (p.length ≤ 241) && decide (tag8.length = 8) && decide (tag8 = s.chip.sealTag key0 0x43 (le 4 (6#32).toNat ++ [b8 (0x20), b8 p.length] ++ p)) && decide ((6#32).toNat ≤ s.chip.slotCtr (s.chip.field 0xF05 0 3)) && decide (s.chip.reg 0xF04 ≤ s.chip.field 0xF05 4 4 + 1)) &&
  -- SealedSessions, clause 8.3
  (let s := sealed [] 5; let a := (none : NvmRead); let b := (none : NvmRead); (s.chip.hostReady [1]) && (s.chip.sealActive) && decide (Tbl.find s.keys (s.chip.field 0xF05 0 3) = some key0) && decide (s.chip.slotCtr (s.chip.field 0xF05 0 3) ≠ 0xFFFFFFFF) && decide (s.chip.reg 0xF19 < 0xFFFFFFFF) && decide (tag8.length = 8) && decide (tag8 = s.chip.sealTag key0 0x43 (le 4 (6#32).toNat ++ [0x20, 0x00])) && decide (s.chip.slotCtr (s.chip.field 0xF05 0 3) < (6#32).toNat) && (ends (.sealCmd (6#32) 0x20 [] tag8 a b) s (fun c => (decide (c.slotCtr (s.chip.field 0xF05 0 3) = (6#32).toNat)) && (decide (c.reg 0xF06 = (6#32).toNat)) && (decide (c.field 0xF05 4 4 = 0)) && (replied c ([0x00] ++ le 4 (6#32).toNat ++ s.chip.taken.v1StatusCmd ++ s.chip.sealTag key0 0x52 (le 4 (6#32).toNat ++ s.chip.taken.v1StatusCmd))))))) = true := by decide +kernel

theorem test_varKeyLoad : (
  -- KeySlotCommands, clause 2
  (let s := up 2 []; let b := [1#8, 0, 7, 15] ++ zeros 36; (s.chip.hostReady [2, 3]) && decide (s.chip.reg 0xF19 < 0xFFFFFFFF) && decide (s.chip.reg 0xF1A < 0xFFFFFFFF) && (blobOk b) && decide (Tbl.find s.keys (leAt b 2 1) = none)) &&
  -- KeySlotCommands, clause 1
  (let s := up 2 []; (s.chip.hostReady [2, 3]) && decide (s.chip.reg 0xF19 < 0xFFFFFFFF) && decide (s.chip.reg 0xF1A < 0xFFFFFFFF) && decide (blobOk (zeros 40) = false) && answers (.varKeyLoad (zeros 40)) s [0x0A])) = true := by decide

theorem test_varKeyErase : (
  -- KeySlotCommands, clause 3
  (let s := withKey 7 (up 2 []); (s.chip.hostReady [2, 3]) && decide (s.chip.reg 0xF19 < 0xFFFFFFFF) && decide (s.chip.reg 0xF1A < 0xFFFFFFFF) && decide ((s.keys.filter fun e => ((0x7F) % 256).testBit e.1) = []) && (ends (.varKeyErase (0x7F)) s (fun c => (replied c [0x00]) && (same hostRegs s.chip c)))) &&
  -- KeySlotCommands, clause 3, an occupied slot
  (let s := { withKey 7 (up 2 [(0xF07, 65535)]) with keys := [(2, key0), (7, key0)] }; (s.chip.hostReady [2, 3]) && decide ((s.keys.filter fun e => ((0x180) % 256).testBit e.1) ≠ []) && (after (.varKeyErase 0x180) s (fun t => (decide (t.pending = s.pending)) && (decide (t.keys = [(2, key0)])) && (replied t.chip [0x00]) && (decide (t.chip.varn.ctxs = [])) && (decide (t.chip.sealActive = false)) && (decide (t.chip.reg 0xF07 = 0))))) &&
  -- KeySlotCommands, clause 4
  (let s := withKey 5 (up 2 [(0xF03, 0x20), (0xF0D, 0x55), (0xF15, 15)]); (s.chip.hostReady [2, 3]) && decide (s.chip.reg 0xF19 < 0xFFFFFFFF) && decide (s.chip.reg 0xF1A < 0xFFFFFFFF) && decide (s.keys = [(5, key0)]) && decide (s.chip.vers = []) && decide (s.chip.link.queue = []) && (after (.varKeyErase 0x20) s (fun t => (decide (t.pending = s.pending)) && (decide (t.keys = [])) && (decide (t.chip.bit 0xF03 5 = false)) && (decide (t.chip.reg 0xF0D = 0)) && (decide (t.chip.reg 0xF15 = 0)) && (decide (t.chip.varn.ctxs = [])) && (decide (t.chip.sealActive = false)) && (decide (t.chip.reg 0xF07 = (s.chip.reg 0xF07 + 1) % 65536)) && (replied t.chip [0x00]))))) = true := by decide

theorem test_varStart : (
  -- HostComputations, clause 1
  (let s := withKey 5 (up 2 []); (s.chip.hostReady [2, 3]) && decide (s.chip.reg 0xF19 < 0xFFFFFFFF) && decide (s.chip.reg 0xF1A < 0xFFFFFFFF) && decide (3 < 4) && decide (1 < 2) && ((keyFor s.keys 5 1).isSome) && (ends (.varStart 3 5 1) s (fun c => (decide (Tbl.find c.varn.ctxs 3 = some { gen := 1 == 1, slot := 5, count := 0, chain := zeros 16, part := [] })) && ((List.range 12).all (fun y => y == 3 || decide (Tbl.find c.varn.ctxs y = Tbl.find s.chip.varn.ctxs y))) && (replied c [0x00]) && (same hostRegs s.chip c)))) &&
  -- HostComputations, clause 2
  (let s := withKey 5 (up 2 []); (s.chip.hostReady [2, 3]) && decide (s.chip.reg 0xF19 < 0xFFFFFFFF) && decide (s.chip.reg 0xF1A < 0xFFFFFFFF) && ((decide (3 < 4)) || (decide (1 < 1)) || (decide (keyFor s.keys 5 1 = none))) && answers (.varStart 4 5 1) s [0x0A])) = true := by decide

theorem test_varUpdate : (
  -- HostComputations, clause 3.1
  (let s := up 2 []; (s.chip.hostReady [2, 3]) && decide (s.chip.reg 0xF19 < 0xFFFFFFFF) && decide (s.chip.reg 0xF1A < 0xFFFFFFFF) && decide (Tbl.find s.chip.varn.ctxs 3 = none) && answers (.varUpdate 3 [1#8]) s [0x0A]) &&
  -- HostComputations, clause 4.1
  (let s := ctxS false; let v := ctx0 false; (s.chip.hostReady [2, 3]) && decide (s.chip.reg 0xF19 < 0xFFFFFFFF) && decide (s.chip.reg 0xF1A < 0xFFFFFFFF) && decide (3 < 4) && decide (Tbl.find s.chip.varn.ctxs 3 = some v) && decide (keyFor s.keys v.slot (if v.gen then 1 else 0) = some key0) && decide ([7#8, 8] ≠ []) && decide ([7#8, 8].length ≤ 254) && (ends (.varUpdate 3 [7#8, 8]) s (fun c => (decide (Tbl.find c.varn.ctxs 3 = some (v.feed key0.bytes [7#8, 8]))) && (replied c [0x00]) && (same hostRegs s.chip c))))) = true := by decide

theorem test_varFinish : (
  -- HostComputations, clause 3.2
  (let s := up 2 []; let g := ([] : List Byte); (s.chip.hostReady [2, 3]) && decide (s.chip.reg 0xF19 < 0xFFFFFFFF) && decide (s.chip.reg 0xF1A < 0xFFFFFFFF) && decide (Tbl.find s.chip.varn.ctxs 3 = none) && answers (.varFinish 3 4 g) s [0x0A]) &&
  -- HostComputations, clause 4.2
  (let s := ctxS true; (s.chip.hostReady [2, 3]) && decide (s.chip.reg 0xF19 < 0xFFFFFFFF) && decide (s.chip.reg 0xF1A < 0xFFFFFFFF) && decide (3 < 4) && decide (Tbl.find s.chip.varn.ctxs 3 = some (ctx0 true)) && decide (keyFor s.keys (ctx0 true).slot (if (ctx0 true).gen then 1 else 0) = some key0) && decide (4 ≤ 16) && decide (16 ≤ 16) && ((ctx0 true).gen) && (ends (.varFinish 3 16 []) s (fun c => (replied c (0x00 :: ((ctx0 true).mac key0.bytes).take 16)) && (decide (Tbl.find c.varn.ctxs 3 = none)) && (decide (c.reg 0xF19 = s.chip.reg 0xF19 + 1)) && (same (0xF19 :: hostRegs) s.chip c)))) &&
  -- HostComputations, clause 4.3
  (let s := ctxS false; let v := ctx0 false; let g := [0x16#8, 0xF4, 0x61, 0x81]; (s.chip.hostReady [2, 3]) && decide (s.chip.reg 0xF19 < 0xFFFFFFFF) && decide (s.chip.reg 0xF1A < 0xFFFFFFFF) && decide (3 < 4) && decide (Tbl.find s.chip.varn.ctxs 3 = some v) && decide (keyFor s.keys v.slot (if v.gen then 1 else 0) = some key0) && decide (4 ≤ 4) && decide (4 ≤ 16) && decide (v.gen = false) && decide (g.length = 4) && decide (g = (v.mac key0.bytes).take 4) && (ends (.varFinish 3 4 g) s (fun c => (replied c [0x00]) && (decide (Tbl.find c.varn.ctxs 3 = none)) && (same (0xF19 :: hostRegs) s.chip c)))) &&
  -- HostComputations, clause 4.4
  (let s := ctxS false; let v := ctx0 false; (s.chip.hostReady [2, 3]) && decide (s.chip.reg 0xF19 < 0xFFFFFFFF) && decide (s.chip.reg 0xF1A < 0xFFFFFFFF) && decide (3 < 4) && decide (Tbl.find s.chip.varn.ctxs 3 = some v) && decide (keyFor s.keys v.slot (if v.gen then 1 else 0) = some key0) && decide (4 ≤ 4) && decide (4 ≤ 16) && decide (v.gen = false) && decide ((zeros 4).length = 4) && decide ((zeros 4) ≠ (v.mac key0.bytes).take 4) && (ends (.varFinish 3 4 (zeros 4)) s (fun c => (replied c [0x08]) && ((c.isPending 60)) && (decide (c.reg 0xF1A = s.chip.reg 0xF1A + 1)) && (decide (Tbl.find c.varn.ctxs 3 = none)) && (same ([0xF19, 0xF1A] ++ hostRegs) s.chip c)))) &&
  -- HostComputations, clause 4.5
  (let s := ctxS true; let g := ([] : List Byte); (s.chip.hostReady [2, 3]) && decide (s.chip.reg 0xF19 < 0xFFFFFFFF) && decide (s.chip.reg 0xF1A < 0xFFFFFFFF) && decide (3 < 4) && decide (Tbl.find s.chip.varn.ctxs 3 = some (ctx0 true)) && decide (keyFor s.keys (ctx0 true).slot (if (ctx0 true).gen then 1 else 0) = some key0) && ((decide (17 < 4)) || (decide (16 < 17))) && answers (.varFinish 3 17 g) s [0x0A])) = true := by decide +kernel

theorem test_varCtxSave : (
  -- HostComputations, clause 3.3
  (let s := up 2 []; (s.chip.hostReady [2, 3]) && decide (s.chip.reg 0xF19 < 0xFFFFFFFF) && decide (s.chip.reg 0xF1A < 0xFFFFFFFF) && decide (Tbl.find s.chip.varn.ctxs 3 = none) && answers (.varCtxSave 3 0) s [0x0A]) &&
  -- HostComputations, clause 4.6
  (let s := ctxS true; (s.chip.hostReady [2, 3]) && decide (s.chip.reg 0xF19 < 0xFFFFFFFF) && decide (s.chip.reg 0xF1A < 0xFFFFFFFF) && decide (3 < 4) && decide (Tbl.find s.chip.varn.ctxs 3 = some (ctx0 true)) && decide (keyFor s.keys (ctx0 true).slot (if (ctx0 true).gen then 1 else 0) = some key0) && ((ctx0 true).gen) && decide (s.chip.bit 0xF00 1 = false) && answers (.varCtxSave 3 0) s (0x00 :: (ctx0 true).image key0)) &&
  -- HostComputations, clause 4.7
  (let s := ctxS false; let v := ctx0 false; (s.chip.hostReady [2, 3]) && decide (s.chip.reg 0xF19 < 0xFFFFFFFF) && decide (s.chip.reg 0xF1A < 0xFFFFFFFF) && decide (3 < 4) && decide (Tbl.find s.chip.varn.ctxs 3 = some v) && decide (keyFor s.keys v.slot (if v.gen then 1 else 0) = some key0) && decide (v.gen = false) && answers (.varCtxSave 3 0) s [0x0A]) &&
  -- HostComputations, clause 4.8
  (let s := ctxS true; (s.chip.hostReady [2, 3]) && decide (s.chip.reg 0xF19 < 0xFFFFFFFF) && decide (s.chip.reg 0xF1A < 0xFFFFFFFF) && decide (3 < 4) && decide (Tbl.find s.chip.varn.ctxs 3 = some (ctx0 true)) && decide (keyFor s.keys (ctx0 true).slot (if (ctx0 true).gen then 1 else 0) = some key0) && (ends (.varCtxSave 3 1) s (fun c => (decide (c.reg 0xF19 = s.chip.reg 0xF19 + 1)) && (same (0xF19 :: hostRegs) s.chip c))))) = true := by decide

theorem test_varCtxLoad : (
  -- HostComputations, clause 5.1
  (let s := withKey 5 (up 2 []); let m := [1#8, 1, 5, 16] ++ le 4 0x55 ++ le 4 16 ++ [1, 2, 3, 4] ++ zeros 32; (s.chip.hostReady [2, 3]) && decide (s.chip.reg 0xF19 < 0xFFFFFFFF) && decide (s.chip.reg 0xF1A < 0xFFFFFFFF) && decide (0 < 4) && decide (m.length = 48) && decide (s.chip.bit 0xF00 1 = false) && decide (leAt m 0 1 = 1) && decide (leAt m 1 1 = 1) && decide (leAt m 2 1 ≤ 7) && decide (leAt m 3 1 ≤ 16) && decide (keyFor s.keys (leAt m 2 1) 1 = some key0) && decide (key0.ident.toNat = leAt m 4 4) && (ends (.varCtxLoad 0 m) s (fun c => (decide (Tbl.find c.varn.ctxs 0 = some { gen := true, slot := leAt m 2 1, count := leAt m 8 4, chain := (m.drop 16).take 16, part := (m.drop 32).take (leAt m 3 1) })) && (replied c [0x00]) && (same hostRegs s.chip c)))) &&
  -- HostComputations, clause 5.2
  (let s := withKey 5 (up 2 []); let m := [1#8, 1, 5, 16] ++ le 4 0x56 ++ le 4 16 ++ [1, 2, 3, 4] ++ zeros 32; (s.chip.hostReady [2, 3]) && decide (s.chip.reg 0xF19 < 0xFFFFFFFF) && decide (s.chip.reg 0xF1A < 0xFFFFFFFF) && decide (0 < 4) && decide (m.length = 48) && decide (s.chip.bit 0xF00 1 = false) && decide (leAt m 0 1 = 1) && decide (leAt m 1 1 = 1) && decide (leAt m 2 1 ≤ 7) && decide (leAt m 3 1 ≤ 16) && decide (keyFor s.keys (leAt m 2 1) 1 = some key0) && decide (key0.ident.toNat ≠ leAt m 4 4) && answers (.varCtxLoad 0 m) s [0x08]) &&
  -- HostComputations, clause 6
  (let s := up 2 []; (s.chip.hostReady [2, 3]) && decide (s.chip.reg 0xF19 < 0xFFFFFFFF) && decide (s.chip.reg 0xF1A < 0xFFFFFFFF) && decide ((zeros 47).length ≠ 48) && decide ((zeros 47).length ≠ 56) && answers (.varCtxLoad 0 (zeros 47)) s [0x0A])) = true := by decide

theorem test_varAttach : (
  -- VerifiedStreams, clause 1.1
  (let s := up 2 []; (s.chip.hostReady [2, 3]) && decide (s.chip.job? 6 = none) && answers (.varAttach 6 5 0 8 0) s [0x0A]) &&
  -- VerifiedStreams, clause 1.2.1
  (let s := verS 2 1; (s.chip.hostReady [2, 3]) && decide (s.chip.job? 6 = some (verJ 1)) && decide (dKind (verJ 1).desc = 2) && decide (Tbl.find s.chip.vers 6 = none) && decide (4 ≤ 16) && decide (16 ≤ 16) && ((keyFor s.keys 5 0).isSome) && decide (dClass (verJ 1).desc ≠ 0) && decide (s.chip.reg 0xF18 + declaredRate (verJ 1).desc ≤ 1500000) && (ends (.varAttach 6 5 0 16 0) s (fun c => (decide (Tbl.find c.vers 6 = some { slot := 5, prov := false, tlen := 16, stream := 0, ctr := 0, told := false, msgs := [], lastSeq := none })) && (replied c [0x00]) && ((List.range 12).all (fun i => i == 6 || decide (Tbl.find c.vers i = Tbl.find s.chip.vers i))) && (same (0xF18 :: hostRegs) s.chip c)))) &&
  -- VerifiedStreams, clause 1.2.2
  (let s := verS 2 0; (s.chip.hostReady [2, 3]) && decide (s.chip.job? 6 = some (verJ 0)) && decide (dKind (verJ 0).desc = 2) && decide (Tbl.find s.chip.vers 6 = none) && decide (4 ≤ 4) && decide (4 ≤ 16) && ((keyFor s.keys 5 0).isSome) && decide (dClass (verJ 0).desc = 0) && answers (.varAttach 6 5 0 4 0) s [0x02]) &&
  -- VerifiedStreams, clause 1.2.3
  (let s := on (verS 2 1) fun c => c.put 0xF18 1500000; (s.chip.hostReady [2, 3]) && decide (s.chip.job? 6 = some (verJ 1)) && decide (dKind (verJ 1).desc = 2) && decide (Tbl.find s.chip.vers 6 = none) && decide (4 ≤ 4) && decide (4 ≤ 16) && ((keyFor s.keys 5 0).isSome) && decide (dClass (verJ 1).desc ≠ 0) && decide (1500000 < s.chip.reg 0xF18 + declaredRate (verJ 1).desc) && answers (.varAttach 6 5 0 4 0) s [0x01]) &&
  -- VerifiedStreams, clause 1.2.4
  (let s := verS 2 1; (s.chip.hostReady [2, 3]) && decide (s.chip.job? 6 = some (verJ 1)) && decide (dKind (verJ 1).desc = 2) && decide (Tbl.find s.chip.vers 6 = none) && decide (4 ≤ 4) && decide (4 ≤ 16) && ((keyFor s.keys 5 0).isSome) && decide (s.chip.reg 0x501 = 2) && answers (.varAttach 6 5 1 4 0) s [0x07])) = true := by decide

theorem test_varDetach : (
  -- VerifiedStreams, clause 1.3
  (let s := up 2 []; (s.chip.hostReady [2, 3]) && decide (Tbl.find s.chip.vers 6 = none) && answers (.varDetach 6) s [0x0A]) &&
  -- VerifiedStreams, clause 1.4
  (let s := on (verS 2 1) fun c => { c with vers := [(6, ver0 [])] }; (s.chip.hostReady [2, 3]) && decide (Tbl.find s.chip.vers 6 = some (ver0 [])) && decide ((ver0 []).msgs = []) && ((s.chip.out.queue.all fun x => x.job != some 6 && !x.bad)) && (ends (.varDetach 6) s (fun c => (decide (Tbl.find c.vers 6 = none)) && (replied c [0x00]) && ((List.range 12).all (fun i => i == 6 || decide (Tbl.find c.vers i = Tbl.find s.chip.vers i))) && (sameButRecords (0xF18 :: hostRegs) s.chip c))))) = true := by decide

theorem test_verifiedMessageVerdict : (
  -- VerifiedStreams, clause 2.1
  (let s := judged tag4; let v := ver0 [msg0 tag4]; (s.chip.ctlOn) && decide (s.chip.reg 0xF19 < 0xFFFFFFFF) && decide (s.chip.reg 0xF1A < 0xFFFFFFFF) && decide (s.chip.reg 0xF1C < 0xFFFFFFFF) && decide (Tbl.find s.chip.vers 6 = some v) && (v.prov) && decide (v.msgs = [(msg0 tag4)]) && ((msg0 tag4).complete) && decide (8 ≤ (msg0 tag4).bytes.length) && decide (Tbl.find s.keys v.slot = some key0) && decide ((cmac key0.bytes ((msg0 tag4).bytes.take (8 + (msg0 tag4).len))).take v.tlen = (msg0 tag4).bytes.drop (8 + (msg0 tag4).len)) && decide (v.ctr < (msg0 tag4).counter) && (ends (.verifiedMessageVerdict 6) s (fun c => ((Tbl.find c.vers 6).any (fun w => (decide (w.ctr = (msg0 tag4).counter)) && (decide (w.msgs = [])))) && (decide (c.reg 0xF19 = s.chip.reg 0xF19 + 1)) && (sameButRecords [0xF19] s.chip c)))) &&
  -- VerifiedStreams, clause 2.2
  (let s := judged (zeros 4); let v := ver0 [msg0 (zeros 4)]; let m := msg0 (zeros 4); (s.chip.ctlOn) && decide (s.chip.reg 0xF19 < 0xFFFFFFFF) && decide (s.chip.reg 0xF1A < 0xFFFFFFFF) && decide (s.chip.reg 0xF1C < 0xFFFFFFFF) && decide (Tbl.find s.chip.vers 6 = some v) && (v.prov) && decide (v.msgs = [m]) && (m.complete) && decide (8 ≤ m.bytes.length) && decide (Tbl.find s.keys v.slot = some key0) && decide ((cmac key0.bytes (m.bytes.take (8 + m.len))).take v.tlen ≠ m.bytes.drop (8 + m.len)) && (ends (.verifiedMessageVerdict 6) s (fun c => ((Tbl.find c.vers 6).any (fun w => (decide (w.ctr = v.ctr)) && (decide (w.msgs = [])))) && ((c.isPending 60)) && (decide (c.reg 0xF1A = s.chip.reg 0xF1A + 1)) && (decide (c.reg 0xF1C = s.chip.reg 0xF1C + 1))))) &&
  -- VerifiedStreams, clause 3
  (let s := up 2 []; decide (Tbl.find s.chip.vers 6 = none) && becomes (.verifiedMessageVerdict 6) s s.chip)) = true := by decide +kernel

theorem test_varnishFaultAlarm : (
  -- VerifiedStreams, clause 4.1
  (let s := up 2 []; (s.chip.ctlOn) && decide (s.chip.asleep = false) && (s.chip.boot.done) && decide (s.chip.replyPending = false) && decide (s.chip.bus.stretch = none) && decide (s.chip.reg 0xF1B < 0xFFFFFFFF) && decide (s.chip.bit 0xF02 0 = false) && (ends (.varnishFaultAlarm 0 0) s (fun c => (replied c [0x08]) && (decide (c.reg 0xF1B = s.chip.reg 0xF1B + 1)) && (same (0xF1B :: hostRegs) s.chip c)))) &&
  -- VerifiedStreams, clause 4.2
  (let s := withKey 5 (up 2 [(0xF02, 1)]); (s.chip.ctlOn) && decide (s.chip.asleep = false) && (s.chip.boot.done) && decide (s.chip.replyPending = false) && decide (s.chip.bus.stretch = none) && decide (s.chip.reg 0xF1B < 0xFFFFFFFF) && (s.chip.bit 0xF02 0) && (after (.varnishFaultAlarm 3 0) s (fun t => (decide (t.keys = [])) && (decide (t.pending = s.pending)) && (decide (t.chip.varn.ctxs = [])))))) = true := by decide

theorem test_lnkSetState : (
  -- LinkStatesAndQueue, clause 1.1
  (let s := up 2 []; (s.chip.hostReady [2, 3]) && decide (2 < 3) && answers (.lnkSetState 3 true (0#32)) s [0x0A]) &&
  -- LinkStatesAndQueue, clause 1.2
  (let s := up 2 [(0xD00, 6)]; (s.chip.hostReady [2, 3]) && decide (0 ≤ 2) && decide (s.chip.reg 0xD00 = 6) && answers (.lnkSetState 0 true (0#32)) s [0x03]) &&
  -- LinkStatesAndQueue, clause 1.3
  (let s := up 2 [(0xD01, 0x10000)]; let w := (0xFFFFFF00#32); (s.chip.hostReady [2, 3]) && ((decide (2 = 1)) || (decide (2 = 2))) && decide (s.chip.reg 0xD00 = 0) && decide (s.chip.paLost = false) && (preambleOk s.chip.lnkCfg (s.chip.reg 0xD04)) && (((true)) || (decide (s.chip.bit 0xD01 16 = false))) && (s.chip.taken.standingOk) && (ends (.lnkSetState 2 true w) s (fun c => (decide (c.reg 0xD00 = 5)) && (decide (c.link.want = 2)) && (decide (c.reg 0x220 = 1)) && (decide (c.field 0xD14 0 8 = 1)) && (replied c [0x00, b8 2])))) &&
  -- LinkStatesAndQueue, clause 1.4
  (let s := up 2 [(0xD01, 0x10000)]; (s.chip.hostReady [2, 3]) && ((decide (1 = 1)) || (decide (1 = 2))) && decide (s.chip.reg 0xD00 = 0) && decide (s.chip.paLost = false) && (preambleOk s.chip.lnkCfg (s.chip.reg 0xD04)) && (s.chip.bit 0xD01 16) && (ends (.lnkSetState 1 false (0#32)) s (fun c => (decide (c.reg 0xD00 = 0)) && (decide (c.field 0xD14 0 8 = 0)) && (replied c [0x0A]) && (same (0xD14 :: hostRegs) s.chip c)))) &&
  -- LinkStatesAndQueue, clause 1.5
  (let s := lnk [(0xD00, 4)] fun l => { l with tx := some (tx0 true 1) }; (s.chip.hostReady [2, 3]) && decide (2 ≤ 2) && decide (s.chip.reg 0xD00 ≠ 0) && decide (s.chip.reg 0xD00 ≠ 6) && decide (s.chip.paLost = false) && (s.chip.inFrame) && (ends (.lnkSetState 2 false (0#32)) s (fun c => (decide (c.link.req = some 2)) && (decide (c.reg 0xD00 = s.chip.reg 0xD00)) && (replied c [0x00, b8 2]) && (same hostRegs s.chip c)))) &&
  -- LinkStatesAndQueue, clause 1.6
  (let s := lnk [(0xD00, 2)] fun l => { l with queue := [ent0] }; (s.chip.hostReady [2, 3]) && decide (s.chip.reg 0xD00 ≠ 0) && decide (s.chip.reg 0xD00 ≠ 6) && decide (s.chip.inFrame = false) && (ends (.lnkSetState 0 false (0#32)) s (fun c => (decide (c.reg 0xD00 = 0)) && (decide (c.link.queue = [])) && (replied c [0x00, 0x00]))))) = true := by decide

theorem test_lnkSend : (
  -- LinkStatesAndQueue, clause 1.7
  (let s := up 2 []; (s.chip.hostReady [2, 3]) && decide (10 ≤ send0.length) && decide (send0.length ≤ 255) && ((decide (s.chip.reg 0xD00 = 0)) || (decide (s.chip.reg 0xD00 = 6))) && answers (.lnkSend send0) s [0x03]) &&
  -- LinkStatesAndQueue, clause 1.8
  (let s := lnk [(0xD00, 2)] id; (s.chip.hostReady [2, 3]) && decide ((zeros 9).length < 10) && answers (.lnkSend (zeros 9)) s [0x0A]) &&
  -- LinkStatesAndQueue, clause 1.9
  (let s := lnk [(0xD00, 2)] fun l => { l with queue := List.replicate 15 ent0 }; (s.chip.hostReady [2, 3]) && decide (10 ≤ send0.length) && decide (send0.length ≤ 255) && ((decide (s.chip.reg 0xD00 = 1)) || (decide (s.chip.reg 0xD00 = 2))) && decide (s.chip.reg 0x220 = 2) && decide (leAt send0 0 1 = 0) && decide (leAt send0 2 2 = 0) && decide ((s.chip.link.queue.filter fun e => e.kind == 0).length < 16) && (s.chip.dutyOk (s.chip.airtime (send0.length - 6))) && decide (leAt send0 1 1 = 0xFF) && (ends (.lnkSend send0) s (fun c => (decide ((c.link.queue).dropLast = s.chip.link.queue) && (c.link.queue).getLast?.any (fun e => (decide (e.id = s.chip.link.nextId)) && (decide (e.kind = 0)) && (decide (e.dest = 0xFF)) && (decide (e.secured = false)) && (decide (e.pri = false)) && (decide (e.timed = none)) && (decide (e.payload = send0.drop 10)) && (decide (e.ver = s.chip.reg 0xD10)))) && (replied c ([0x00] ++ le 2 s.chip.link.nextId)) && (same hostRegs s.chip c)))) &&
  -- LinkStatesAndQueue, clause 1.10
  (let s := lnk [(0xD00, 1)] fun l => { l with queue := List.replicate 16 ent0 }; (s.chip.hostReady [2, 3]) && decide (10 ≤ send0.length) && decide (send0.length ≤ 255) && decide (s.chip.reg 0xD00 = 1) && decide (leAt send0 0 1 = 0) && decide (leAt send0 2 2 = 0) && decide (16 ≤ (s.chip.link.queue.filter fun e => e.kind == 0).length) && answers (.lnkSend send0) s [0x01])) = true := by decide

theorem test_lnkCancel : (
  -- LinkStatesAndQueue, clause 1.11
  (let s := lnk [(0xD00, 1)] fun l => { l with queue := [{ ent0 with id := 7 }, ent0, { ent0 with id := 9 }] }; (s.chip.hostReady [2, 3]) && (decide (s.chip.link.queue.find? (fun ent0 => ent0.kind == 0 && ent0.id == 8) = some ent0)) && (ends (.lnkCancel 8) s (fun c => (decide (c.link.queue = s.chip.link.queue.erase ent0)) && (replied c [0x00]) && (same hostRegs s.chip c)))) &&
  -- LinkStatesAndQueue, clause 1.12
  (let s := lnk [(0xD00, 1)] id; (s.chip.hostReady [2, 3]) && decide (s.chip.link.queue = []) && decide (s.chip.link.tx = none) && answers (.lnkCancel 8) s [0x0A])) = true := by decide

theorem test_lnkPeer : (
  -- LinkStatesAndQueue, clause 1.13
  (let s := lnk [] fun l => { l with peers := [(0x33, peer0)] }; (s.chip.hostReady [2, 3]) && decide (s.chip.peer (0x33) = some peer0) && answers (.lnkPeer (0x33)) s ([0x00, b8 peer0.ver, b8 peer0.aerial, 0x00] ++ le 4 peer0.ctr ++ le 2 (ofSigned 16 peer0.rssi))) &&
  -- LinkStatesAndQueue, clause 1.14
  (let s := lnk [] fun l => { l with peers := [(0x33, peer0)] }; (s.chip.hostReady [2, 3]) && decide (s.chip.peer (0x34) = none) && answers (.lnkPeer (0x34)) s (List.replicate 10 0))) = true := by decide

theorem test_lnkStateApply : (
  -- LinkStatesAndQueue, clause 2.1
  (let s := lnk [(0xD00, 1)] fun l => { l with req := some 2 }; (s.chip.ctlOn) && decide (s.chip.link.req = some 2) && decide (s.chip.inFrame = false) && decide (s.chip.reg 0xD00 = 1) && decide (2 = 2) && (ends .lnkStateApply s (fun c => (decide (c.reg 0xD00 = (if s.chip.reg 0x220 = 0 then 5 else 2))) && (decide (c.link.req = none))))) &&
  -- LinkStatesAndQueue, clause 2.2
  (let s := lnk [(0xD00, 1)] id; (s.chip.ctlOn) && ((decide (s.chip.link.req = none)) || ((s.chip.inFrame))) && becomes .lnkStateApply s s.chip)) = true := by decide

theorem test_lnkDutyMinute : (
  -- LinkStatesAndQueue, clause 3
  (let s := lnk [] fun l => { l with duty := [(2, 7 :: List.replicate 60 5)] }; (ends .lnkDutyMinute s (fun c => (upTo 6 (fun n => (!(decide (sumList (s.chip.account n) ≠ 0)) || ((!(decide (sumList ((s.chip.account n).take 60) ≠ 0)) || ((decide (c.account n = 0 :: (s.chip.account n).take 60)) && (decide (c.reg (0xD20 + n) = sumList ((s.chip.account n).take 60) % 2 ^ 32)))))))) && (same [0xD20, 0xD21, 0xD22, 0xD23, 0xD24, 0xD25] s.chip c))))) = true := by decide

theorem test_lnkLevelDetect : (
  -- LinkReception, clause 1
  (let s := lnk [(0xD00, 2)] id; let q := (-500 : Int); (s.chip.ctlOn) && decide (s.chip.reg 0xD00 = 2) && decide (s.chip.int 0xD07 16 ≤ q) && decide (q ≤ 32767) && decide (s.chip.link.rx = none) && (ends (.lnkLevelDetect q) s (fun c => (decide (c.link.rx = some { stage := 1, level := q, aerial := 0, afc := 0, rssi := q, syncAt := 0, overlap := false })) && (decide (c.int 0xD12 16 = q)) && (same [0xD12] s.chip c)))) &&
  -- LinkReception, clause 2
  (let s := lnk [(0xD00, 2)] id; let q := (-1300 : Int); (s.chip.ctlOn) && ((decide (s.chip.reg 0xD00 ≠ 2)) || (decide (q < s.chip.int 0xD07 16))) && becomes (.lnkLevelDetect q) s s.chip)) = true := by decide

theorem test_lnkPreambleQualified : (
  -- LinkReception, clause 3.1
  (let s := lnk [(0xD00, 2)] fun l => { l with rx := some (rx0 1) }; let afc := (-32768 : Int); let lev := (-650 : Int); (s.chip.ctlOn) && decide (s.chip.link.rx = some (rx0 1)) && decide ((rx0 1).stage = 1) && decide (s.chip.reg 0xD08 ≤ 255) && decide (-32768 ≤ afc) && decide (afc ≤ 32767) && (ends (.lnkPreambleQualified 255 afc lev 1) s (fun c => (decide (c.link.rx = some { (rx0 1) with stage := 2, level := lev, aerial := s.chip.rxAerial 1, afc := afc })) && (decide (c.int 0xD13 16 = afc)) && (same [0xD13] s.chip c)))) &&
  -- LinkReception, clause 3.2
  (let s := lnk [(0xD00, 2)] fun l => { l with rx := some (rx0 1) }; let afc := (-32768 : Int); let lev := (-650 : Int); (s.chip.ctlOn) && decide (s.chip.link.rx = some (rx0 1)) && decide (63 < s.chip.reg 0xD08) && becomes (.lnkPreambleQualified 63 afc lev 1) s s.chip)) = true := by decide

theorem test_lnkSyncDetected : (
  -- LinkReception, clause 3.3
  (let s := lnk [(0xD00, 2)] fun l => { l with rx := some (rx0 2) }; let q := (-640 : Int); (s.chip.ctlOn) && decide (s.chip.link.rx = some (rx0 2)) && decide ((rx0 2).stage = 2) && decide (s.chip.bit 0xD01 15 = false) && (ends (.lnkSyncDetected q) s (fun c => (decide (c.link.rx = some { (rx0 2) with stage := 3, rssi := q, syncAt := s.chip.time.now })) && (decide (c.reg 0xD00 = 3)))))) = true := by decide

theorem test_lnkSyncTimeout : (
  -- LinkReception, clause 3.4
  (let s := lnk [(0xD00, 2)] fun l => { l with rx := some (rx0 2) }; (s.chip.ctlOn) && decide (s.chip.link.rx = some (rx0 2)) && decide ((rx0 2).stage = 2) && decide (s.chip.reg 0xD32 < 0xFFFFFFFF) && (ends .lnkSyncTimeout s (fun c => (decide (c.link.rx = none)) && (decide (c.reg 0xD32 = s.chip.reg 0xD32 + 1)) && (same [0xD32] s.chip c))))) = true := by decide

theorem test_lnkCaptureRestart : (
  -- LinkReception, clause 3.5
  (let s := lnk [(0xD00, 2), (0xD09, 6)] fun l => { l with rx := some (rx0 2) }; let lev := (-641 : Int); (s.chip.ctlOn) && decide (s.chip.link.rx = some (rx0 2)) && decide ((rx0 2).stage = 2) && decide (lev < (rx0 2).level + 10 * (s.chip.reg 0xD09 : Int)) && decide (s.chip.reg 0xD35 < 0xFFFFFFFF) && (ends (.lnkCaptureRestart lev (3 : Int) 1 0 9) s (fun c => (decide (c.link.rx = some { (rx0 2) with overlap := true })) && (decide (c.reg 0xD35 = s.chip.reg 0xD35 + 1)) && (same [0xD35] s.chip c)))) &&
  -- LinkReception, clause 3.6
  (let s := lnk [(0xD00, 2), (0xD09, 6)] fun l => { l with rx := some (rx0 2) }; let lev := (-640 : Int); (s.chip.ctlOn) && decide (s.chip.link.rx = some (rx0 2)) && decide ((rx0 2).stage = 2) && decide ((rx0 2).level + 10 * (s.chip.reg 0xD09 : Int) ≤ lev) && decide (s.chip.reg 0xD33 < 0xFFFFFFFF) && (ends (.lnkCaptureRestart lev (3 : Int) 1 0 9) s (fun c => (decide (c.link.rx = some { stage := 2, level := lev, aerial := s.chip.rxAerial 1, afc := (3 : Int), rssi := lev, syncAt := 0, overlap := false })) && (decide (c.reg 0xD33 = s.chip.reg 0xD33 + 1)) && (same [0xD13, 0xD33] s.chip c))))) = true := by decide

theorem test_lnkFrameEnd : (
  -- LinkReception, clause 3.7
  (let s := lnk [(0xD00, 3)] fun l => { l with rx := some (rx0 3) }; let air := (bytesBits [3, 1, 2, 0xFF]).map fun b => if b then (-3 : Int) else 2; let f := linkDecode (lcCoded s.chip.lnkCfg) air; (s.chip.ctlOn) && decide (s.chip.link.rx = some (rx0 3)) && decide ((rx0 3).stage = 3) && decide (leAt f.bytes 0 1 < 4) && decide (s.chip.field 0xD01 8 2 = 0) && decide (s.chip.reg 0xD31 < 0xFFFFFFFF) && (ends (.lnkFrameEnd air) s (fun c => (decide (c.link.rx = none)) && (decide (c.reg 0xD31 = s.chip.reg 0xD31 + 1)) && (decide (c.reg 0xD00 = 2)) && (decide (c.link.peers = s.chip.link.peers))))) &&
  -- LinkReception, clause 3.8
  (let s := lnk [(0xD00, 3), (0xD10, 1)] fun l => { l with rx := some (rx0 3) }; let air := (bytesBits frm.bytes).map fun b => if b then (-7 : Int) else 7; decide (linkDecode (lcCoded s.chip.lnkCfg) air = frm) && (s.chip.ctlOn) && decide (s.chip.link.rx = some (rx0 3)) && decide ((rx0 3).stage = 3) && decide (5 = leAt frm.bytes 0 1) && decide (4 ≤ 5) && decide (frm.bytes.length = 5 + 3) && decide (leAt frm.bytes (5 + 1) 1 * 256 + leAt frm.bytes (5 + 2) 1 = (crc16 (frm.bytes.take (5 + 1))).toNat) && decide (bits (leAt frm.bytes 1 1) 0 2 = 1) && decide (bits (leAt frm.bytes 1 1) 4 4 ≤ 2) && decide (1 ≤ s.chip.reg 0xD10) && decide (leAt frm.bytes 3 1 = 0xFF) && decide (leAt frm.bytes 4 1 = 0) && decide (s.chip.link.peers = []) && decide (s.chip.field 0xD01 8 2 = 0) && decide (s.chip.reg 0xD30 < 0xFFFFFFFF) && (ends (.lnkFrameEnd air) s (fun c => (decide (c.link.rx = none)) && (decide (c.reg 0xD30 = s.chip.reg 0xD30 + 1)) && ((c.isPending 56)) && (decide (c.reg 0xD00 = 2)) && ((c.peer (leAt frm.bytes 2 1)).any (fun p => (decide (p.ver = bits (leAt frm.bytes 1 1) 2 2)) && (decide (p.rssi = (rx0 3).rssi)) && (decide (p.aerial = (rx0 3).aerial)))))))) = true := by decide +kernel

theorem test_lnkTxDue : (
  -- LinkTransmission, clause 1.1
  (let s := lnk [(0xD00, 1)] fun l => { l with queue := [ent0] }; (s.chip.ctlOn) && ((decide (s.chip.reg 0xD00 = 1)) || (decide (s.chip.reg 0xD00 = 2))) && decide (s.chip.reg 0x220 = 2) && decide (s.chip.inFrame = false) && decide (s.chip.link.queue = [ent0]) && decide (ent0.timed = none) && (s.chip.dutyOk (s.chip.airtime ent0.n)) && ((decide (s.chip.bit 0xD01 7 = false)) || ((s.chip.link.coexGnt))) && (ends .lnkTxDue s (fun c => (decide (c.reg 0xD00 = 4)) && (decide (c.link.queue = [])) && ((c.link.coexReq)) && (decide (c.link.coexPri = ent0.pri)) && (decide (c.link.sent = s.chip.frameOf ent0)) && (decide (c.link.tx = some { ent := ent0, onAir := true, at_ := s.chip.time.now + coexLead, aerial := s.chip.txAerial ent0.dest, back := s.chip.reg 0xD00, power := s.chip.lnkPower }))))) &&
  -- LinkTransmission, clause 1.2
  (let s := lnk [(0xD00, 2), (0xD01, 0x80)] fun l => { l with queue := [ent0] }; (s.chip.ctlOn) && ((decide (s.chip.reg 0xD00 = 1)) || (decide (s.chip.reg 0xD00 = 2))) && decide (s.chip.reg 0x220 = 2) && decide (s.chip.inFrame = false) && decide (s.chip.link.queue = [ent0]) && decide (ent0.timed = none) && (s.chip.dutyOk (s.chip.airtime ent0.n)) && (s.chip.bit 0xD01 7) && decide (s.chip.link.coexGnt = false) && (ends .lnkTxDue s (fun c => (decide (c.reg 0xD00 = 4)) && ((c.link.coexReq)) && (decide (c.link.sent = s.chip.link.sent)) && (decide (c.link.tx = some { ent := ent0, onAir := false, at_ := s.chip.time.now + coexLead, aerial := s.chip.txAerial ent0.dest, back := s.chip.reg 0xD00, power := s.chip.lnkPower }))))) &&
  -- LinkTransmission, clause 2
  (let s := lnk [(0xD00, 1)] fun l => { l with queue := [ent0], duty := [(2, [36000000])] }; (s.chip.ctlOn) && decide (s.chip.reg 0xD00 = 1) && decide (s.chip.reg 0x220 = 2) && decide (s.chip.inFrame = false) && decide (s.chip.link.queue = [ent0]) && decide (ent0.timed = none) && decide (s.chip.dutyOk (s.chip.airtime ent0.n) = false) && decide (s.chip.reg 0xD37 < 0xFFFFFFFF) && (ends .lnkTxDue s (fun c => (decide (c.link.queue = [])) && (decide (c.link.tx = none)) && ((c.isPending 57)) && (decide (c.reg 0xD37 = s.chip.reg 0xD37 + 1)) && (sameButRecords [0xD37] s.chip c)))) &&
  -- LinkTransmission, clause 3
  (let s := lnk [(0xD00, 1)] id; (s.chip.ctlOn) && decide (s.chip.link.queue = []) && becomes .lnkTxDue s s.chip)) = true := by decide +kernel

theorem test_coexGntRise : (
  -- LinkTransmission, clause 4.1
  (let s := lnk [(0xD00, 4)] fun l => { l with tx := some (tx0 false 1) }; let t := tx0 false 1; (s.chip.ctlOn) && decide (s.chip.link.tx = some t) && decide (t.onAir = false) && decide (t.ent.timed = none) && (ends .coexGntRise s (fun c => ((c.link.coexGnt)) && (decide (c.link.sent = s.chip.frameOf t.ent)) && (decide (c.link.tx = some { t with onAir := true, at_ := max t.at_ s.chip.time.now, power := s.chip.lnkPower })) && (same [] s.chip c)))) &&
  -- LinkTransmission, clause 4.2.1
  (let s := lnk [(0xD00, 4)] fun l => { l with tx := some txT }; (s.chip.ctlOn) && decide (s.chip.link.tx = some txT) && decide (txT.onAir = false) && decide (txT.ent.timed = some 500) && decide (s.chip.rampOf 500 + 3 < s.chip.time.now) && decide (s.chip.reg 0xD37 < 0xFFFFFFFF) && decide (txT.back = 1) && (ends .coexGntRise s (fun c => (decide (c.link.tx = none)) && ((c.isPending 57)) && (decide (c.reg 0xD37 = s.chip.reg 0xD37 + 1)) && (decide (c.reg 0xD00 = 1)))))) = true := by decide +kernel

theorem test_lnkTxLate : (
  -- LinkTransmission, clause 4.2.2
  (let s := lnk [(0xD00, 4)] fun l => { l with tx := some txT }; (s.chip.ctlOn) && decide (s.chip.link.tx = some txT) && decide (txT.onAir = false) && decide (txT.ent.timed = some 500) && decide (s.chip.rampOf 500 + 3 < s.chip.time.now) && decide (s.chip.reg 0xD37 < 0xFFFFFFFF) && decide (txT.back = 1) && decide (s.chip.link.queue = []) && (ends .lnkTxLate s (fun c => (decide (c.link.tx = none)) && ((c.isPending 57)) && (decide (c.reg 0xD37 = s.chip.reg 0xD37 + 1)) && (decide (c.reg 0xD00 = 1)))))) = true := by decide +kernel

theorem test_coexWaitTimeout : (
  -- LinkTransmission, clause 4.3
  (let s := lnk [(0xD00, 4)] fun l => { l with tx := some (tx0 false 2) }; let t := tx0 false 2; (s.chip.ctlOn) && decide (s.chip.link.tx = some t) && decide (t.onAir = false) && decide (s.chip.reg 0xD37 < 0xFFFFFFFF) && decide (t.back = 2) && (ends .coexWaitTimeout s (fun c => (decide (c.link.tx = none)) && ((c.isPending 59)) && ((c.isPending 57)) && (decide (c.link.coexReq = false)) && (decide (c.reg 0xD37 = s.chip.reg 0xD37 + 1)) && (decide (c.reg 0xD00 = 2))))) &&
  -- LinkTransmission, clause 5.2
  (let s := lnk [(0xD00, 1)] id; (s.chip.ctlOn) && decide (s.chip.link.tx = none) && becomes .coexWaitTimeout s s.chip)) = true := by decide +kernel

theorem test_coexGntFall : (
  -- LinkTransmission, clause 4.4
  (let s := lnk [(0xD00, 4)] fun l => { l with tx := some (tx0 true 2), coexGnt := true }; let t := tx0 true 2; (s.chip.ctlOn) && decide (s.chip.link.tx = some t) && decide (s.chip.bit 0xD01 7 = false) && becomes .coexGntFall s { s.chip with link := { s.chip.link with coexGnt := false } }) &&
  -- LinkTransmission, clause 4.5
  (let s := lnk [(0xD00, 4), (0xD01, 0x80)] fun l => { l with tx := some (tx0 true 2), coexGnt := true }; let t := tx0 true 2; (s.chip.ctlOn) && decide (s.chip.link.tx = some t) && (s.chip.bit 0xD01 7) && (t.onAir) && decide (s.chip.time.now < t.at_) && (ends .coexGntFall s (fun c => (decide (c.link.tx = some { t with onAir := false })) && (decide (c.link.coexGnt = false)) && (same [] s.chip c)))) &&
  -- LinkTransmission, clause 4.6
  (let s := on (lnk [(0xD00, 4), (0xD01, 0x480)] fun l => { l with tx := some (tx0 true 1), coexGnt := true }) fun c => { c with time := { c.time with now := 28800005 } }; let t := tx0 true 1; (s.chip.ctlOn) && decide (s.chip.link.tx = some t) && (s.chip.bit 0xD01 7) && (t.onAir) && decide (t.at_ ≤ s.chip.time.now) && decide (t.back = 1) && decide (s.chip.field 0xD01 10 2 = 1) && decide (s.chip.reg 0xD37 < 0xFFFFFFFF) && (ends .coexGntFall s (fun c => (decide (c.link.tx = none)) && (decide (c.link.coexReq = false)) && ((c.isPending 57)) && (decide (c.reg 0xD37 = s.chip.reg 0xD37 + 1)) && (decide (c.reg 0xD00 = 1)))))) = true := by decide

theorem test_lnkTxEnd : (
  -- LinkTransmission, clause 4.7
  (let s := lnk [(0xD00, 4), (0xD01, 0x400)] fun l => { l with tx := some (tx0 true 1), duty := [(2, [5])] }; let t := tx0 true 1; (s.chip.ctlOn) && decide (s.chip.link.tx = some t) && (t.onAir) && decide (t.back = 1) && decide (s.chip.field 0xD01 10 2 = 1) && decide (s.chip.reg 0xD36 < 0xFFFFFFFF) && decide (s.chip.subBand = some 2) && (ends .lnkTxEnd s (fun c => (decide (c.link.tx = none)) && (decide (c.link.coexReq = false)) && ((c.isPending 57)) && (decide (c.reg 0xD36 = s.chip.reg 0xD36 + 1)) && (decide (c.reg 0xD00 = 1)) && (decide (sumList (c.account 2) = sumList (s.chip.account 2) + s.chip.airtime t.ent.n))))) &&
  -- LinkTransmission, clause 5.1
  (let s := lnk [(0xD00, 1)] id; (s.chip.ctlOn) && decide (s.chip.link.tx = none) && becomes .lnkTxEnd s s.chip)) = true := by decide

theorem test_lnkAlarmCopyDue : (
  -- LinkTransmission, clause 6
  (let s := lnk [(0xD00, 1), (0xD0D, 0x6403)] fun l => { l with copies := [copy0] }; (s.chip.ctlOn) && decide (s.chip.link.copies = [copy0]) && decide (copy0.due ≤ s.chip.tick) && decide (s.chip.reg 0xD00 = 1) && decide (s.chip.reg 0x220 = 2) && decide (s.chip.link.queue = []) && decide (s.chip.bit 0xD01 14 = false) && (ends .lnkAlarmCopyDue s (fun c => ((c.link.queue).length == 1 && (c.link.queue).any (fun e => (decide (e.kind = 1)) && ((e.pri)) && (decide (e.dest = 0xFF)) && (decide (e.payload = copy0.payload)))) && (decide (c.link.copies = (if copy0.left ≤ 1 then [] else [{ copy0 with left := copy0.left - 1, due := copy0.due + s.chip.field 0xD0D 8 16 }]))) && (same [] s.chip c)))) &&
  -- LinkTransmission, clause 7
  (let s := tl 899 (lnk [(0xD00, 1), (0xD0D, 0x6403)] fun l => { l with copies := [copy0] }); (s.chip.ctlOn) && decide (s.chip.link.copies = [copy0]) && decide (s.chip.tick < copy0.due) && becomes .lnkAlarmCopyDue s s.chip)) = true := by decide

theorem test_dacUpdateEdge : (
  -- ControlOutputEdges, clause 1.3
  (let s := dacS [] fun d => { d with sine := true }; let d := (dacS [] fun d => { d with sine := true }).chip.dac 3; (s.chip.dacValid) && (s.chip.updateClock) && decide (s.chip.bit 0xE40 2 = false) && decide (3 < 4) && decide (s.chip.dac 3 = d) && decide (d.rangeEdges = 0) && decide (s.chip.dacInjects 3 = false) && decide (s.chip.dacAlarm 3 = false) && decide (d.pend = false) && decide (d.fresh = false) && (d.sine)) &&
  -- ControlOutputEdges, clause 1.1
  (let s := dacS [(dacA 3 0, 0x1234)] fun d => { d with pend := true }; let d := (dacS [] fun d => { d with pend := true }).chip.dac 3; (s.chip.dacValid) && (s.chip.updateClock) && decide (s.chip.bit 0xE40 2 = false) && decide (3 < 4) && decide (s.chip.dac 3 = d) && decide (d.rangeEdges = 0) && decide (s.chip.dacInjects 3 = false) && decide (s.chip.dacAlarm 3 = false) && (d.pend) && decide (d.sine = false) && decide (s.chip.reg (dacA 3 2) = 0) && decide (s.chip.field (dacA 3 3) 0 16 ≤ s.chip.reg (dacA 3 0)) && decide (s.chip.reg (dacA 3 0) ≤ s.chip.field (dacA 3 3) 16 16) && (ends .dacUpdateEdge s (fun c => (decide (c.reg (dacA 3 0x0A) = s.chip.reg (dacA 3 0))) && (decide (c.reg (dacA 3 9) = 0)) && (decide ((c.dac 3).pend = false)) && (decide ((c.dac 3).code = s.chip.reg (dacA 3 0)))))) &&
  -- ControlOutputEdges, clause 1.2
  (let s := dacS [(dacA 3 2, 5), (dacA 3 0x0A, 100)] fun d => { d with code := 106 }; let d := (dacS [] fun d => { d with code := 106 }).chip.dac 3; (s.chip.dacValid) && (s.chip.updateClock) && decide (s.chip.bit 0xE40 2 = false) && decide (3 < 4) && decide (s.chip.dac 3 = d) && decide (d.rangeEdges = 0) && decide (s.chip.dacInjects 3 = false) && decide (s.chip.dacAlarm 3 = false) && decide (d.pend = false) && decide (d.fresh = false) && decide (d.sine = false) && decide (s.chip.reg (dacA 3 0x0A) + s.chip.reg (dacA 3 2) < d.code) && decide (0 < s.chip.reg (dacA 3 2)) && decide (s.chip.field (dacA 3 3) 0 16 ≤ s.chip.reg (dacA 3 0x0A)) && decide (d.code ≤ s.chip.field (dacA 3 3) 16 16) && (ends .dacUpdateEdge s (fun c => (decide (c.reg (dacA 3 0x0A) = s.chip.reg (dacA 3 0x0A) + s.chip.reg (dacA 3 2))) && (decide (c.reg (dacA 3 9) = 2)) && (decide ((c.dac 3).code = d.code))))) &&
  -- ControlOutputEdges, clause 2
  (let s := dacS [(0xE40, 4)] id; (s.chip.dacValid) && (s.chip.updateClock) && (s.chip.bit 0xE40 2) && (ends .dacUpdateEdge s (fun c => (upTo 4 (fun ch => (decide (c.reg (dacA ch 9) = 1)) && (decide (c.reg (dacA ch 0x0A) = s.chip.clrCode ch &&& 0xFFFF))))))) &&
  -- ControlOutputEdges, clause 3
  (let s := dacS [(0x231, 1)] id; (s.chip.dacValid) && decide (s.chip.updateClock = false) && becomes .dacUpdateEdge s s.chip) &&
  -- ControlOutputEdges, clause 7.3
  (let s := dacS [] id; let t := power (dacS [] id) fun p => { p with invalid := 64 }; (s.chip.dacValid) && decide (t.chip.dacValid = false) && becomes .dacUpdateEdge t t.chip)) = true := by decide

theorem test_dacClrNFall : (
  -- ControlOutputEdges, clause 4
  (let s := dacS [] id; (s.chip.dacValid) && decide (2 < 3) && (ends (.dacClrNFall 2) s (fun c => ((c.bit 0xE40 2)) && (decide (c.field 0xE40 0 2 = 2)) && (upTo 4 (fun ch => (decide (c.reg (dacA ch 9) = 1)) && (decide (c.reg (dacA ch 0x0A) = (if 2 = 0 then 0 else if 2 = 1 then 0x8000 else 0xFFFF)))))))) &&
  -- ControlOutputEdges, clause 7.1
  (let s := dacS [] id; let t := power (dacS [] id) fun p => { p with invalid := 64 }; (s.chip.dacValid) && decide (t.chip.dacValid = false) && becomes (.dacClrNFall 2) t t.chip)) = true := by decide

theorem test_dacClrNRise : (
  -- ControlOutputEdges, clause 5
  (let s := dacS [(0xE40, 4)] fun d => { d with code := 0x8000 }; (s.chip.dacValid) && decide (3 < 4) && decide ((s.chip.dac 3).rangeEdges = 0) && decide ((s.chip.dac 3).fresh = false) && decide (s.chip.dacInjects 3 = false) && decide (s.chip.dacAlarm 3 = false) && decide ((s.chip.dac 3).sine = false) && decide (s.chip.field (dacA 3 3) 0 16 ≤ (s.chip.dac 3).code) && decide ((s.chip.dac 3).code ≤ s.chip.field (dacA 3 3) 16 16) && decide ((s.chip.dac 3).code < 65536) && (ends .dacClrNRise s (fun c => (decide (c.bit 0xE40 2 = false)) && (decide (c.reg (dacA 3 0x0A) = (s.chip.dac 3).code)) && (decide (c.reg (dacA 3 9) = 0))))) &&
  -- ControlOutputEdges, clause 6
  (let s := dacS [(0xE40, 4)] id; (s.chip.dacValid) && ends .dacClrNRise s (fun c => (decide (c.bit 0xE40 2 = false)))) &&
  -- ControlOutputEdges, clause 7.2
  (let s := dacS [] id; let t := power (dacS [] id) fun p => { p with invalid := 64 }; (s.chip.dacValid) && decide (t.chip.dacValid = false) && becomes .dacClrNRise t t.chip)) = true := by decide

theorem test_tickBoundary : (
  -- TickBoundaries, clause 1: with the TCXO, and without it, where an edge of the always-on clock reaches the boundary
  (let s := tl 9 (up 2 [(0x210, 2)]); let t := tl 9 (up 2 []); decide (s.chip.bus.v1Wait = none) && decide (s.chip.reg 0x210 = 2) && decide (s.chip.nextEdge = 320000) && decide (320000 ≤ t.chip.nextEdge)) &&
  -- TickBoundaries, clause 2
  (let s := power (up 2 []) fun p => { p with resetN := false }; let m := TickMeas.none_; decide (s.chip.bus.v1Wait = none) && decide (s.chip.ctlOn = false) && (becomesPowered (.tickBoundary m) s { s.chip with time := { s.chip.time with now := s.chip.nextEdge, tick := s.chip.nextEdge / 32000 + 1 } })) &&
  -- TickBoundaries, clause 3
  (let s := up 2 [(0x300, 1), (0x301, 2)]; let m := TickMeas.none_; (s.chip.ctlOn) && (s.chip.asleep) && becomes (.tickBoundary m) s { s.chip with time := { s.chip.time with now := s.chip.nextEdge } }) &&
  -- TickBoundaries, clause 4
  (let s := on (tl 9 (up 2 [])) fun c => { c with time := { c.time with tick := c.time.tick + 2 } }; let m := TickMeas.none_; (s.chip.ctlOn) && decide (s.chip.time.now / 32000 + 1 < s.chip.time.tick) && (becomes (.tickBoundary m) s { s.chip with time := { s.chip.time with now := s.chip.nextEdge } })) &&
  -- TickBoundaries, clause 5
  (let s := power (tl 9 (up 2 [(0x234, 7)])) fun p => { p with deepPending := true }; let m := TickMeas.none_; (s.chip.ctlOn) && decide (s.chip.asleep = false) && (s.chip.upToDate) && decide (s.chip.time.tick ≤ s.chip.time.now / 32000 + 1) && decide (s.chip.staged = []) && (s.chip.power.deepPending) && (ends (.tickBoundary m) s (fun c => ((c.power.deep)) && (decide (c.boot.done = false)) && (decide (s.chip.nextEdge ≤ c.time.now)) && ((regKeys s.chip c).all fun a => keptAt true a || [8, 9].contains (a / 256) || c.reg a == resetAt a % 2 ^ 32)))) &&
  -- TickBoundaryCompletes
  (let s := tl 9 (up 2 []); let m := TickMeas.none_; (s.chip.ctlOn) && decide (s.chip.asleep = false) && decide (s.chip.time.now < 32000 * s.chip.time.tick) && decide (s.chip.time.tick ≤ s.chip.time.now / 32000 + 1) && (ends (.tickBoundary m) s (fun c => (decide (s.chip.nextEdge ≤ c.time.now)) && (decide (c.time.tick = s.chip.time.tick + 1)) && (same [0xA10, 0xA20] s.chip c))))) = true := by decide +kernel

theorem test_other_TickBoundaries : (
  -- TickBoundaries, clause 6.1
  (let s := on (tl 9 (up 2 [])) fun c => c.stage 0xC32 40; decide (s.chip.staged = [((0xC32), (40#32))]) && decide (special (0xC32) = false) && (s.chip.dueNow (0xC32)) && decide ((0xC32) / 256 ∈ [0x0A, 0x0B, 0x0C, 0x0D]) && decide ((0xC32) ≠ 0xC6F) && decide ((s.chip.applyWrites).reg (0xC32) = (40#32).toNat &&& maskAt (0xC32))) &&
  -- TickBoundaries, clause 6.2
  (let s := on (tl 9 (up 2 [])) fun c => c.stage 0xC32 40; decide (s.chip.staged = [((0xC32), (40#32))]) && decide (special (0xC32) = false) && (s.chip.dueNow (0xC32)) && decide ((0xC32) / 256 ∈ [0x0A, 0x0B, 0x0C, 0x0D]) && decide ((0xC32) ≠ 0xC6F) && decide ((s.chip.applyWrites).staged = []))) = true := by decide

/-! The statements about the step, the queue and every command. -/

/-- A state with a key in slot 7 and two commands waiting. -/
def waitingTwo : State := { withKey 7 (up 2 []) with pending := [.eventRead, .linkSlewEnd 3] }

-- StepRunsFrontCommand
theorem test_step_front : waitingTwo.pending = .eventRead :: [.linkSlewEnd 3] ∧ step waitingTwo = exec .eventRead { waitingTwo with pending := [.linkSlewEnd 3] } := ⟨rfl, rfl⟩

-- EmptyQueueLetsTimePass
theorem test_step_idle : State.reset.pending = [] ∧ step State.reset = .next (State.reset.onChip Chip.idle) ∧ State.reset.chip.idle.time.now = 1000 :=
  ⟨rfl, rfl, by decide⟩

-- KeySlotsStayWellFormed
theorem test_keys_safe : (KeysOk waitingTwo.keys && match step waitingTwo with
    | .next t => KeysOk t.keys && t.keys.length == 1
    | _ => false) = true := by decide

-- KeysMoveOnlyByKeyRows
theorem test_keys_stay : movesKeys .eventRead = false ∧ after .eventRead waitingTwo (fun t => decide (t.keys = waitingTwo.keys)) = true := by decide

-- RaisingAnEvent: a clear bit, then a set one
theorem test_raise : (let c := Chip.reset.raise 63 5 7; let d := c.raise 63 5 8;
    c.isPending 63 && c.reg 0x17F == 1 && c.ev.chg && d.isPending 63 && d.reg 0x17F == 2 && d.ev.chg) = true := by decide

-- CountersSaturate, at both ends of HB_CMD_CNT and of an event counter
theorem test_count : (let c := (up 2 [(0x510, 0xFFFFFFFE)]).chip.count 0x510; let d := c.count 0x510;
    maskAt 0x510 == 2 ^ 32 - 1 && (satOf 0x510).any (fun e => e.1 == 0x518 && (maskAt e.1).testBit e.2 && c.reg 0x510 == 0xFFFFFFFF && !c.bit e.1 e.2 && d.reg 0x510 == 0xFFFFFFFF && d.bit e.1 e.2)) = true := by
  decide

-- CommandsHeldBusyOrNotNegotiated: the three clauses
theorem test_held_busy : hostFx .eventRead = some (native, ask Chip.eventReadCmd) := rfl
theorem test_command_busy : (let s := bus (up 2 []) fun b => { b with complete := false };
    s.chip.ctlOn && !s.chip.asleep && !s.chip.bus.stuck && s.chip.replyPending && becomes .eventRead s (s.chip.count 0x512)) = true := by decide
theorem test_command_held : (let s := at_ [];
    s.chip.ctlOn && !s.chip.asleep && !s.chip.bus.stuck && !s.chip.replyPending && !s.chip.boot.done &&
      becomes .eventRead s { s.chip with bus := { s.chip.bus with held := some .eventRead } }) = true := by decide
theorem test_command_version : (let s := up 1 [];
    s.chip.ctlOn && !s.chip.replyPending && s.chip.boot.done && !native.contains (s.chip.reg 0x501) && becomes .eventRead s (s.chip.taken.setReply [0x07])) = true := by decide

-- WriteRowsAreParamWrites
theorem test_row_write : (let s := up 2 []; s.chip.hostReady [2, 3] && decide (rowWrite (.registerWrite 0x237 50#32) = some (0x237, 50#32)) &&
    after (.registerWrite 0x237 50#32) s fun t => after (.paramWrite [{ addr := 0x237, value := 50#32 }]) s fun u => decide (t = u)) = true := by decide

/-- A good entry, and one that no table lists. -/
def goodE : PWrite := { addr := 0x237, value := 50#32 }
def badE : PWrite := { addr := 0x0FF0, value := 50#32 }

-- ParamWriteStopsAtTheRefusedEntry: the three clauses
theorem test_paramWrite : (let s := up 2 []; s.chip.hostReady [2, 3] && (s.chip.taken.writeAll [goodE]).any (fun d =>
      ends (.paramWrite [goodE]) s (fun c => decide (c = d.answer [0x00, 0x01, 0xFF, 0xFF])) && (d.writeParam badE.addr badE.value.toNat).1 == 0x0A &&
      ends (.paramWrite [goodE, badE, goodE]) s (fun c => replied c [0x0A, 0x01, 0xF0, 0x0F] && c.view 0x237 == 50)) &&
    answers (.paramWrite []) s [0x0A] && answers (.paramWrite (List.replicate 43 goodE)) s [0x0A]) = true := by decide

/-! The glimpse plan (R379, Table 12-6). Ensemble 2, in state 4 on lane 9, holds lane sample 10,000 as a frame start: its glimpses start 64 samples before the
frame starts, so at 16 * 9,936 + 3,145,728 n. -/

def glimpsed2 : Chip := (on (ensWith 4 fun x => { x with dsp := { x.dsp with start := 10000 } }) fun c => (c.put 0x300 1).put 0x305 1).chip

theorem test_glimpsePlan : decide (((tl 9 (on State.reset fun _ => glimpsed2)).chip.planTick.glimpses.map fun e => (e.2.kind, e.2.nextG)) = [(1, 3304704)]) = true := by decide
theorem test_glimpseNext : (match glimpsed2.gridOf (glimpsed2.handleLane 9) 1 with
    | some x => decide ((tl 200 (on State.reset fun _ => glimpsed2)).chip.predict x 2 0 (some 3304704) = 9596160)
    | none => false) = true := by decide

/-! Operands that name no object change nothing. -/

theorem test_bad_fe : (Instr.wf (.feInjStart 2) = false ∧ idle (.feInjStart 2) (up 2 []) = true) := by decide
theorem test_bad_win : (Instr.wf (.winCapArm 12) = false ∧ idle (.winCapArm 12) (up 2 []) = true) := by decide
theorem test_bad_lane : (Instr.wf (.laneNcoWrite 160 5#32) = false ∧ idle (.laneNcoWrite 160 5#32) (up 2 []) = true) := by decide
theorem test_bad_slot : (Instr.wf (.slotAttach false 8) = false ∧ idle (.slotAttach false 8) (up 2 []) = true) := by decide
theorem test_bad_fms : (Instr.wf (.fmsLaneWrite 16 5#32) = false ∧ idle (.fmsLaneWrite 16 5#32) (up 2 []) = true) := by decide
theorem test_bad_ams : (Instr.wf (.amsLaneWrite 8 5#32) = false ∧ idle (.amsLaneWrite 8 5#32) (up 2 []) = true) := by decide
theorem test_bad_ens : (Instr.wf (.dabReconfiguration 8) = false ∧ idle (.dabReconfiguration 8) (up 2 []) = true) := by decide
theorem test_bad_chan : (Instr.wf (.drmReconfiguration 16) = false ∧ idle (.drmReconfiguration 16) (up 2 []) = true) := by decide
theorem test_bad_inst : (Instr.wf (.linkSlewEnd 8) = false ∧ idle (.linkSlewEnd 8) (up 2 []) = true) := by decide
theorem test_bad_dac : (Instr.wf (.dacSineStart 4) = false ∧ idle (.dacSineStart 4) (up 2 []) = true) := by decide
theorem test_bad_entry : (Instr.wf (.galCtrlPin 16384) = false ∧ idle (.galCtrlPin 16384) (up 2 []) = true) := by decide
theorem test_bad_mask : (Instr.wf (.evtMaskWrite 3 0#32) = false ∧ idle (.evtMaskWrite 3 0#32) (up 2 []) = true) := by decide
theorem test_bad_event : (Instr.wf (.eventRecordEmit 72) = false ∧ idle (.eventRecordEmit 72) (up 2 []) = true) := by decide
theorem test_bad_clrsel : (Instr.wf (.dacClrNFall 4) = false ∧ idle (.dacClrNFall 4) (at_ []) = true) := by decide
theorem test_bad_pins : (Instr.wf (.resetNRelease 4 0) = false ∧ idle (.resetNRelease 4 0) (power (at_ []) fun p => { p with resetN := false }) = true) := by decide

/-- No row of the table gives bits, so no word spells a command. -/
theorem test_decode : decodeTableWord 32 0x12345678 = none := rfl

end Sys2Proof.Tests
end

section
/-! The parameter space by regions (Table 20-5): where each table lies, and the row at an address. -/

namespace Sys2Proof.Proofs

open Sys2Proof Sys2Proof.Machine Sys2Proof.Laws

/-- A part of the parameter space that repeats a table, or a part of one: `n` blocks, each with the `size` offsets from `lo` on. Offset 0 of the first
block, whether it is in the part or not, is at `base`. -/
structure Region where
  rows : List PRow
  base : Nat
  n : Nat
  size : Nat
  lo : Nat

/-- The address of offset `off` in block `i`. -/
def Region.addr (g : Region) (i off : Nat) : Nat := g.base + g.size * i + off

/-- Offset `off` of block `i` belongs to the part. -/
def Region.inside (g : Region) (i off : Nat) : Prop := i < g.n ∧ g.lo ≤ off ∧ off < g.lo + g.size

/-- A page of one table. -/
def pageRegion (rows : List PRow) (page : Nat) : Region := ⟨rows, 256 * page, 1, 256, 0⟩

def dacRegion : Region := ⟨dacRows, 0xE00, 4, 16, 0⟩
def winRegion : Region := ⟨winRows, 0x1000, 12, 256, 0⟩
def dabRegion : Region := ⟨dabRows, 0x2000, 8, 256, 0⟩
def laneRegion : Region := ⟨laneRows, 0x4000, 160, 16, 0⟩
def fmsRegion : Region := ⟨fmsRows, 0x5000, 16, 16, 0⟩
def amsRegion : Region := ⟨amsRows, 0x5100, 8, 16, 0⟩

/-- The regions of one page. -/
def pageRegions : List Region :=
  [pageRegion sysRows 0, pageRegion evtRows 1, ⟨clkRows.take 13, 0x200, 3, 16, 0⟩, ⟨clkRows, 0x200, 1, 0xD0, 0x30⟩, pageRegion pwrRows 3,
   pageRegion bootRows 4, pageRegion hbRows 5, pageRegion strRows 6, pageRegion schRows 7, pageRegion feRows 8, ⟨feRows, 0x900, 1, 0xE0, 0⟩,
   ⟨calRows, 0xA00, 1, 0x20, 0⟩, ⟨calRows, 0xA10, 1, 0x10, 0x10⟩, ⟨calRows, 0xA00, 1, 0x10, 0x30⟩, ⟨calRows, 0xA10, 1, 0x10, 0x30⟩,
   ⟨calRows, 0xA00, 1, 0xB0, 0x50⟩, pageRegion swtRows 11, ⟨galRows, 0xC00, 1, 0x70, 0⟩, ⟨galRows, 0xC00, 8, 18, 0x70⟩, pageRegion lnkRows 13,
   dacRegion, ⟨dacRows, 0xE00, 1, 0xC0, 0x40⟩, pageRegion varRows 15, fmsRegion, amsRegion, ⟨dmdRows, 0x5100, 1, 0x80, 0x80⟩]

/-- The regions of several pages. -/
def wideRegions : List Region := [winRegion, dabRegion, ⟨drmRows, 0x2800, 16, 128, 0⟩, laneRegion]

/-- The whole parameter space. -/
def regions : List Region := pageRegions ++ wideRegions

theorem page_of_pageRegion : ∀ g ∈ pageRegions, ∀ i off, g.inside i off → g.addr i off / 256 = g.base / 256 := by
  simp only [pageRegions, List.forall_mem_cons, pageRegion, dacRegion, fmsRegion, amsRegion, Region.addr, Region.inside]
  refine ⟨?_, ?_, ?_, ?_, ?_, ?_, ?_, ?_, ?_, ?_, ?_, ?_, ?_, ?_, ?_, ?_, ?_, ?_, ?_, ?_, ?_, ?_, ?_, ?_, ?_, ?_, List.forall_mem_nil _⟩ <;> omega

theorem blockOf_pageRegion : ∀ g ∈ pageRegions, ∀ i off, g.inside i off → blockOf (g.addr i off) = (g.rows, g.base + g.size * i, off) := by
  intro g hg i off hi
  have hp := page_of_pageRegion g hg i off hi
  revert g
  simp only [pageRegions, List.forall_mem_cons, pageRegion, dacRegion, fmsRegion, amsRegion, Region.addr, Region.inside]
  refine ⟨?_, ?_, ?_, ?_, ?_, ?_, ?_, ?_, ?_, ?_, ?_, ?_, ?_, ?_, ?_, ?_, ?_, ?_, ?_, ?_, ?_, ?_, ?_, ?_, ?_, ?_, List.forall_mem_nil _⟩
  all_goals
    intro hi hp
    simp only [Nat.reduceMul, Nat.reduceDiv] at hp
    unfold blockOf
    dsimp only
    rw [hp]
    simp (disch := omega) only [↓if_pos, ↓if_neg, Prod.mk.injEq, true_and, Nat.reduceMul]
    omega

theorem blockOf_wideRegion : ∀ g ∈ wideRegions, ∀ i off, g.inside i off → blockOf (g.addr i off) = (g.rows, g.base + g.size * i, off) := by
  simp only [wideRegions, List.forall_mem_cons, winRegion, dabRegion, laneRegion, Region.addr, Region.inside]
  refine ⟨?_, ?_, ?_, ?_, List.forall_mem_nil _⟩
  all_goals
    intro i off hi
    unfold blockOf
    simp (disch := omega) only [↓if_pos, ↓if_neg, Prod.mk.injEq, true_and]
    omega

/-- Offset `off` of block `i` of a region lies in that block. -/
theorem blockOf_addr {g : Region} (hg : g ∈ regions) {i off : Nat} (hi : g.inside i off) : blockOf (g.addr i off) = (g.rows, g.base + g.size * i, off) := by
  rcases List.mem_append.mp hg with h | h
  · exact blockOf_pageRegion g h i off hi
  · exact blockOf_wideRegion g h i off hi

/-- The addresses that Table 20-5 gives no block: whole pages, and the rest of page 0x09. -/
def reservedAddr (a : Nat) : Prop :=
  (0x9E0 ≤ a ∧ a < 0xA00) ∨ (0x1C00 ≤ a ∧ a < 0x2000) ∨ (0x3000 ≤ a ∧ a < 0x4000) ∨ (0x4A00 ≤ a ∧ a < 0x5000) ∨ 0x5200 ≤ a

theorem blockOf_reserved (a : Nat) (h : reservedAddr a) : blockOf a = ([], 0, 0) := by
  unfold reservedAddr at h
  unfold blockOf
  rcases h with h | h | h | h | h <;> simp (disch := omega) only [↓if_pos, ↓if_neg]

/-- Every address is reserved or between the bounds of a region. -/
theorem region_bounds (a : Nat) : reservedAddr a ∨ ∃ g ∈ regions, g.base + g.lo ≤ a ∧ a < g.base + g.lo + g.size * g.n := by
  simp only [regions, pageRegions, wideRegions, List.cons_append, List.nil_append, List.mem_cons, List.not_mem_nil, or_false, exists_eq_or_imp,
    exists_eq_left, pageRegion, dacRegion, winRegion, dabRegion, laneRegion, fmsRegion, amsRegion, reservedAddr]
  omega

/-- An address lies in a region, or it is reserved. -/
theorem region_of_addr (a : Nat) : blockOf a = ([], 0, 0) ∨ ∃ g ∈ regions, ∃ i off, g.inside i off ∧ a = g.addr i off := by
  rcases region_bounds a with h | ⟨g, hg, hlo, hhi⟩
  · exact .inl (blockOf_reserved a h)
  · have hlt : a - (g.base + g.lo) < g.size * g.n := by omega
    have hs : 0 < g.size := Nat.pos_of_ne_zero fun h => by simp [h] at hlt
    have hmod := Nat.mod_lt (a - (g.base + g.lo)) hs
    have hdiv := Nat.div_add_mod (a - (g.base + g.lo)) g.size
    exact .inr ⟨g, hg, (a - (g.base + g.lo)) / g.size, g.lo + (a - (g.base + g.lo)) % g.size,
      ⟨Nat.div_lt_of_lt_mul hlt, by omega, by omega⟩, by unfold Region.addr; omega⟩

/-- The row of a region's offset is the table's. -/
theorem rowAt_addr {g : Region} (hg : g ∈ regions) {i off : Nat} (hi : g.inside i off) : rowAt (g.addr i off) = g.rows.find? (·.covers off) := by
  simp only [rowAt, blockOf_addr hg hi]

/-- What holds of every row of the tables holds of the row at an address. -/
theorem rowAt_all (p : PRow → Bool) (h : (regions.all fun g => g.rows.all p) = true) {a : Nat} {r : PRow} (e : rowAt a = some r) : p r = true := by
  rcases region_of_addr a with ha | ⟨g, hg, i, off, hi, rfl⟩
  · simp [rowAt, ha] at e
  · rw [rowAt_addr hg hi] at e
    exact List.all_eq_true.mp (List.all_eq_true.mp h g hg) r (List.mem_of_find?_eq_some e)

theorem maskAt_of_row {a : Nat} {r : PRow} (h : rowAt a = some r) : maskAt a = r.mask := by simp [maskAt, h]

theorem maskAt_lt (a : Nat) : maskAt a < 2 ^ 32 := by
  unfold maskAt
  split
  · rename_i r h; exact of_decide_eq_true (rowAt_all (fun r => decide (r.mask < 2 ^ 32)) (by decide +kernel) h)
  · decide

end Sys2Proof.Proofs
end

section
/-! What a parameter write does by its access code (R10, R11, R572, R573), and the parameters after reset (R12, R542). -/

namespace Sys2Proof.Proofs

open Sys2Proof Sys2Proof.Machine Sys2Proof.Laws

/-! Reset. -/

theorem reg_reset (a : Nat) : State.reset.chip.reg a = resetAt a % 2 ^ 32 := BitVec.toNat_ofNat _ _

theorem view_reset (a : Nat) : State.reset.chip.view a = resetAt a % 2 ^ 32 := BitVec.toNat_ofNat _ _

/-- Settles O4: the register file and the writes that wait are empty tables, which read as the Reset column. -/
theorem resetValues : Obligations.ResetValues := ⟨reg_reset, view_reset, rfl, rfl⟩

/-! A parameter write by its access code. -/

theorem writeParam_none (c : Chip) (a v : Nat) (h : rowAt a = none) : c.writeParam a v = (rBad, c) := by
  unfold Chip.writeParam; rw [h]; rfl

theorem writeParam_ro {a : Nat} {r : PRow} (c : Chip) (v : Nat) (h : rowAt a = some r) (ha : r.acc = .ro) : c.writeParam a v = (rBad, c) := by
  unfold Chip.writeParam; rw [h]; dsimp only; rw [ha]; rfl

/-- A lane's LANE_BANK_NEXT, whose write keeps the bits outside its field. -/
def isBankNext (a : Nat) : Prop := 0x4000 ≤ a ∧ a < 0x4A00 ∧ a % 16 = 4

theorem rowAt_bankNext (a : Nat) (h : isBankNext a) : rowAt a = some (prow 0x04 0x3F .wo 0x0) := by
  obtain ⟨hlo, hhi, h4⟩ := h
  have e : a = laneRegion.addr ((a - 0x4000) / 16) 4 := by show a = 0x4000 + 16 * ((a - 0x4000) / 16) + 4; omega
  rw [e, rowAt_addr (g := laneRegion) (by simp [regions, wideRegions]) ⟨by show _ < 160; omega, by decide, by decide⟩]
  rfl

/-- A write to an RS parameter is that of 0 to clear, or refused. -/
theorem writeParam_rs {a : Nat} {r : PRow} (c : Chip) (v : Nat) (h : rowAt a = some r) (ha : r.acc = .rs) :
    c.writeParam a v = if r.clr then c.wrClear a (v &&& r.mask) else (rBad, c) := by
  have hb : ¬ isBankNext a := fun hb => by rw [rowAt_bankNext a hb] at h; cases h; cases ha
  unfold Chip.writeParam
  unfold isBankNext at hb
  rw [h]
  dsimp only
  rw [ha, if_neg hb]
  rfl

theorem acts_congr {i : Instr} {s : State} {a n m : Nat} (h : n &&& maskAt a = m &&& maskAt a) (hA : Acts i s a n) : Acts i s a m := by
  unfold Acts at hA ⊢; rwa [h] at hA

theorem taken_stretch (s : State) (vs : List Nat) (h : s.chip.hostReady vs = true) : s.chip.taken.bus.stretch = none := by
  obtain ⟨_, _, e⟩ := taken_only s.chip
  rw [e]; exact (hostReady_parts _ _ h).2

theorem taken_powered (s : State) (vs : List Nat) (h : s.chip.hostReady vs = true) : s.chip.taken.ctlOn = true := by
  rw [taken_ctlOn]; exact (hostReady_parts _ _ h).1

/-- A one-entry write that only puts a value in force. -/
theorem acts_put (i : Instr) (s : State) (a n m : Nat) (h : s.chip.hostReady [2, 3] = true) (hx : exec i s = .next (s.command i))
    (e : hostFx i = some (native, one a n)) (h8 : a ≠ 0x508) (hm : m &&& maskAt a = n &&& maskAt a)
    (hw : s.chip.taken.writeParam a n = (0, s.chip.taken.put a m)) : Acts i s a n :=
  acts_of i s a n m h hx e (maskAt_lt a) h8 _ hm hw rfl (taken_powered s _ h) (taken_stretch s _ h)

/-- A write that access code and row refuse: no row, RO, or RS but for a write of 0 to one that it clears. -/
theorem writeParam_refused (c : Chip) (a v : Nat)
    (h : rowAt a = none ∨ ∃ r, rowAt a = some r ∧ (r.acc = .ro ∨ (r.acc = .rs ∧ (r.clr = false ∨ v &&& r.mask ≠ 0)))) :
    c.writeParam a v = (rBad, c) := by
  rcases h with h | ⟨r, h, ha | ⟨ha, hc | hv⟩⟩
  · exact writeParam_none c a v h
  · exact writeParam_ro c v h ha
  · rw [writeParam_rs c v h ha, hc]; rfl
  · rw [writeParam_rs c v h ha, Chip.wrClear, if_neg hv]; exact ite_self _

theorem writeParam_clear {a : Nat} {r : PRow} (c : Chip) (v : Nat) (h : rowAt a = some r) (ha : r.acc = .rs) (hc : r.clr = true)
    (hv : v &&& r.mask = 0) : c.writeParam a v = (0, c.put a 0) := by
  rw [writeParam_rs c v h ha, hc, if_pos rfl, Chip.wrClear, if_pos hv]; rfl

/-- Settles O16, by the access code of the row at the address. -/
theorem accessCodesAreEnforced : Obligations.AccessCodesAreEnforced := by
  intro s a v h
  refine ⟨fun hbad => ?_, fun r hr ha hc hv => ?_⟩
  · exact refuses_of (.registerWrite a v) s a v.toNat rBad h rfl rfl (by decide) (writeParam_refused _ a v.toNat hbad)
  · have h8 : a ≠ 0x508 := fun e => by
      have hro : rowAt 0x508 = some (prow 0x08 0x7 .ro 0x0) := rfl
      rw [e, hro] at hr; cases hr; cases ha
    have hmask : v.toNat &&& maskAt a = 0 &&& maskAt a := by rw [maskAt_of_row hr, hv, Nat.zero_and]
    exact acts_congr hmask (acts_put (.registerWrite a v) s a v.toNat 0 h rfl rfl h8 hmask.symm (writeParam_clear _ _ hr ha hc hv))

end Sys2Proof.Proofs
end

section
/-! Writes to the parameters of repeated blocks, and what a host command's own counts leave as it was. -/

namespace Sys2Proof.Proofs

open Sys2Proof Sys2Proof.Machine Sys2Proof.Laws

/-! What counting the command leaves alone. -/

section Taken
variable (c : Chip)

@[simp] theorem taken_jobs : c.taken.jobs = c.jobs := by obtain ⟨_, _, h⟩ := taken_only c; rw [h]
@[simp] theorem taken_lane (k : Nat) : c.taken.lane k = c.lane k := by obtain ⟨_, _, h⟩ := taken_only c; rw [h]; rfl
@[simp] theorem taken_win (w : Nat) : c.taken.win w = c.win w := by obtain ⟨_, _, h⟩ := taken_only c; rw [h]; rfl
@[simp] theorem taken_dac (ch : Nat) : c.taken.dac ch = c.dac ch := by obtain ⟨_, _, h⟩ := taken_only c; rw [h]; rfl
@[simp] theorem taken_desc (p : Nat) : c.taken.desc p = c.desc p := by obtain ⟨_, _, h⟩ := taken_only c; rw [h]; rfl

/-- HB_CMD_CNT, its SAT bit and EVT_SAT_PEND apart, the parameters are those before the command. -/
theorem taken_reg_of (a : Nat) (h : a < 0x104 ∨ (0x104 < a ∧ a < 0x510) ∨ 0x518 < a) : c.taken.reg a = c.reg a :=
  taken_reg c a (by omega) (by omega) (by omega)

theorem taken_view_of (a : Nat) (h : a < 0x104 ∨ (0x104 < a ∧ a < 0x510) ∨ 0x518 < a) : c.taken.view a = c.view a := by
  have hreg : c.taken.raw a = c.raw a := BitVec.eq_of_toNat_eq (taken_reg_of c a h)
  unfold Chip.view
  rw [taken_staged, hreg]

@[simp] theorem taken_reg_laneA (k o : Nat) : c.taken.reg (laneA k o) = c.reg (laneA k o) := taken_reg_of c _ (by unfold laneA; omega)
@[simp] theorem taken_reg_fmsA (k o : Nat) : c.taken.reg (fmsA k o) = c.reg (fmsA k o) := taken_reg_of c _ (by unfold fmsA; omega)
@[simp] theorem taken_reg_amsA (k o : Nat) : c.taken.reg (amsA k o) = c.reg (amsA k o) := taken_reg_of c _ (by unfold amsA; omega)
@[simp] theorem taken_reg_dacA (ch o : Nat) : c.taken.reg (dacA ch o) = c.reg (dacA ch o) := taken_reg_of c _ (by unfold dacA; omega)
@[simp] theorem taken_reg_feA (fe o : Nat) : c.taken.reg (feA fe o) = c.reg (feA fe o) := taken_reg_of c _ (by unfold feA; omega)
@[simp] theorem taken_view_fmsA (k o : Nat) : c.taken.view (fmsA k o) = c.view (fmsA k o) := taken_view_of c _ (by unfold fmsA; omega)
@[simp] theorem taken_view_amsA (k o : Nat) : c.taken.view (amsA k o) = c.view (amsA k o) := taken_view_of c _ (by unfold amsA; omega)
@[simp] theorem taken_view_dacA (ch o : Nat) : c.taken.view (dacA ch o) = c.view (dacA ch o) := taken_view_of c _ (by unfold dacA; omega)

@[simp] theorem taken_almSlot : c.taken.almSlot = c.almSlot := taken_reg_of c _ (by omega)
@[simp] theorem taken_partsOf (u : Nat) : c.taken.partsOf u = c.partsOf u := by simp [Chip.partsOf]
@[simp] theorem taken_sketchBad : c.taken.sketchBad = c.sketchBad := by simp [Chip.sketchBad, taken_reg_of]
@[simp] theorem taken_laneHeld (k : Nat) : c.taken.laneHeld k = c.laneHeld k := by simp [Chip.laneHeld]
@[simp] theorem taken_laneCombines (k : Nat) : c.taken.laneCombines k = c.laneCombines k := by simp [Chip.laneCombines, Chip.laneWin2, Chip.field]
@[simp] theorem taken_laneSecond (k : Nat) : c.taken.laneSecond k = c.laneSecond k := by simp [Chip.laneSecond]
@[simp] theorem taken_lanesOn (w : Nat) (p : Bool) : c.taken.lanesOn w p = c.lanesOn w p := by
  simp [Chip.lanesOn, Chip.laneWin, Chip.laneWin2, Chip.field]
@[simp] theorem taken_followSlot (k : Nat) : c.taken.followSlot k = c.followSlot k := by simp [Chip.followSlot, Chip.followJobs]
@[simp] theorem taken_followLane (k : Nat) : c.taken.followLane k = c.followLane k := by simp [Chip.followLane, Chip.followJobs]
@[simp] theorem taken_logRdOk (v : Nat) : c.taken.logRdOk v = c.logRdOk v := by
  unfold Chip.logRdOk Chip.logFill
  rw [taken_reg_of c 0xB09 (by omega), taken_reg_of c 0xB08 (by omega)]
@[simp] theorem taken_fmsLaneBad (k v : Nat) : c.taken.fmsLaneBad k v = c.fmsLaneBad k v := by simp [Chip.fmsLaneBad]
@[simp] theorem taken_amsLaneBad (k v : Nat) : c.taken.amsLaneBad k v = c.amsLaneBad k v := by simp [Chip.amsLaneBad]
@[simp] theorem taken_destBad (fm : Bool) (k v : Nat) : c.taken.destBad fm k v = c.destBad fm k v := by simp [Chip.destBad, Chip.progTaken]
@[simp] theorem taken_dacAlarm (ch : Nat) : c.taken.dacAlarm ch = c.dacAlarm ch := by simp [Chip.dacAlarm, Chip.bit, taken_reg_of]
@[simp] theorem taken_dacInjects (ch : Nat) : c.taken.dacInjects ch = c.dacInjects ch := by simp [Chip.dacInjects]

end Taken

end Sys2Proof.Proofs
end

section
/-! The effect of a write by the block of its parameter (R10, R11, and the parameter tables of the chapters). -/

namespace Sys2Proof.Proofs

open Sys2Proof Sys2Proof.Machine Sys2Proof.Laws

/-- A write to an RW, RWS or WO parameter takes the field's bits. -/
theorem writeParam_field {a : Nat} {r : PRow} (c : Chip) (v : Nat) (h : rowAt a = some r) (ha : r.acc = .rw ∨ r.acc = .rws ∨ r.acc = .wo)
    (hb : ¬ isBankNext a) : c.writeParam a v = c.wrValue a (v &&& maskAt a) := by
  unfold isBankNext at hb
  rw [maskAt_of_row h]
  unfold Chip.writeParam
  rw [h]
  dsimp only
  rw [if_neg hb]
  rcases ha with ha | ha | ha <;> rw [ha]

/-! Clocks, power, start-up and front ends. -/

/-- In pages 0x02 to 0x04 a write of a value that is not refused waits. -/
theorem wrValue_low (c : Chip) (a v : Nat) (ha : 2 ≤ a / 256 ∧ a / 256 < 5) (hb : c.badValue a v = false) : c.wrValue a v = (0, c.stage a v) := by
  have hlo : 0x200 ≤ a := by omega
  have hhi : a < 0x500 := by omega
  unfold Chip.wrValue
  generalize a / 256 = p at ha ⊢
  simp (disch := omega) only [hb, ↓if_neg, Bool.false_eq_true, if_false]
  rfl

theorem badValue_clk (c : Chip) (a v : Nat) (ha : a / 256 = 2) : c.badValue a v = clkBad (a % 256) v := by
  unfold Chip.badValue
  simp (disch := omega) only [↓if_neg, ↓if_pos]

theorem badValue_fe (c : Chip) (fe o v : Nat) (hf : fe < 2) (ho : o < 256) : c.badValue (feA fe o) v = c.feBad (feA fe o) v := by
  have hA : feA fe o = 0x800 + 0x100 * fe + o := rfl
  unfold Chip.badValue
  simp (disch := omega) only [↓if_neg, ↓if_pos]

/-- Which path, mode and attenuation values of a front end are refused (Table 02-7). -/
theorem feBad_feA (c : Chip) (fe o v : Nat) (ho : o < 5) : c.feBad (feA fe o) v = if o = 2 then v == 3 else if o = 4 then v == 31 else false := by
  have hq : feA fe o % 256 = o := by unfold feA; omega
  unfold Chip.feBad
  simp (disch := omega) only [hq, ↓if_neg]

/-- A front end's parameter but FE_INJ_CTRL waits where its value is not refused. -/
theorem wrValue_fe (c : Chip) (fe o v : Nat) (hf : fe < 2) (ho : o < 256) (h20 : o ≠ 0x20) (hb : c.feBad (feA fe o) v = false) :
    c.wrValue (feA fe o) v = (0, c.stage (feA fe o) v) := by
  have hA : feA fe o = 0x800 + 0x100 * fe + o := rfl
  have hp : feA fe o / 256 = 8 + fe := by omega
  have hq : feA fe o % 256 = o := by omega
  have hb' := (badValue_fe c fe o v hf ho).trans hb
  unfold Chip.wrValue
  simp only [hp, hq, hb']
  generalize feA fe o = a at hA
  clear hp hq
  simp (disch := omega) only [↓if_neg, Bool.false_eq_true, if_false]
  rfl

/-! Windows, lanes, slots and control outputs. -/

theorem wrValue_win (c : Chip) (w o v : Nat) (hw : w < 12) (ho : o < 256) (h17 : o ≠ 0x17) : c.wrValue (winA w o) v =
    if o = 0 then c.wrCentre w v else if o = 1 then c.wrSrc w v else if o = 8 then c.wrExport w v else if o = 0x10 then c.wrCapCtrl w v
    else (0, c.put (winA w o) v) := by
  have hA : winA w o = 0x1000 + 0x100 * w + o := rfl
  have hp : winA w o / 256 = 16 + w := by omega
  have hq : winA w o % 256 = o := by omega
  have hb : c.badValue (winA w o) v = false := by
    unfold Chip.badValue
    simp (disch := omega) only [↓if_neg, ↓if_pos, hq]
    simp [h17]
  unfold Chip.wrValue
  simp only [hp, hq, hb]
  generalize winA w o = a at hA
  clear hp hq hb
  simp (disch := omega) only [↓if_neg, ↓if_pos, Bool.false_eq_true, if_false, Nat.add_sub_cancel_left]
  rfl

theorem wrValue_lane (c : Chip) (k o v : Nat) (hk : k < 160) (ho : o < 16) : c.wrValue (laneA k o) v = c.wrLane k o v := by
  have hA : laneA k o = 0x4000 + 16 * k + o := rfl
  have hp : 0x40 ≤ laneA k o / 256 ∧ laneA k o / 256 ≤ 0x49 := by omega
  have hk' : (laneA k o - 0x4000) / 16 = k := by omega
  have hq : laneA k o % 256 % 16 = o := by omega
  have hb : c.badValue (laneA k o) v = false := by
    unfold Chip.badValue
    generalize laneA k o / 256 = p at hp ⊢
    simp (disch := omega) only [↓if_neg]
  unfold Chip.wrValue
  simp only [hk', hq, hb]
  generalize laneA k o / 256 = p at hp ⊢
  simp (disch := omega) only [↓if_neg, ↓if_pos, Bool.false_eq_true, if_false]

theorem wrValue_fms (c : Chip) (k o v : Nat) (hk : k < 16) (ho : o < 2) :
    c.wrValue (fmsA k o) v = if o = 0 then c.wrFmsLane k v else c.wrFmsDest k v := by
  have hA : fmsA k o = 0x5000 + 16 * k + o := rfl
  have hp : fmsA k o / 256 = 0x50 := by omega
  have hk' : fmsA k o % 256 / 16 = k := by omega
  have hq : fmsA k o % 256 % 16 = o := by omega
  have hb : c.badValue (fmsA k o) v = false := by
    unfold Chip.badValue fmsBad
    simp (disch := omega) only [↓if_neg, ↓if_pos]
  unfold Chip.wrValue
  simp only [hp, hk', hq, hb]
  generalize fmsA k o = a at hA
  clear hp hk' hq hb
  obtain rfl | rfl : o = 0 ∨ o = 1 := by omega
  all_goals simp (disch := omega) only [↓if_neg, ↓if_pos, Bool.false_eq_true, if_false, and_self, if_true]

theorem wrValue_ams (c : Chip) (k o v : Nat) (hk : k < 8) (ho : o < 2) :
    c.wrValue (amsA k o) v = if o = 0 then c.wrAmsLane k v else c.wrAmsDest k v := by
  have hA : amsA k o = 0x5100 + 16 * k + o := rfl
  have hp : amsA k o / 256 = 0x51 := by omega
  have h80 : amsA k o % 256 < 0x80 := by omega
  have hk' : amsA k o % 256 / 16 = k := by omega
  have hq : amsA k o % 256 % 16 = o := by omega
  have hb : c.badValue (amsA k o) v = false := by
    unfold Chip.badValue amsBad
    simp (disch := omega) only [↓if_neg, ↓if_pos]
  unfold Chip.wrValue
  simp only [hp, hk', hq, hb]
  generalize amsA k o % 256 = q at h80 ⊢
  generalize amsA k o = a at hA
  clear hp hk' hq hb
  obtain rfl | rfl : o = 0 ∨ o = 1 := by omega
  all_goals simp (disch := omega) only [↓if_neg, ↓if_pos, Bool.false_eq_true, if_false, h80, and_self, if_true]

theorem wrValue_dac (c : Chip) (ch o v : Nat) (hc : ch < 4) (ho : o < 2) :
    c.wrValue (dacA ch o) v = if o = 0 then c.wrDacCode ch v else c.wrDacRange ch v := by
  have hA : dacA ch o = 0xE00 + 16 * ch + o := rfl
  have hp : dacA ch o / 256 = 0x0E := by omega
  have h40 : dacA ch o % 256 < 0x40 := by omega
  have hk' : dacA ch o % 256 / 16 = ch := by omega
  have hq : dacA ch o % 256 % 16 = o := by omega
  have hb : c.badValue (dacA ch o) v = false := by
    unfold Chip.badValue dacBad
    simp (disch := omega) only [↓if_neg, ↓if_pos]
  unfold Chip.wrValue
  simp only [hp, hk', hq, hb]
  generalize dacA ch o % 256 = q at h40 ⊢
  generalize dacA ch o = a at hA
  clear hp hk' hq hb
  obtain rfl | rfl : o = 0 ∨ o = 1 := by omega
  all_goals simp (disch := omega) only [↓if_neg, ↓if_pos, Bool.false_eq_true, if_false, h40, and_self, if_true]

end Sys2Proof.Proofs
end

section
/-! Writes that wait for the next tick boundary (R11, R32). -/

namespace Sys2Proof.Proofs

open Sys2Proof Sys2Proof.Machine Sys2Proof.Laws

/-- A write to `a` takes the bits of its field: access RW, RWS or WO, and not LANE_BANK_NEXT. -/
def takesField (a : Nat) : Prop := (∃ r, rowAt a = some r ∧ (r.acc = .rw ∨ r.acc = .rws ∨ r.acc = .wo)) ∧ ¬ isBankNext a

theorem takesField_of_row {a : Nat} {r : PRow} (h : rowAt a = some r) (ha : r.acc = .rw ∨ r.acc = .rws ∨ r.acc = .wo) (hb : a < 0x4000 ∨ a % 16 < 4) :
    takesField a := ⟨⟨r, h, ha⟩, fun ⟨hlo, _, h4⟩ => by omega⟩

theorem writeParam_takesField (c : Chip) {a : Nat} (v : Nat) (h : takesField a) : c.writeParam a v = c.wrValue a (v &&& maskAt a) := by
  obtain ⟨⟨r, hr, ha⟩, hb⟩ := h
  exact writeParam_field c v hr ha hb

/-- The field bits of a value under a mask of `w` bits. -/
theorem and_maskAt {a : Nat} (w : Nat) (h : maskAt a = 2 ^ w - 1) (v : Nat) : v &&& maskAt a = v % 2 ^ w := by
  rw [h, Nat.and_two_pow_sub_one_eq_mod]

theorem and_full {a : Nat} (h : maskAt a = 2 ^ 32 - 1) (v : Word) : v.toNat &&& maskAt a = v.toNat := by
  rw [and_maskAt 32 h, Nat.mod_eq_of_lt v.isLt]

/-- A command that is carried out, its effect leaving CTL powered, the key slots and the stretch alone, ends with the chip of its effect, the reply held. -/
theorem ends_of_effect (i : Instr) (s : State) {vs : List Nat} {fx : HostFx} (h : s.chip.hostReady vs = true) (hx : exec i s = .next (s.command i))
    (e : hostFx i = some (vs, fx)) {b : Byte} {l : List Byte} {d : Chip} (hf : fx s.keys s.chip.taken = (b :: l, s.keys, d)) (hc : d.ctlOn = true)
    (hs : d.bus.stretch = none) {P : Chip → Prop} (hP : P ({ d with bus := { d.bus with reply := b :: l, complete := true } }.put 0x508 3)) : Ends i s P :=
  ⟨_, by unfold Becomes; rw [hx, command_effect i vs fx e s h b l d hf hc hs], hP⟩

/-- A one-entry write that is accepted ends with the chip of its effect, the reply held. -/
theorem ends_of_write (i : Instr) (s : State) {a n : Nat} (h : s.chip.hostReady [2, 3] = true) (hx : exec i s = .next (s.command i))
    (e : hostFx i = some (native, one a n)) {d : Chip} (hw : s.chip.taken.writeParam a n = (0, d)) (hc : d.ctlOn = true) (hs : d.bus.stretch = none)
    {P : Chip → Prop} (hP : P ({ d with bus := { d.bus with reply := writeDone, complete := true } }.put 0x508 3)) : Ends i s P :=
  ends_of_effect i s h hx e (b := 0) (l := [0x01, 0xFF, 0xFF]) (by simp only [one, plain, writeOne, hw, writeReply_ok]; rfl) hc hs hP

/-- A one-entry write whose field waits. -/
theorem waits_of_wrValue (i : Instr) (s : State) (a n : Nat) (h : s.chip.hostReady [2, 3] = true) (hx : exec i s = .next (s.command i))
    (e : hostFx i = some (native, one a n)) (ha : takesField a)
    (hw : s.chip.taken.wrValue a (n &&& maskAt a) = (0, s.chip.taken.stage a (n &&& maskAt a))) : Waits i s a n :=
  waits_of i s a n h hx e (maskAt_lt a) ((writeParam_takesField _ n ha).trans hw)

/-- A one-entry write whose field is in force at once. -/
theorem acts_of_wrValue (i : Instr) (s : State) (a n : Nat) (h : s.chip.hostReady [2, 3] = true) (hx : exec i s = .next (s.command i))
    (e : hostFx i = some (native, one a n)) (ha : takesField a) (h8 : a ≠ 0x508)
    (hw : s.chip.taken.wrValue a (n &&& maskAt a) = (0, s.chip.taken.put a (n &&& maskAt a))) : Acts i s a n :=
  acts_put i s a n (n &&& maskAt a) h hx e h8 (by rw [Nat.and_assoc, Nat.and_self]) ((writeParam_takesField _ n ha).trans hw)

/-- A one-entry write whose field is refused. -/
theorem refuses_of_wrValue (i : Instr) (s : State) (a n : Nat) (h : s.chip.hostReady [2, 3] = true) (hx : exec i s = .next (s.command i))
    (e : hostFx i = some (native, one a n)) (ha : takesField a)
    (hw : s.chip.taken.wrValue a (n &&& maskAt a) = (rBad, s.chip.taken)) : Refuses i s ([0x0A, 0x00] ++ le 2 a) :=
  refuses_of i s a n rBad h hx e (by decide) ((writeParam_takesField _ n ha).trans hw)

/-! The rows of the parameters that these writes name. -/

theorem rowAt_win {w o : Nat} (hw : w < 12) (ho : o < 256) : rowAt (winA w o) = winRows.find? (·.covers o) :=
  rowAt_addr (g := winRegion) (by simp [regions, wideRegions]) ⟨hw, Nat.zero_le _, by simpa [winRegion] using ho⟩

theorem rowAt_lane {k o : Nat} (hk : k < 160) (ho : o < 16) : rowAt (laneA k o) = laneRows.find? (·.covers o) :=
  rowAt_addr (g := laneRegion) (by simp [regions, wideRegions]) ⟨hk, Nat.zero_le _, by simpa [laneRegion] using ho⟩

theorem rowAt_fms {k o : Nat} (hk : k < 16) (ho : o < 16) : rowAt (fmsA k o) = fmsRows.find? (·.covers o) :=
  rowAt_addr (g := fmsRegion) (List.mem_append_left _ (by simp [pageRegions])) ⟨hk, Nat.zero_le _, by simpa [fmsRegion] using ho⟩

theorem rowAt_ams {k o : Nat} (hk : k < 8) (ho : o < 16) : rowAt (amsA k o) = amsRows.find? (·.covers o) :=
  rowAt_addr (g := amsRegion) (List.mem_append_left _ (by simp [pageRegions])) ⟨hk, Nat.zero_le _, by simpa [amsRegion] using ho⟩

theorem rowAt_dac {ch o : Nat} (hc : ch < 4) (ho : o < 16) : rowAt (dacA ch o) = dacRows.find? (·.covers o) :=
  rowAt_addr (g := dacRegion) (List.mem_append_left _ (by simp [pageRegions])) ⟨hc, Nat.zero_le _, by simpa [dacRegion] using ho⟩

theorem rowAt_fe {fe o : Nat} (hf : fe < 2) (ho : o < 0xE0) : rowAt (feA fe o) = feRows.find? (·.covers o) := by
  obtain rfl | rfl : fe = 0 ∨ fe = 1 := by omega
  · exact rowAt_addr (g := pageRegion feRows 8) (i := 0) (List.mem_append_left _ (by simp [pageRegions])) ⟨Nat.one_pos, Nat.zero_le _, by simp [pageRegion]; omega⟩
  · exact rowAt_addr (g := ⟨feRows, 0x900, 1, 0xE0, 0⟩) (i := 0) (List.mem_append_left _ (by simp [pageRegions])) ⟨Nat.one_pos, Nat.zero_le _, by simpa using ho⟩

/-! Rows of repeated blocks. -/

theorem winCentre_row {w : Nat} (hw : w < 12) : rowAt (winA w 0) = some (prow 0x00 0xFFFFFFFF .rw 0x0) := (rowAt_win hw (by decide)).trans rfl
theorem winSrc_row {w : Nat} (hw : w < 12) : rowAt (winA w 1) = some (prow 0x01 0x3 .rw 0x3) := (rowAt_win hw (by decide)).trans rfl
theorem fmsLane_row {k : Nat} (hk : k < 16) : rowAt (fmsA k 0) = some (prow 0x00 0xFF .rw 0xFF) := (rowAt_fms hk (by decide)).trans rfl
theorem fmsDest_row {k : Nat} (hk : k < 16) : rowAt (fmsA k 1) = some (prow 0x01 0xF .rw 0xF) := (rowAt_fms hk (by decide)).trans rfl
theorem amsLane_row {k : Nat} (hk : k < 8) : rowAt (amsA k 0) = some (prow 0x00 0xFF .rw 0xFF) := (rowAt_ams hk (by decide)).trans rfl
theorem amsDest_row {k : Nat} (hk : k < 8) : rowAt (amsA k 1) = some (prow 0x01 0xF .rw 0xF) := (rowAt_ams hk (by decide)).trans rfl
theorem laneNco_row {k : Nat} (hk : k < 160) : rowAt (laneA k 1) = some (prow 0x01 0xFFFFFFFF .rw 0x0) := (rowAt_lane hk (by decide)).trans rfl
theorem dacCode_row {ch : Nat} (hc : ch < 4) : rowAt (dacA ch 0) = some (prow 0x00 0xFFFF .rw 0x0) := (rowAt_dac hc (by decide)).trans rfl
theorem dacRange_row {ch : Nat} (hc : ch < 4) : rowAt (dacA ch 1) = some (prow 0x01 0x1 .rw 0x0) := (rowAt_dac hc (by decide)).trans rfl

/-- A plain RW parameter below the lanes, or in the first four of a lane or slot. -/
theorem takesField_rw {a m d o : Nat} (hr : rowAt a = some (prow o m .rw d)) (hb : a < 0x4000 ∨ a % 16 < 4) : takesField a :=
  takesField_of_row hr (.inl rfl) hb

/-! Clocks, power modes and front ends. -/

section
variable (s : State) (v : Word) (h : s.chip.hostReady [2, 3] = true)
include h

theorem waits_clk (a : Nat) (r : PRow) (hr : rowAt a = some r) (ha : r.acc = .rw) (hp : a / 256 = 0x02) (hb : clkBad (a % 256) (v.toNat &&& r.mask) = false) :
    Waits (.registerWrite a v) s a v.toNat := by
  rw [← maskAt_of_row hr] at hb
  exact waits_of_wrValue _ s a v.toNat h rfl rfl (takesField_of_row hr (.inl ha) (by omega))
    (wrValue_low _ a _ (by omega) ((badValue_clk _ a _ hp).trans hb))

end

/-! Single parameters. -/

/-- No value of these is refused by the value alone. -/
theorem badValue_single (c : Chip) (v : Nat) : ∀ a ∈ [0x40B, 0x600, 0x640, 0xA00, 0xB09, 0xC05], c.badValue a v = false := by
  simp [Chip.badValue, calBad, swtBad, Chip.galBad]
theorem wrValue_pwrMode (c : Chip) (v : Nat) :
    c.wrValue 0x300 v = if v = 3 ∨ (v = 1 ∧ c.sketchBad = true) then (rBad, c) else (0, c.stage 0x300 v) := by
  simp [Chip.wrValue, Chip.badValue, Chip.pwrBad, Chip.no, Chip.yes, rOk]
theorem wrValue_jrnlCtrl (c : Chip) (v : Nat) : c.wrValue 0x40B v = (0, c.stage 0x40B v) := by simp [Chip.wrValue, badValue_single, Chip.yes, rOk]
theorem wrValue_strEn (c : Chip) (v : Nat) : c.wrValue 0x600 v = c.wrStrEn v := by simp [Chip.wrValue, badValue_single]
theorem wrValue_audCfg (c : Chip) (v : Nat) : c.wrValue 0x640 v = (0, c.stage 0x640 v) := by simp [Chip.wrValue, badValue_single, Chip.yes, rOk]
theorem wrValue_calCtrl (c : Chip) (v : Nat) : c.wrValue 0xA00 v = c.wrCalCtrl v := by simp [Chip.wrValue, badValue_single]
theorem wrValue_logRd (c : Chip) (v : Nat) : c.wrValue 0xB09 v = c.wrLogRd v := by simp [Chip.wrValue, badValue_single]
theorem wrValue_galCtrl (c : Chip) (v : Nat) : c.wrValue 0xC05 v = c.wrGalCtrl v := by simp [Chip.wrValue, badValue_single]
theorem wrValue_lnkCfg (c : Chip) (v : Nat) : c.wrValue 0xD01 v = c.wrLnkCfg v := by simp [Chip.wrValue]
theorem wrValue_lnkFreq (c : Chip) (v : Nat) : c.wrValue 0xD02 v = c.wrLnkFreq v := by simp [Chip.wrValue]

theorem pwrMode_row : rowAt 0x300 = some (prow 0x00 0x3 .rw 0x0) := rfl

theorem takesField_pwrMode : takesField 0x300 := takesField_of_row pwrMode_row (.inl rfl) (by decide)
theorem takesField_jrnlCtrl : takesField 0x40B := takesField_of_row (r := prow 0x0B 0x1 .wo 0x0) rfl (.inr (.inr rfl)) (by decide)
theorem takesField_strEn : takesField 0x600 := takesField_of_row (r := prow 0x00 0x1 .rw 0x0) rfl (.inl rfl) (by decide)
theorem takesField_audCfg : takesField 0x640 := takesField_of_row (r := prow 0x40 0xF .rw 0x0) rfl (.inl rfl) (by decide)
theorem takesField_calCtrl : takesField 0xA00 := takesField_of_row (r := prow 0x00 0x7 .wo 0x0) rfl (.inr (.inr rfl)) (by decide)
theorem takesField_logRd : takesField 0xB09 := takesField_of_row (r := prow 0x09 0xFFFFFFFF .rw 0x0) rfl (.inl rfl) (by decide)
theorem takesField_galCtrl : takesField 0xC05 := takesField_of_row (r := prow 0x05 0x33FFF .wo 0x0) rfl (.inr (.inr rfl)) (by decide)
theorem takesField_lnkCfg : takesField 0xD01 := takesField_of_row (r := prow 0x01 0x1FFFF .rws 0x1041) rfl (.inr (.inl rfl)) (by decide)
theorem takesField_lnkFreq : takesField 0xD02 := takesField_of_row (r := prow 0x02 0xFFFFFFFF .rw 0x33C134E0) rfl (.inl rfl) (by decide)

section
variable (s : State) (v : Word) (h : s.chip.hostReady [2, 3] = true)
include h

/-! Power modes. -/

theorem waits_pwrModeRun : Waits .pwrModeRun s 0x300 0 := waits_of_wrValue _ s 0x300 0 h rfl rfl takesField_pwrMode (wrValue_pwrMode _ _)

theorem waits_pwrModeDeepSleep : Waits .pwrModeDeepSleep s 0x300 2 := waits_of_wrValue _ s 0x300 2 h rfl rfl takesField_pwrMode (wrValue_pwrMode _ _)

theorem waits_pwrModeSketch (hb : s.chip.sketchBad = false) : Waits .pwrModeSketch s 0x300 1 :=
  waits_of_wrValue _ s 0x300 1 h rfl rfl takesField_pwrMode ((wrValue_pwrMode _ _).trans (if_neg (by simp [hb, maskAt_of_row pwrMode_row, prow])))

theorem refuses_pwrModeSketch (hb : s.chip.sketchBad = true) : Refuses .pwrModeSketch s ([0x0A, 0x00] ++ le 2 0x300) :=
  refuses_of_wrValue _ s 0x300 1 h rfl rfl takesField_pwrMode ((wrValue_pwrMode _ _).trans (if_pos (by simp [hb, maskAt_of_row pwrMode_row, prow])))

/-! Front ends. -/

theorem waits_fePathEn (fe : Nat) (hf : fe < 2) : Waits (.fePathEnWrite fe v) s (feA fe 0) v.toNat := by
  have hr : rowAt (feA fe 0) = some (prow 0x00 0x7 .rw 0x7) := (rowAt_fe hf (by decide)).trans rfl
  refine waits_of_wrValue _ s _ v.toNat h rfl (if_pos hf) (takesField_of_row hr (.inl rfl) (.inl (by unfold feA; omega)))
    (wrValue_fe _ fe 0 _ hf (by decide) (by decide) ?_)
  rw [feBad_feA _ fe 0 _ (by decide)]; rfl

theorem waits_feAgcMode (fe : Nat) (hf : fe < 2) (hv : v.toNat % 4 ≠ 3) : Waits (.feAgcModeWrite fe v) s (feA fe 2) v.toNat := by
  have hr : rowAt (feA fe 2) = some (prow 0x02 0x3 .rw 0x0) := (rowAt_fe hf (by decide)).trans rfl
  refine waits_of_wrValue _ s _ v.toNat h rfl (if_pos hf) (takesField_of_row hr (.inl rfl) (.inl (by unfold feA; omega)))
    (wrValue_fe _ fe 2 _ hf (by decide) (by decide) ?_)
  rw [feBad_feA _ fe 2 _ (by decide), and_maskAt 2 (maskAt_of_row hr)]
  simpa using hv

theorem waits_feAttnMan (fe : Nat) (hf : fe < 2) (hv : v.toNat % 32 ≠ 31) : Waits (.feAttnManWrite fe v) s (feA fe 4) v.toNat := by
  have hr : rowAt (feA fe 4) = some (prow 0x04 0x1F .rw 0x1E) := (rowAt_fe hf (by decide)).trans rfl
  refine waits_of_wrValue _ s _ v.toNat h rfl (if_pos hf) (takesField_of_row hr (.inl rfl) (.inl (by unfold feA; omega)))
    (wrValue_fe _ fe 4 _ hf (by decide) (by decide) ?_)
  rw [feBad_feA _ fe 4 _ (by decide), and_maskAt 5 (maskAt_of_row hr)]
  simpa using hv

/-! Windows. -/

theorem waits_winCentre (w : Nat) (hw : w < 12) (hv : v.toNat ≤ 0x80000000) : Waits (.winCentreWrite w v) s (winA w 0) v.toNat := by
  refine waits_of_wrValue _ s _ v.toNat h rfl (if_pos hw) (takesField_rw (winCentre_row hw) (by unfold winA; omega)) ?_
  rw [wrValue_win _ w 0 _ hw (by decide) (by decide), and_full (maskAt_of_row (winCentre_row hw)), if_pos rfl, Chip.wrCentre, if_neg (by omega)]
  rfl

omit h in
/-- WIN_SRC with no lane on the window (R82): 2 is refused, and 3 while a job of its samples holds the window. -/
theorem wrValue_winSrc (w : Nat) (hw : w < 12) (hl : s.chip.lanesOn w false = []) (hv : v.toNat % 4 ≠ 2)
    (hj : v.toNat % 4 = 3 → (s.chip.win w).expJob = none ∧ (s.chip.win w).capJob = none) :
    s.chip.taken.wrValue (winA w 1) (v.toNat &&& maskAt (winA w 1)) = (0, s.chip.taken.stage (winA w 1) (v.toNat &&& maskAt (winA w 1))) := by
  rw [wrValue_win _ w 1 _ hw (by decide) (by decide), and_maskAt 2 (maskAt_of_row (winSrc_row hw)), if_neg (by decide), if_pos rfl, Chip.wrSrc]
  simp only [taken_lanesOn, taken_win, hl, List.any_nil, List.isEmpty_nil, Nat.reducePow, Nat.mod_mod]
  rw [if_neg]
  · rfl
  · rintro (h2 | ⟨h3, hheld⟩ | hno)
    · exact hv h2
    · obtain ⟨he, hc⟩ := hj h3
      simp [he, hc] at hheld
    · cases hno

theorem waits_winSrc (w : Nat) (hw : w < 12) (hl : s.chip.lanesOn w false = []) (hv : v.toNat % 4 ≠ 2)
    (hj : v.toNat % 4 = 3 → (s.chip.win w).expJob = none ∧ (s.chip.win w).capJob = none) : Waits (.winSrcWrite w v) s (winA w 1) v.toNat :=
  waits_of_wrValue _ s _ v.toNat h rfl (if_pos hw) (takesField_rw (winSrc_row hw) (by unfold winA; omega)) (wrValue_winSrc s v w hw hl hv hj)

theorem refuses_winSrc (w : Nat) (hw : w < 12) (hv : v.toNat % 4 = 2) : Refuses (.winSrcWrite w v) s ([0x0A, 0x00] ++ le 2 (winA w 1)) := by
  refine refuses_of_wrValue _ s _ v.toNat h rfl (if_pos hw) (takesField_rw (winSrc_row hw) (by unfold winA; omega)) ?_
  rw [wrValue_win _ w 1 _ hw (by decide) (by decide), and_maskAt 2 (maskAt_of_row (winSrc_row hw)), if_neg (by decide), if_pos rfl, Chip.wrSrc]
  exact if_pos (.inl (by omega))

/-! Stream and audio ports, the journal and the coverage log. -/

omit h in
theorem strEn_bit : v.toNat &&& maskAt 0x600 = v.toNat % 2 := and_maskAt 1 rfl v.toNat

theorem waits_strEn (hv : v.toNat % 2 = 0 → (s.chip.jobs.any fun e => emits e.2.desc) = false) : Waits (.strEnWrite v) s 0x600 v.toNat := by
  refine waits_of_wrValue _ s 0x600 v.toNat h rfl rfl takesField_strEn ?_
  rw [wrValue_strEn, strEn_bit v, Chip.wrStrEn, taken_jobs, if_neg]
  · rfl
  · rintro ⟨h0, hjobs⟩
    rw [hv h0] at hjobs
    cases hjobs

theorem refuses_strEn (hv : v.toNat % 2 = 0) (hj : (s.chip.jobs.any fun e => emits e.2.desc) = true) :
    Refuses (.strEnWrite v) s ([0x0A, 0x00] ++ le 2 0x600) := by
  refine refuses_of_wrValue _ s 0x600 v.toNat h rfl rfl takesField_strEn ?_
  rw [wrValue_strEn, strEn_bit v, Chip.wrStrEn, taken_jobs, if_pos ⟨hv, hj⟩]
  rfl

theorem waits_audCfg : Waits (.audCfgWrite v) s 0x640 v.toNat := waits_of_wrValue _ s 0x640 _ h rfl rfl takesField_audCfg (wrValue_audCfg _ _)

theorem waits_jrnlCtrl : Waits (.bootJrnlCtrlWrite v) s 0x40B v.toNat := waits_of_wrValue _ s 0x40B _ h rfl rfl takesField_jrnlCtrl (wrValue_jrnlCtrl _ _)

theorem waits_logRd (hv : s.chip.logRdOk (v.toNat &&& maskAt 0xB09) = true) : Waits (.swtLogRdWrite v) s 0xB09 v.toNat := by
  refine waits_of_wrValue _ s 0xB09 _ h rfl rfl takesField_logRd ?_
  rw [wrValue_logRd, Chip.wrLogRd, taken_logRdOk, if_pos hv]
  rfl

/-! GAL_CTRL and CAL_CTRL. -/

/-- An operation of GAL_CTRL on an entry: 1 pin, 2 unpin, 3 delete (R248). -/
theorem waits_galCtrl (i : Instr) (e op : Nat) (he : e < 16384) (ho : op = 1 ∨ op = 2 ∨ op = 3) (hx : exec i s = .next (s.command i))
    (hf : hostFx i = some (native, one 0xC05 (e + op * 65536))) : Waits i s 0xC05 (e + op * 65536) := by
  have hm : e + op * 65536 &&& maskAt 0xC05 = e + op * 65536 := by
    have hlo : (e + op * 65536 &&& 0x33FFF) % 2 ^ 16 = e := by
      rw [Nat.and_mod_two_pow, show (e + op * 65536) % 2 ^ 16 = e by omega, show 0x33FFF % 2 ^ 16 = 2 ^ 14 - 1 from rfl, Nat.and_two_pow_sub_one_eq_mod]
      omega
    have hhi : (e + op * 65536 &&& 0x33FFF) / 2 ^ 16 = op := by
      rw [Nat.and_div_two_pow, show (e + op * 65536) / 2 ^ 16 = op by omega, show 0x33FFF / 2 ^ 16 = 2 ^ 2 - 1 from rfl, Nat.and_two_pow_sub_one_eq_mod]
      omega
    show e + op * 65536 &&& 0x33FFF = _
    omega
  refine waits_of_wrValue i s 0xC05 _ h hx hf takesField_galCtrl ?_
  rw [hm, wrValue_galCtrl, Chip.wrGalCtrl, if_neg]
  · rfl
  · unfold bits; omega

/-- A bit of CAL_CTRL where none waits. -/
theorem waits_calCtrl (i : Instr) (n : Nat) (hst : Tbl.find s.chip.staged 0xA00 = none) (hx : exec i s = .next (s.command i))
    (hf : hostFx i = some (native, one 0xA00 n)) : Waits i s 0xA00 n := by
  refine waits_of_wrValue i s 0xA00 n h hx hf takesField_calCtrl ?_
  rw [wrValue_calCtrl, Chip.wrCalCtrl, taken_staged, hst]
  exact congrArg (fun x => (0, s.chip.taken.stage 0xA00 x)) (Nat.or_zero _)

/-! The Studio link. -/

theorem waits_lnkFreq (hv : channelOk (s.chip.view 0xD01) v.toNat = true) : Waits (.lnkFreqWrite v) s 0xD02 v.toNat := by
  refine waits_of_wrValue _ s 0xD02 _ h rfl rfl takesField_lnkFreq ?_
  rw [wrValue_lnkFreq, and_full rfl, Chip.wrLnkFreq, taken_view_of _ _ (by decide), if_pos hv]
  rfl

theorem refuses_lnkFreq (hv : channelOk (s.chip.view 0xD01) v.toNat = false) : Refuses (.lnkFreqWrite v) s ([0x0A, 0x00] ++ le 2 0xD02) := by
  refine refuses_of_wrValue _ s 0xD02 _ h rfl rfl takesField_lnkFreq ?_
  rw [wrValue_lnkFreq, and_full rfl, Chip.wrLnkFreq, taken_view_of _ _ (by decide), hv]
  rfl

theorem waits_lnkCfg (hs : s.chip.reg 0xD00 = 0) (hb : lnkCfgBad (v.toNat &&& maskAt 0xD01) = false)
    (hc : channelOk (v.toNat &&& maskAt 0xD01) (s.chip.view 0xD02) = true) (hp : preambleOk (v.toNat &&& maskAt 0xD01) (s.chip.view 0xD04) = true) :
    Waits (.lnkCfgWrite v) s 0xD01 v.toNat := by
  refine waits_of_wrValue _ s 0xD01 _ h rfl rfl takesField_lnkCfg ?_
  have hm : (v.toNat &&& maskAt 0xD01) % 2 ^ 17 = v.toNat &&& maskAt 0xD01 := by rw [and_maskAt 17 rfl, Nat.mod_mod]
  rw [wrValue_lnkCfg, Chip.wrLnkCfg, hm, taken_reg_of _ _ (by decide), taken_view_of _ _ (by decide), taken_view_of _ _ (by decide), hs, hb, hc, hp]
  rfl

theorem refuses_lnkCfg (hs : s.chip.reg 0xD00 ≠ 0) : Refuses (.lnkCfgWrite v) s ([0x0A, 0x00] ++ le 2 0xD01) := by
  refine refuses_of_wrValue _ s 0xD01 _ h rfl rfl takesField_lnkCfg ?_
  rw [wrValue_lnkCfg, Chip.wrLnkCfg, taken_reg_of _ _ (by decide), if_pos (.inl hs)]
  rfl

/-! Slots. -/

theorem waits_fmsLane (k : Nat) (hk : k < 16) (hb : s.chip.fmsLaneBad k (v.toNat % 256) = false) : Waits (.fmsLaneWrite k v) s (fmsA k 0) v.toNat := by
  refine waits_of_wrValue _ s _ _ h rfl (if_pos hk) (takesField_rw (fmsLane_row hk) (.inr (by unfold fmsA; omega))) ?_
  rw [wrValue_fms _ k 0 _ hk (by decide), and_maskAt 8 (maskAt_of_row (fmsLane_row hk)), if_pos rfl, Chip.wrFmsLane]
  simp only [Nat.reducePow, Nat.mod_mod, taken_fmsLaneBad, hb]
  rfl

theorem waits_amsLane (k : Nat) (hk : k < 8) (hb : s.chip.amsLaneBad k (v.toNat % 256) = false) : Waits (.amsLaneWrite k v) s (amsA k 0) v.toNat := by
  refine waits_of_wrValue _ s _ _ h rfl (if_pos hk) (takesField_rw (amsLane_row hk) (.inr (by unfold amsA; omega))) ?_
  rw [wrValue_ams _ k 0 _ hk (by decide), and_maskAt 8 (maskAt_of_row (amsLane_row hk)), if_pos rfl, Chip.wrAmsLane]
  simp only [Nat.reducePow, Nat.mod_mod, taken_amsLaneBad, hb]
  rfl

end

/-- Settles O17, clause by clause. -/
theorem waitingWrites : Obligations.WaitingWrites := by
  refine ⟨fun s v h => ⟨waits_clk s v h, waits_pwrModeRun s h, waits_pwrModeDeepSleep s h, waits_pwrModeSketch s h, refuses_pwrModeSketch s h,
      waits_fePathEn s v h, waits_feAgcMode s v h, waits_feAttnMan s v h, waits_winCentre s v h, refuses_winSrc s v h, fun w hw hv hl => ?_,
      fun w hw hv hl he hc => ?_⟩,
    fun s v h => ⟨fun hv => ?_, fun _ hj => waits_strEn s v h fun _ => hj, refuses_strEn s v h, waits_audCfg s v h, waits_jrnlCtrl s v h, waits_logRd s v h,
      fun e he => ⟨?_, ?_, ?_⟩, fun hst => ⟨fun fe hf => ?_, ?_⟩, waits_lnkFreq s v h, refuses_lnkFreq s v h, waits_lnkCfg s v h, refuses_lnkCfg s v h,
      waits_fmsLane s v h, waits_amsLane s v h⟩⟩
  · exact waits_winSrc s v h w hw hl (by omega) (by omega)
  · exact waits_winSrc s v h w hw hl (by omega) fun _ => ⟨he, hc⟩
  · exact waits_strEn s v h (by omega)
  · exact waits_galCtrl s h (.galCtrlPin e) e 1 he (by decide) rfl (if_pos he)
  · exact waits_galCtrl s h (.galCtrlUnpin e) e 2 he (by decide) rfl (if_pos he)
  · exact waits_galCtrl s h (.galCtrlDelete e) e 3 he (by decide) rfl (if_pos he)
  · exact waits_calCtrl s h (.calCtrlLadderRun fe) (2 ^ fe) hst rfl (if_pos hf)
  · exact waits_calCtrl s h .calCtrlDacRestart 4 hst rfl rfl

end Sys2Proof.Proofs
end

section
/-! Writes in force at once: event masks, slot destinations, NCO words of stopped lanes, control output codes (R11, R109, R110, R523, R525). -/

namespace Sys2Proof.Proofs

open Sys2Proof Sys2Proof.Machine Sys2Proof.Laws

section
variable (s : State) (v : Word) (h : s.chip.hostReady [2, 3] = true)

/-! Event masks. -/

theorem wrValue_evtMask (c : Chip) (n v : Nat) (hn : n < 3) :
    c.wrValue (if n < 2 then 0x102 + n else 0x105) v = (0, c.put (if n < 2 then 0x102 + n else 0x105) v) := by
  obtain rfl | rfl | rfl : n = 0 ∨ n = 1 ∨ n = 2 := by omega
  all_goals simp [Chip.wrValue, Chip.badValue, Chip.wrEvt, Chip.yes, rOk]

theorem takesField_evtMask (n : Nat) (hn : n < 3) : takesField (if n < 2 then 0x102 + n else 0x105) := by
  obtain rfl | rfl | rfl : n = 0 ∨ n = 1 ∨ n = 2 := by omega
  · exact takesField_rw (a := 0x102) (o := 0x02) (m := 0xFFFFFFFF) (d := 0x40000) rfl (by decide)
  · exact takesField_rw (a := 0x103) (o := 0x03) (m := 0xFFFFFFFF) (d := 0x3000C01) rfl (by decide)
  · exact takesField_rw (a := 0x105) (o := 0x05) (m := 0xFF) (d := 0x0) rfl (by decide)

include h in
theorem acts_evtMask (n : Nat) (hn : n < 3) : Acts (.evtMaskWrite n v) s (if n < 2 then 0x102 + n else 0x105) v.toNat :=
  acts_of_wrValue _ s _ _ h rfl (if_pos hn) (takesField_evtMask n hn) (by split <;> omega) (wrValue_evtMask _ n _ hn)

/-! Slot destinations. -/

theorem wrValue_fmsDest (k : Nat) (hk : k < 16) : s.chip.taken.wrValue (fmsA k 1) (v.toNat &&& maskAt (fmsA k 1)) =
    if s.chip.destBad true k (v.toNat % 16) then (rBad, s.chip.taken) else (0, s.chip.taken.put (fmsA k 1) (v.toNat &&& maskAt (fmsA k 1))) := by
  rw [wrValue_fms _ k 1 _ hk (by decide), and_maskAt 4 (maskAt_of_row (fmsDest_row hk)), if_neg (by decide), Chip.wrFmsDest]
  simp only [Nat.reducePow, Nat.mod_mod, taken_destBad]
  rfl

theorem wrValue_amsDest (k : Nat) (hk : k < 8) : s.chip.taken.wrValue (amsA k 1) (v.toNat &&& maskAt (amsA k 1)) =
    if s.chip.destBad false k (v.toNat % 16) then (rBad, s.chip.taken) else (0, s.chip.taken.put (amsA k 1) (v.toNat &&& maskAt (amsA k 1))) := by
  rw [wrValue_ams _ k 1 _ hk (by decide), and_maskAt 4 (maskAt_of_row (amsDest_row hk)), if_neg (by decide), Chip.wrAmsDest]
  simp only [Nat.reducePow, Nat.mod_mod, taken_destBad]
  rfl

theorem takesField_fmsDest (k : Nat) (hk : k < 16) : takesField (fmsA k 1) := takesField_rw (fmsDest_row hk) (.inr (by unfold fmsA; omega))

include h in
theorem acts_fmsDest (k : Nat) (hk : k < 16) (hb : s.chip.destBad true k (v.toNat % 16) = false) : Acts (.fmsDestWrite k v) s (fmsA k 1) v.toNat :=
  acts_of_wrValue _ s _ _ h rfl (if_pos hk) (takesField_fmsDest k hk) (by unfold fmsA; omega)
    ((wrValue_fmsDest s v k hk).trans (if_neg (by rw [hb]; decide)))

include h in
theorem refuses_fmsDest (k : Nat) (hk : k < 16) (hb : s.chip.destBad true k (v.toNat % 16) = true) :
    Refuses (.fmsDestWrite k v) s ([0x0A, 0x00] ++ le 2 (fmsA k 1)) :=
  refuses_of_wrValue _ s _ _ h rfl (if_pos hk) (takesField_fmsDest k hk) ((wrValue_fmsDest s v k hk).trans (if_pos hb))

include h in
theorem acts_amsDest (k : Nat) (hk : k < 8) (hb : s.chip.destBad false k (v.toNat % 16) = false) : Acts (.amsDestWrite k v) s (amsA k 1) v.toNat :=
  acts_of_wrValue _ s _ _ h rfl (if_pos hk) (takesField_rw (amsDest_row hk) (.inr (by unfold amsA; omega))) (by unfold amsA; omega)
    ((wrValue_amsDest s v k hk).trans (if_neg (by rw [hb]; decide)))

/-! A lane's NCO word. -/

theorem takesField_laneNco (k : Nat) (hk : k < 160) : takesField (laneA k 1) := takesField_rw (laneNco_row hk) (.inr (by unfold laneA; omega))

/-- The write of LANE_NCO to a lane that is no second front and that no following owns (R109, R110). -/
theorem wrValue_laneNco (k : Nat) (hk : k < 160) (hv : (toSigned 32 v.toNat).natAbs ≤ 0x66580000) (h2 : s.chip.laneSecond k = false)
    (hf : s.chip.followLane k = false) : s.chip.taken.wrValue (laneA k 1) (v.toNat &&& maskAt (laneA k 1)) =
      if (s.chip.lane k).job.isSome && (s.chip.lane k).started then (0, s.chip.taken.stage (laneA k 1) (v.toNat &&& maskAt (laneA k 1)))
      else (0, s.chip.taken.put (laneA k 1) (v.toNat &&& maskAt (laneA k 1))) := by
  rw [wrValue_lane _ k 1 _ hk (by decide), and_full (maskAt_of_row (laneNco_row hk)), Chip.wrLane]
  simp only [Nat.one_ne_zero, if_false, if_true, taken_laneSecond, taken_followLane, taken_lane, h2, hf, Bool.or_false,
    decide_eq_false (Nat.not_lt.mpr hv), Bool.false_eq_true, Chip.laneHeld]
  rfl

include h in
theorem acts_laneNco (k : Nat) (hk : k < 160) (hv : (toSigned 32 v.toNat).natAbs ≤ 0x66580000) (h2 : s.chip.laneSecond k = false)
    (hf : s.chip.followLane k = false) (hstop : (s.chip.lane k).job = none ∨ (s.chip.lane k).started = false) :
    Acts (.laneNcoWrite k v) s (laneA k 1) v.toNat :=
  acts_of_wrValue _ s _ _ h rfl (if_pos hk) (takesField_laneNco k hk) (by unfold laneA; omega)
    ((wrValue_laneNco s v k hk hv h2 hf).trans (if_neg (by rcases hstop with e | e <;> simp [e])))

include h in
theorem waits_laneNco (k : Nat) (hk : k < 160) (hv : (toSigned 32 v.toNat).natAbs ≤ 0x66580000) (h2 : s.chip.laneSecond k = false)
    (hf : s.chip.followLane k = false) (hj : (s.chip.lane k).job ≠ none) (hr : (s.chip.lane k).started = true) :
    Waits (.laneNcoWrite k v) s (laneA k 1) v.toNat :=
  waits_of_wrValue _ s _ _ h rfl (if_pos hk) (takesField_laneNco k hk)
    ((wrValue_laneNco s v k hk hv h2 hf).trans (if_pos (by simp [hr, Option.isSome_iff_ne_none, hj])))

include h in
theorem refuses_laneNco (k : Nat) (hk : k < 160) (hv : 0x66580000 < (toSigned 32 v.toNat).natAbs) :
    Refuses (.laneNcoWrite k v) s ([0x0A, 0x00] ++ le 2 (laneA k 1)) := by
  refine refuses_of_wrValue _ s _ _ h rfl (if_pos hk) (takesField_laneNco k hk) ?_
  rw [wrValue_lane _ k 1 _ hk (by decide), and_full (maskAt_of_row (laneNco_row hk)), Chip.wrLane]
  simp only [Nat.one_ne_zero, if_false, if_true, decide_eq_true hv, Bool.true_or]
  rfl

/-! Control outputs. -/

theorem takesField_dac (ch o : Nat) (hc : ch < 4) (ho : o < 2) : takesField (dacA ch o) := by
  have hlow : dacA ch o < 0x4000 ∨ dacA ch o % 16 < 4 := .inl (by unfold dacA; omega)
  obtain rfl | rfl : o = 0 ∨ o = 1 := by omega
  · exact takesField_rw (dacCode_row hc) hlow
  · exact takesField_rw (dacRange_row hc) hlow

/-- The chip after a write of DAC_CODE: the code waits for an update edge, and the TCXO is asked for where no update clock runs (R529). -/
def afterCode (c : Chip) (ch v : Nat) : Chip :=
  let d := (c.put (dacA ch 0) v).modDac ch fun d => { d with pend := true, armed := true, hold := false }
  if d.updateClock then d else { d with clk := { d.clk with tcxoEn := true } }

/-- Only the register, the channel and the TCXO's request differ. -/
theorem afterCode_only (c : Chip) (ch v : Nat) : ∃ k, afterCode c ch v =
    { (c.put (dacA ch 0) v).modDac ch (fun d => { d with pend := true, armed := true, hold := false }) with clk := k } := by
  unfold afterCode
  dsimp only
  split
  · exact ⟨_, rfl⟩
  · exact ⟨_, rfl⟩

theorem dac_afterCode (c : Chip) (ch v : Nat) : (afterCode c ch v).dac ch = { c.dac ch with pend := true, armed := true, hold := false } := by
  obtain ⟨k, e⟩ := afterCode_only c ch v
  rw [e]
  exact tbl_get_set_same _ _ _ _

theorem tcxo_afterCode (c : Chip) (ch v : Nat) (h : c.reg 0x231 ≠ 2) : (afterCode c ch v).clk.tcxoEn = true := by
  have hoff : ((c.put (dacA ch 0) v).modDac ch fun d => { d with pend := true, armed := true, hold := false }).updateClock = false := by
    unfold Chip.updateClock
    have hreg : (c.put (dacA ch 0) v).reg 0x231 = c.reg 0x231 := reg_put_other _ _ _ _ (by unfold dacA; omega)
    exact beq_eq_false_iff_ne.mpr (fun e => h (hreg.symm.trans e))
  unfold afterCode
  dsimp only
  rw [hoff]
  rfl

theorem writeParam_dacCode (c : Chip) (ch v : Nat) (hc : ch < 4) :
    c.writeParam (dacA ch 0) v = (0, afterCode c ch (v &&& maskAt (dacA ch 0))) := by
  rw [writeParam_takesField c v (takesField_dac ch 0 hc (by decide)), wrValue_dac c ch 0 _ hc (by decide)]
  rfl

include h in
theorem acts_dacCode (ch : Nat) (hc : ch < 4) : Acts (.dacCodeWrite ch v) s (dacA ch 0) v.toNat := by
  obtain ⟨k, e⟩ := afterCode_only s.chip.taken ch (v.toNat &&& maskAt (dacA ch 0))
  refine acts_of _ s _ _ (v.toNat &&& maskAt (dacA ch 0)) h rfl (if_pos hc) (maskAt_lt _) (by unfold dacA; omega) _
    (by rw [Nat.and_assoc, Nat.and_self]) (writeParam_dacCode _ ch _ hc) ?_ ?_ ?_
  · rw [e]; rfl
  · rw [e]; exact taken_powered s _ h
  · rw [e]; exact taken_stretch s _ h

include h in
theorem ends_dacCode (ch : Nat) (hc : ch < 4) : Ends (.dacCodeWrite ch v) s fun c =>
    (c.dac ch).pend = true ∧ (c.dac ch).hold = false ∧ (s.chip.reg 0x231 ≠ 2 → c.clk.tcxoEn = true) := by
  obtain ⟨k, e⟩ := afterCode_only s.chip.taken ch (v.toNat &&& maskAt (dacA ch 0))
  have hd := dac_afterCode s.chip.taken ch (v.toNat &&& maskAt (dacA ch 0))
  refine ends_of_write (.dacCodeWrite ch v) s h rfl (if_pos hc) (writeParam_dacCode _ ch _ hc) ?_ ?_ ⟨congrArg DacSt.pend hd, congrArg DacSt.hold hd, fun hclk => ?_⟩
  · rw [e]; exact taken_powered s _ h
  · rw [e]; exact taken_stretch s _ h
  · exact tcxo_afterCode _ ch _ (by rwa [taken_reg_of _ _ (by decide)])

/-- The write of DAC_RANGE (R523, R532), in the terms of the state before the command. -/
theorem wrValue_dacRange (ch : Nat) (hc : ch < 4) : s.chip.taken.wrValue (dacA ch 1) (v.toNat &&& maskAt (dacA ch 1)) =
    if v.toNat % 2 = 1 ∧ ¬ s.chip.bit 0xE40 3 then (rBad, s.chip.taken)
    else if v.toNat % 2 = s.chip.view (dacA ch 1) then (0, s.chip.taken)
    else if s.chip.dacAlarm ch || (s.chip.dac ch).sine || s.chip.dacInjects ch then (rBad, s.chip.taken)
    else (0, s.chip.taken.stage (dacA ch 1) (v.toNat &&& maskAt (dacA ch 1))) := by
  have hbit : s.chip.taken.bit 0xE40 3 = s.chip.bit 0xE40 3 := congrArg (·.testBit 3) (taken_reg_of _ _ (by decide))
  rw [wrValue_dac _ ch 1 _ hc (by decide), and_maskAt 1 (maskAt_of_row (dacRange_row hc)), if_neg (by decide), Chip.wrDacRange]
  simp only [Nat.reducePow, Nat.mod_mod, taken_dacAlarm, taken_dac, taken_dacInjects, taken_view_dacA, hbit]
  rfl

include h in
theorem refuses_dacRange (ch : Nat) (hc : ch < 4) (hv : v.toNat % 2 = 1) (hb : s.chip.bit 0xE40 3 = false) :
    Refuses (.dacRangeWrite ch v) s ([0x0A, 0x00] ++ le 2 (dacA ch 1)) :=
  refuses_of_wrValue _ s _ _ h rfl (if_pos hc) (takesField_dac ch 1 hc (by decide)) ((wrValue_dacRange s v ch hc).trans (if_pos ⟨hv, by simp [hb]⟩))

include h in
theorem waits_dacRange (ch : Nat) (hc : ch < 4) (hb : v.toNat % 2 = 1 → s.chip.bit 0xE40 3 = true) (hv : v.toNat % 2 ≠ s.chip.view (dacA ch 1))
    (ha : s.chip.dacAlarm ch = false) (hs : (s.chip.dac ch).sine = false) (hi : s.chip.dacInjects ch = false) :
    Waits (.dacRangeWrite ch v) s (dacA ch 1) v.toNat := by
  refine waits_of_wrValue _ s _ _ h rfl (if_pos hc) (takesField_dac ch 1 hc (by decide)) ?_
  rw [wrValue_dacRange s v ch hc, if_neg (fun hno => hno.2 (hb hno.1)), if_neg hv, if_neg (by simp [ha, hs, hi])]

include h in
/-- A range that is already the one to come is accepted as it stands (log entry 48). -/
theorem accepts_dacRange (ch : Nat) (hc : ch < 4) (hb : v.toNat % 2 = 1 → s.chip.bit 0xE40 3 = true) (hv : v.toNat % 2 = s.chip.view (dacA ch 1)) :
    Accepts (.dacRangeWrite ch v) s := by
  refine ends_of_write (.dacRangeWrite ch v) s h rfl (if_pos hc) (d := s.chip.taken) ?_ (taken_powered s _ h) (taken_stretch s _ h) (replied_regs s _ _ [] fun _ _ => rfl)
  rw [writeParam_takesField _ _ (takesField_dac ch 1 hc (by decide)), wrValue_dacRange s v ch hc, if_neg (fun hno => hno.2 (hb hno.1)), if_pos hv]

end

/-- Settles O18, clause by clause. -/
theorem maskDestinationAndCodeWritesAct : Obligations.MaskDestinationAndCodeWritesAct := fun s v h =>
  ⟨acts_evtMask s v h, acts_fmsDest s v h, refuses_fmsDest s v h, acts_amsDest s v h,
    fun k hk hv h2 hf => ⟨acts_laneNco s v h k hk hv h2 hf, waits_laneNco s v h k hk hv h2 hf⟩, refuses_laneNco s v h,
    fun ch hc => ⟨acts_dacCode s v h ch hc, ends_dacCode s v h ch hc⟩, refuses_dacRange s v h, waits_dacRange s v h, accepts_dacRange s v h⟩

end Sys2Proof.Proofs
end

section
/-! Clearing pending bits and SAT bits (R11, R432, R561, R565). -/

namespace Sys2Proof.Proofs

open Sys2Proof Sys2Proof.Machine Sys2Proof.Laws

/-! Where a counter's SAT bit lies. -/

/-- Offset `o` of block `i` of `g` belongs to a region of the same blocks (the calibration blocks are cut into several). -/
def Region.sharesBlock (g : Region) (o : Nat) : Bool :=
  regions.any fun g' => decide (g'.rows = g.rows ∧ g'.base = g.base ∧ g'.n = g.n ∧ (g'.size = g.size ∨ g.n = 1) ∧ g'.lo ≤ o ∧ o < g'.lo + g'.size)

/-- What the tables give a counter's row: it does not repeat, its SAT bit lies in its block, outside page 0x01, in the mask of a W1C row.
DAB_SC_FAIL_CNT is apart, which has one SAT bit for all sub-channels. -/
def satRowOk (g : Region) (r : PRow) : Bool := match r.sat with
  | none => true
  | some (o, b) => (g.base == 0x2000 && decide (0x80 ≤ r.off)) ||
    (decide (r.cnt = 1 ∧ r.stride = 1) && (!(decide (g.lo ≤ r.off ∧ r.off < g.lo + g.size)) ||
      (g.sharesBlock o && decide ((g.n = 1 ∧ g.base + o < 0x100) ∨ 0x200 ≤ g.base) &&
        (g.rows.find? (·.covers o)).any fun w => decide (w.acc = .w1c) && w.mask.testBit b)))

theorem satRows_ok : (regions.all fun g => g.rows.all (satRowOk g)) = true := by decide +kernel

/-- A row that does not repeat covers its own offset only. -/
theorem off_of_covers {r : PRow} {o : Nat} (h : r.covers o = true) (h1 : r.cnt = 1) (hs : r.stride = 1) : o = r.off := by
  unfold PRow.covers at h
  simp [h1, hs] at h
  omega

theorem addr_of_sharesBlock {g : Region} {i off o : Nat} (hi : g.inside i off) (h : g.sharesBlock o = true) :
    ∃ g' ∈ regions, g'.rows = g.rows ∧ g'.inside i o ∧ g'.base + g'.size * i = g.base + g.size * i := by
  obtain ⟨g', hg', hd⟩ := List.any_eq_true.mp h
  obtain ⟨hr, hb, hn, hs, hlo, hhi⟩ := of_decide_eq_true hd
  obtain ⟨hin, -, -⟩ := hi
  refine ⟨g', hg', hr, ⟨by omega, hlo, hhi⟩, ?_⟩
  rcases hs with hs | h1
  · rw [hb, hs]
  · have h0 : i = 0 := by omega
    rw [hb, h0, Nat.mul_zero, Nat.mul_zero]

/-- A counter's SAT bit is a bit of a W1C parameter that names the counter, not among the pending bits. -/
def SatBit (x a b : Nat) : Prop :=
  (∃ w, rowAt a = some w ∧ w.acc = .w1c ∧ w.mask.testBit b = true) ∧ (b, x) ∈ satCounters a ∧ (a < 0x100 ∨ 0x10A ≤ a)

theorem satBit_event (x : Nat) (hlo : 0x140 ≤ x) (hhi : x < 0x180) : SatBit x (0x10A + (x - 0x140) / 32) ((x - 0x140) % 32) := by
  have hb : (x - 0x140) % 32 < 32 := Nat.mod_lt _ (by decide)
  have hmask : ∀ b < 32, (0xFFFFFFFF : Nat).testBit b = true := by decide
  obtain h0 | h1 : (x - 0x140) / 32 = 0 ∨ (x - 0x140) / 32 = 1 := by omega
  · rw [h0]
    refine ⟨⟨prow 0x0A 0xFFFFFFFF .w1c 0x0, rfl, rfl, hmask _ hb⟩, List.mem_map.mpr ⟨_, List.mem_range.mpr hb, ?_⟩, by decide⟩
    exact Prod.ext rfl (by dsimp only; omega)
  · rw [h1]
    refine ⟨⟨prow 0x0B 0xFFFFFFFF .w1c 0x0, rfl, rfl, hmask _ hb⟩, List.mem_map.mpr ⟨_, List.mem_range.mpr hb, ?_⟩, by decide⟩
    exact Prod.ext rfl (by dsimp only; omega)

/-- The counters of a SAT parameter outside page 0x01 are those of its block. -/
theorem mem_satCounters {a base o b : Nat} {rows : List PRow} {r : PRow} (hB : blockOf a = (rows, base, o)) (ha : a = base + o)
    (hpage : a < 0x100 ∨ 0x200 ≤ a) (hr : r ∈ rows) (hs : r.sat = some (o, b)) : (b, base + r.off) ∈ satCounters a := by
  unfold satCounters blockBase
  rw [if_neg (by omega), hB]
  exact List.mem_filterMap.mpr ⟨r, hr, by simp [hs, ha]⟩

theorem satBit_block {g : Region} (hg : g ∈ regions) {i off o b : Nat} {r : PRow} (hi : g.inside i off) (hr : rowAt (g.addr i off) = some r)
    (hs : r.sat = some (o, b)) (hx : g.base ≠ 0x2000 ∨ off < 0x80) : SatBit (g.addr i off) (g.base + g.size * i + o) b := by
  rw [rowAt_addr hg hi] at hr
  have hmem : r ∈ g.rows := List.mem_of_find?_eq_some hr
  have hcov : r.covers off = true := List.find?_some (p := fun q : PRow => q.covers off) hr
  have hle : r.off ≤ off := by
    unfold PRow.covers at hcov
    simp only [Bool.and_eq_true, decide_eq_true_eq] at hcov
    exact hcov.1.1
  have hok := List.all_eq_true.mp (List.all_eq_true.mp satRows_ok g hg) r hmem
  unfold satRowOk at hok
  rw [hs] at hok
  simp only [Bool.or_eq_true, Bool.and_eq_true, beq_iff_eq, decide_eq_true_eq, Bool.not_eq_true', decide_eq_false_iff_not] at hok
  rcases hok with ⟨hb, h80⟩ | ⟨⟨hcnt, hstride⟩, hok⟩
  · omega
  · have hoff : off = r.off := off_of_covers hcov hcnt hstride
    obtain ⟨hin, hlo, hhi⟩ := id hi
    rcases hok with hno | ⟨⟨hshare, hpage⟩, hw⟩
    · exact absurd ⟨by omega, by omega⟩ hno
    · obtain ⟨g', hg', hrows, hi', hbase⟩ := addr_of_sharesBlock hi hshare
      have haddr : g'.addr i o = g.base + g.size * i + o := by unfold Region.addr; omega
      have hB := blockOf_addr hg' hi'
      have hR := rowAt_addr hg' hi'
      rw [haddr] at hB hR
      rw [hrows, hbase] at hB
      rw [hrows] at hR
      have hp : g.base + g.size * i + o < 0x100 ∨ 0x200 ≤ g.base + g.size * i + o := by
        rcases hpage with ⟨h1, hlt⟩ | hge
        · have h0 : i = 0 := by omega
          rw [h0, Nat.mul_zero]; exact .inl (by omega)
        · exact .inr (by omega)
      obtain ⟨w, hfind, hw⟩ := (Option.any_eq_true _ _).mp hw
      simp only [Bool.and_eq_true, decide_eq_true_eq] at hw
      refine ⟨⟨w, hR.trans hfind, hw.1, hw.2⟩, ?_, by omega⟩
      have := mem_satCounters hB rfl hp hmem hs
      rwa [← hoff] at this

/-- Only the DAB pages begin at 0x2000. -/
theorem dab_of_base (g : Region) (hg : g ∈ regions) (hb : g.base = 0x2000) : g.n = 8 ∧ g.size = 256 ∧ g.lo = 0 := by
  have hall : (regions.all fun g => decide (g.base ≠ 0x2000 ∨ (g.n = 8 ∧ g.size = 256 ∧ g.lo = 0))) = true := by decide +kernel
  exact (of_decide_eq_true (List.all_eq_true.mp hall g hg)).resolve_left (fun h => h hb)

theorem satBit_of_satOf {x a b : Nat} (h : satOf x = some (a, b)) (hx : x / 256 < 0x20 ∨ 0x27 < x / 256 ∨ x % 256 < 0x80) : SatBit x a b := by
  unfold satOf at h
  split at h
  · next hr => cases h; exact satBit_event x hr.1 hr.2
  · split at h
    · next r hr =>
      obtain ⟨⟨o, b'⟩, hs, e⟩ := Option.map_eq_some_iff.mp h
      cases e
      rcases region_of_addr x with hno | ⟨g, hg, i, off, hi, rfl⟩
      · rw [rowAt, hno] at hr; cases hr
      · have hbase : blockBase (g.addr i off) = g.base + g.size * i := by rw [blockBase, blockOf_addr hg hi]
        rw [hbase]
        refine satBit_block hg hi hr hs ?_
        by_cases hb : g.base = 0x2000
        · obtain ⟨hn, hsize, hlo⟩ := dab_of_base g hg hb
          obtain ⟨hin, -, hhi⟩ := hi
          unfold Region.addr at hx
          exact .inr (by rw [hb, hsize] at hx; omega)
        · exact .inl hb
    · cases h

/-! Folds over the chip. -/

/-- What every step of a fold leaves alone, the fold leaves alone. -/
theorem each_frame {α β : Type} (p : Chip → β) (f : Chip → α → Chip) (hf : ∀ c x, p (f c x) = p c) (l : List α) (c : Chip) : p (c.each l f) = p c := by
  unfold Chip.each
  induction l generalizing c with
  | nil => rfl
  | cons x r ih => exact (ih (f c x)).trans (hf c x)

/-! SAT bits. -/

/-- The counters of the SAT bits that `v` names are set to zero. -/
def clearCounter (v : Nat) (c : Chip) (e : Nat × Nat) : Chip := if v.testBit e.1 then c.put e.2 0 else c

theorem reg_put_zero (c : Chip) (a b : Nat) : (c.put a 0).reg b = if b = a then 0 else c.reg b := by rw [reg_put]; simp

theorem reg_clearCounter (v : Nat) (c : Chip) (e : Nat × Nat) (b : Nat) : (clearCounter v c e).reg b = c.reg b ∨ (clearCounter v c e).reg b = 0 := by
  unfold clearCounter
  split
  · rw [reg_put_zero]; split
    · exact .inr rfl
    · exact .inl rfl
  · exact .inl rfl

/-- Clearing counters leaves a parameter as it was, or at zero. -/
theorem reg_clearCounters (v : Nat) (l : List (Nat × Nat)) (c : Chip) (b : Nat) :
    (c.each l (clearCounter v)).reg b = c.reg b ∨ (c.each l (clearCounter v)).reg b = 0 := by
  unfold Chip.each
  induction l generalizing c with
  | nil => exact .inl rfl
  | cons e r ih =>
    rw [List.foldl_cons]
    rcases ih (clearCounter v c e) with h | h
    · rw [h]; exact reg_clearCounter v c e b
    · exact .inr h

theorem reg_clearCounters_mem (v : Nat) (l : List (Nat × Nat)) (c : Chip) (b x : Nat) (hm : (b, x) ∈ l) (hv : v.testBit b = true) :
    (c.each l (clearCounter v)).reg x = 0 := by
  unfold Chip.each
  induction l generalizing c with
  | nil => cases hm
  | cons e r ih =>
    rcases List.mem_cons.mp hm with he | hr
    · subst he
      have h0 : (clearCounter v c (b, x)).reg x = 0 := by unfold clearCounter; rw [if_pos hv, reg_put_zero, if_pos rfl]
      rcases reg_clearCounters v r (clearCounter v c (b, x)) x with h | h
      · exact h.trans h0
      · exact h
    · exact ih (clearCounter v c e) hr

/-- The failure counts of an ensemble's sub-channels, which one SAT bit serves. -/
def clearFails (a v : Nat) (c : Chip) : Chip :=
  if 0x20 ≤ a / 256 ∧ a / 256 ≤ 0x27 ∧ v.testBit 4 then
    c.each (c.mscOn (c.ensLane (a / 256 - 0x20))) fun c j => c.setMsc j { c.msc j with failCnt := 0 }
  else c

theorem clearFails_frame {β : Type} (p : Chip → β) (hp : ∀ c j x, p (Chip.setMsc c j x) = p c) (a v : Nat) (c : Chip) : p (clearFails a v c) = p c := by
  unfold clearFails
  split
  · exact each_frame p _ (fun _ _ => hp _ _ _) _ c
  · rfl

/-- A write of 1s to a SAT parameter clears its bits, then their counters. -/
theorem clearBits_sat (c : Chip) (a v : Nat) (h : a < 0x100 ∨ 0x10A ≤ a) :
    c.clearBits a v = clearFails a v ((c.put a (c.reg a &&& (0xFFFFFFFF - v))).each (satCounters a) (clearCounter v)) := by
  unfold Chip.clearBits clearFails
  dsimp only
  rw [if_neg (by omega)]
  rfl

theorem clearBits_sat_frame {β : Type} (p : Chip → β) (hput : ∀ c a v, p (Chip.put c a v) = p c) (hmsc : ∀ c j x, p (Chip.setMsc c j x) = p c)
    (c : Chip) (a v : Nat) (h : a < 0x100 ∨ 0x10A ≤ a) : p (c.clearBits a v) = p c := by
  rw [clearBits_sat c a v h, clearFails_frame p hmsc, each_frame p, hput]
  intro c e
  unfold clearCounter
  split
  · exact hput _ _ _
  · rfl

theorem testBit_and_not (x v b : Nat) (h : v.testBit b = true) (hv : v < 2 ^ 32) : (x &&& (0xFFFFFFFF - v)).testBit b = false := by
  rw [Nat.testBit_and, show 0xFFFFFFFF - v = 2 ^ 32 - (v + 1) by omega, Nat.testBit_two_pow_sub_succ hv, h]
  simp

/-- The bit that is cleared, and its counter, read zero. -/
theorem reg_clearBits_sat (c : Chip) (x a b v : Nat) (hv : v < 2 ^ 32) (hb : v.testBit b = true) (h : SatBit x a b) :
    (c.clearBits a v).reg x = 0 ∧ (c.clearBits a v).bit a b = false := by
  obtain ⟨-, hmem, ha⟩ := h
  have hfail : ∀ d y, (clearFails a v d).reg y = d.reg y := fun d y => clearFails_frame (fun c => c.reg y) (fun _ _ _ => rfl) a v d
  unfold Chip.bit
  rw [clearBits_sat c a v ha, hfail, hfail]
  refine ⟨reg_clearCounters_mem v _ _ b x hmem hb, ?_⟩
  rcases reg_clearCounters v (satCounters a) (c.put a (c.reg a &&& (0xFFFFFFFF - v))) a with e | e
  · rw [e, reg_put_same, Nat.testBit_mod_two_pow, Nat.testBit_and, testBit_and_not _ _ _ hb hv]
    simp
  · rw [e]; exact Nat.zero_testBit b

end Sys2Proof.Proofs
end

section
/-! W1C writes, EVENT_CLEAR and EVENT_READ (R11, R432, R561, R565). -/

namespace Sys2Proof.Proofs

open Sys2Proof Sys2Proof.Machine Sys2Proof.Laws

theorem writeParam_w1c {a : Nat} {r : PRow} (c : Chip) (v : Nat) (h : rowAt a = some r) (ha : r.acc = .w1c) :
    c.writeParam a v = (0, c.clearBits a (v &&& maskAt a)) := by
  have hb : ¬ isBankNext a := fun hb => by rw [rowAt_bankNext a hb] at h; cases h; cases ha
  unfold isBankNext at hb
  rw [maskAt_of_row h]
  unfold Chip.writeParam
  rw [h]
  dsimp only
  rw [ha, if_neg hb]
  rfl

theorem reg_lt (c : Chip) (a : Nat) : c.reg a < 2 ^ 32 := (c.raw a).isLt

theorem and_not_lt {x y : Nat} (hx : x < 2 ^ 32) : x &&& (0xFFFFFFFF - y) < 2 ^ 32 := Nat.lt_of_le_of_lt Nat.and_le_left hx

/-! Pending bits. -/

theorem pendWord_mask (high : Bool) : maskAt (if high then 0x101 else 0x100) = 0xFFFFFFFF := by cases high <;> rfl

theorem clearBits_pend (c : Chip) (high : Bool) (v : Nat) : c.clearBits (if high then 0x101 else 0x100) v =
    c.put (if high then 0x101 else 0x100) (c.reg (if high then 0x101 else 0x100) &&& (0xFFFFFFFF - v)) := by cases high <;> rfl

section
variable (s : State)

theorem ends_evtPend (h : s.chip.hostReady [2, 3] = true) (high : Bool) (v : Word) : Ends (.evtPendWrite high v) s fun c =>
    c.reg (if high then 0x101 else 0x100) = s.chip.taken.reg (if high then 0x101 else 0x100) &&& (0xFFFFFFFF - v.toNat) ∧
      (∀ n, n < 64 → c.reg (0x140 + n) = s.chip.taken.reg (0x140 + n)) ∧ c.replied writeDone ∧ SameRegs hostRegs s.chip c := by
  have hm := pendWord_mask high
  have hw : s.chip.taken.writeParam (if high then 0x101 else 0x100) v.toNat = (0, s.chip.taken.put (if high then 0x101 else 0x100)
      (s.chip.taken.reg (if high then 0x101 else 0x100) &&& (0xFFFFFFFF - v.toNat))) := by
    obtain ⟨r, hr, ha⟩ : ∃ r, rowAt (if high then 0x101 else 0x100) = some r ∧ r.acc = .w1c := by cases high <;> exact ⟨_, rfl, rfl⟩
    rw [writeParam_w1c _ _ hr ha, and_full hm, clearBits_pend]
  refine ends_of_write (.evtPendWrite high v) s h rfl rfl hw (taken_powered s _ h) (taken_stretch s _ h) ⟨?_, fun n hn => ?_, ?_⟩
  · rw [reg_put_other _ _ _ _ (by split <;> decide)]
    exact reg_put_full _ _ _ hm (and_not_lt (reg_lt _ _))
  · rw [reg_put_other _ _ _ _ (by omega)]
    exact reg_put_other _ _ _ _ (by split <;> omega)
  · obtain ⟨hrep, hsame⟩ := replied_regs s (s.chip.taken.put (if high then 0x101 else 0x100)
      (s.chip.taken.reg (if high then 0x101 else 0x100) &&& (0xFFFFFFFF - v.toNat))) writeDone [if high then 0x101 else 0x100]
      (fun b hb => reg_put_other _ _ _ _ (by simpa using hb))
    refine ⟨hrep, fun b hb hx => hsame b hb fun hmem => ?_⟩
    rcases List.mem_cons.mp hmem with e | hmem
    · exact hb (by rw [e]; split <;> rfl)
    · exact hx hmem

theorem ends_eventRead (h : s.chip.hostReady [2, 3] = true) : Ends .eventRead s fun c =>
    c.replied (0x00 :: [0x100, 0x101, 0x102, 0x103].flatMap fun a => le 4 (s.chip.taken.reg a)) ∧ SameRegs hostRegs s.chip c :=
  ends_of_effect .eventRead s h rfl rfl (d := s.chip.taken) rfl (taken_powered s _ h) (taken_stretch s _ h) (replied_regs s _ _ [] fun _ _ => rfl)

/-! EVENT_CLEAR. -/

/-- The pending words after EVENT_CLEAR. -/
theorem reg_clearEvents (c : Chip) (lo hi a : Nat) : (c.clearEvents lo hi).reg a =
    if a = 0x101 then c.reg 0x101 &&& (0xFFFFFFFF - hi % 2 ^ 32) else if a = 0x100 then c.reg 0x100 &&& (0xFFFFFFFF - lo % 2 ^ 32) else c.reg a := by
  unfold Chip.clearEvents
  dsimp only
  split
  · next e => rw [e, reg_put_full _ _ _ rfl (and_not_lt (reg_lt _ _)), reg_put_other _ _ _ _ (by decide)]
  · next e =>
    rw [reg_put_other _ _ _ _ e]
    split
    · next e' => rw [e', reg_put_full _ _ _ rfl (and_not_lt (reg_lt _ _))]
    · next e' => exact reg_put_other _ _ _ _ e'

theorem testBit_and_not_eq (x v b : Nat) (hb : b < 32) (hv : v < 2 ^ 32) : (x &&& (0xFFFFFFFF - v)).testBit b = (x.testBit b && !v.testBit b) := by
  rw [Nat.testBit_and, show 0xFFFFFFFF - v = 2 ^ 32 - (v + 1) by omega, Nat.testBit_two_pow_sub_succ hv, decide_eq_true hb, Bool.true_and]

theorem isPending_clearEvents (c : Chip) (v : BitVec 64) (n : Nat) (hn : n < 64) :
    (c.clearEvents (v.toNat % 2 ^ 32) (v.toNat / 2 ^ 32)).isPending n = (c.isPending n && !v.getLsbD n) := by
  have hhi : v.toNat / 2 ^ 32 < 2 ^ 32 := by have := v.isLt; omega
  unfold Chip.isPending Chip.bit
  rw [if_pos hn, if_pos hn, reg_clearEvents]
  by_cases h32 : n < 32
  · have h0 : 0x100 + n / 32 = 0x100 := by omega
    rw [h0, if_neg (by decide), if_pos rfl, testBit_and_not_eq _ _ _ (Nat.mod_lt _ (by decide)) (Nat.mod_lt _ (by decide)), Nat.mod_mod,
      Nat.testBit_mod_two_pow, Nat.mod_eq_of_lt h32, decide_eq_true h32, Bool.true_and]
    rfl
  · have h1 : 0x100 + n / 32 = 0x101 := by omega
    rw [h1, if_pos rfl, Nat.mod_eq_of_lt hhi, testBit_and_not_eq _ _ _ (Nat.mod_lt _ (by decide)) hhi, Nat.testBit_div_two_pow,
      show n % 32 + 32 = n by omega]
    rfl

theorem ends_eventClear (h : s.chip.hostReady [2, 3] = true) (v : BitVec 64) : Ends (.eventClear v) s fun c =>
    (∀ n, n < 64 → c.isPending n = (s.chip.taken.isPending n && !v.getLsbD n)) ∧ (∀ n, n < 64 → c.reg (0x140 + n) = s.chip.taken.reg (0x140 + n)) ∧
      c.replied [0x00] ∧ SameRegs hostRegs s.chip c := by
  refine ends_of_effect (.eventClear v) s h rfl rfl (d := s.chip.taken.clearEvents (v.toNat % 2 ^ 32) (v.toNat / 2 ^ 32)) rfl
    (taken_powered s _ h) (taken_stretch s _ h) ⟨fun n hn => ?_, fun n hn => ?_, ?_⟩
  · rw [← isPending_clearEvents _ v n hn]
    unfold Chip.isPending Chip.bit
    rw [if_pos hn, if_pos hn, reg_put_other _ _ _ _ (by omega)]
    rfl
  · rw [reg_put_other _ _ _ _ (by omega)]
    show (s.chip.taken.clearEvents (v.toNat % 2 ^ 32) (v.toNat / 2 ^ 32)).reg (0x140 + n) = _
    rw [reg_clearEvents, if_neg (by omega), if_neg (by omega)]
  · obtain ⟨hrep, hsame⟩ := replied_regs s (s.chip.taken.clearEvents (v.toNat % 2 ^ 32) (v.toNat / 2 ^ 32)) [0x00] [0x100, 0x101]
      (fun b hb => by
        simp only [List.mem_cons, List.not_mem_nil, or_false, not_or] at hb
        rw [reg_clearEvents, if_neg hb.2, if_neg hb.1])
    refine ⟨hrep, fun b hb hx => hsame b hb fun hmem => ?_⟩
    simp only [List.mem_append, List.mem_cons, List.not_mem_nil, or_false] at hmem
    rcases hmem with (e | e) | hmem
    · exact hb (by rw [e])
    · exact hb (by rw [e])
    · exact hx hmem

/-! SAT bits. -/

theorem ends_satBitClear (h : s.chip.hostReady [2, 3] = true) (x a b : Nat) (v : Word) (hs : satOf x = some (a, b))
    (hx : x / 256 < 0x20 ∨ 0x27 < x / 256 ∨ x % 256 < 0x80) (hv : v.getLsbD b = true) :
    Ends (.satBitClear a v) s fun c => c.reg x = 0 ∧ c.bit a b = false ∧ c.replied writeDone := by
  have hbit := satBit_of_satOf hs hx
  obtain ⟨⟨w, hw, hacc, hmask⟩, -, ha⟩ := id hbit
  have hx8 : x ≠ 0x508 := fun e => by rw [e, show satOf 0x508 = none from rfl] at hs; cases hs
  have ha8 : a ≠ 0x508 := fun e => by
    rw [e, show rowAt 0x508 = some (prow 0x08 0x7 .ro 0x0) from rfl] at hw
    cases hw; cases hacc
  have hvm : (v.toNat &&& maskAt a).testBit b = true := by
    rw [Nat.testBit_and, maskAt_of_row hw, hmask, Bool.and_true]; exact hv
  have hlt : v.toNat &&& maskAt a < 2 ^ 32 := Nat.lt_of_le_of_lt Nat.and_le_left v.isLt
  obtain ⟨hreg, hclear⟩ := reg_clearBits_sat s.chip.taken x a b _ hlt hvm hbit
  refine ends_of_write (.satBitClear a v) s h rfl (if_pos (by rw [hw]; exact congrArg some hacc)) (writeParam_w1c _ _ hw hacc) ?_ ?_ ⟨?_, ?_, ?_⟩
  · exact (clearBits_sat_frame (fun c => c.ctlOn) (fun _ _ _ => rfl) (fun _ _ _ => rfl) _ a _ ha).trans (taken_powered s _ h)
  · exact (clearBits_sat_frame (fun c => c.bus.stretch) (fun _ _ _ => rfl) (fun _ _ _ => rfl) _ a _ ha).trans (taken_stretch s _ h)
  · exact (reg_put_other _ _ _ _ hx8).trans hreg
  · exact (congrArg (·.testBit b) (reg_put_other _ _ _ _ ha8)).trans hclear
  · exact ⟨rfl, rfl, by rw [reg_put_same]; decide⟩

end

/-- Settles O20, clause by clause. -/
theorem clearingEventsAndSatBits : Obligations.ClearingEventsAndSatBits := fun s h =>
  ⟨ends_evtPend s h, ends_satBitClear s h, ends_eventClear s h, ends_eventRead s h⟩

end Sys2Proof.Proofs
end

section
/-! The signal path, the audio port and the records leave the power state and the waiting writes alone. -/

namespace Sys2Proof.Proofs

open Sys2Proof Sys2Proof.Machine Sys2Proof.Laws

/-- The part of the chip that the signal path of a tick does not touch: the power state and the writes that wait. -/
def ctlPart (c : Chip) : PowerSt × Tbl Word := (c.power, c.staged)

theorem ctlPart_ite {c x y : Chip} {p : Prop} {_ : Decidable p} (hx : ctlPart x = ctlPart c) (hy : ctlPart y = ctlPart c) :
    ctlPart (if p then x else y) = ctlPart c := by split <;> assumption

theorem ctlPart_each {α : Type} {f : Chip → α → Chip} (hf : ∀ c x, ctlPart (f c x) = ctlPart c) (l : List α) (c : Chip) :
    ctlPart (c.each l f) = ctlPart c := each_frame ctlPart f hf l c

/-! Parameters, counters, events and sub-states. -/

@[simp] theorem ctlPart_put (c : Chip) (a v : Nat) : ctlPart (c.put a v) = ctlPart c := rfl
@[simp] theorem ctlPart_putInt (c : Chip) (a w : Nat) (i : Int) : ctlPart (c.putInt a w i) = ctlPart c := rfl
@[simp] theorem ctlPart_countBy (c : Chip) (a n : Nat) : ctlPart (c.countBy a n) = ctlPart c := by obtain ⟨_, _, h⟩ := countBy_only c a n; rw [h]; rfl
@[simp] theorem ctlPart_count (c : Chip) (a : Nat) : ctlPart (c.count a) = ctlPart c := ctlPart_countBy c a 1
@[simp] theorem ctlPart_raise (c : Chip) (n h d : Nat) : ctlPart (c.raise n h d) = ctlPart c := by obtain ⟨_, _, e⟩ := raise_only c n h d; rw [e]; rfl
@[simp] theorem ctlPart_raiseSat (c : Chip) (g k : Nat) : ctlPart (c.raiseSat g k) = ctlPart c := by obtain ⟨_, _, h⟩ := raiseSat_only c g k; rw [h]; rfl
@[simp] theorem ctlPart_modFe (c : Chip) (k : Nat) (f : FeSt → FeSt) : ctlPart (c.modFe k f) = ctlPart c := rfl
@[simp] theorem ctlPart_modWin (c : Chip) (k : Nat) (f : WinSt → WinSt) : ctlPart (c.modWin k f) = ctlPart c := rfl
@[simp] theorem ctlPart_modLane (c : Chip) (k : Nat) (f : LaneSt → LaneSt) : ctlPart (c.modLane k f) = ctlPart c := rfl
@[simp] theorem ctlPart_modStream (c : Chip) (k : Nat) (f : Stream → Stream) : ctlPart (c.modStream k f) = ctlPart c := rfl
@[simp] theorem ctlPart_modEns (c : Chip) (e : Nat) (f : EnsSt → EnsSt) : ctlPart (c.modEns e f) = ctlPart c := rfl
@[simp] theorem ctlPart_modEnsDsp (c : Chip) (e : Nat) (f : EnsDsp → EnsDsp) : ctlPart (c.modEnsDsp e f) = ctlPart c := rfl
@[simp] theorem ctlPart_modDrm (c : Chip) (n : Nat) (f : DrmSt → DrmSt) : ctlPart (c.modDrm n f) = ctlPart c := rfl
@[simp] theorem ctlPart_modDrmDsp (c : Chip) (n : Nat) (f : DrmDsp → DrmDsp) : ctlPart (c.modDrmDsp n f) = ctlPart c := rfl
@[simp] theorem ctlPart_modProg (c : Chip) (p : Nat) (f : ProgSt → ProgSt) : ctlPart (c.modProg p f) = ctlPart c := rfl
@[simp] theorem ctlPart_modAud (c : Chip) (i : Nat) (g : LinkAud → LinkAud) : ctlPart (c.modAud i g) = ctlPart c := rfl
@[simp] theorem ctlPart_modSlot (c : Chip) (fm : Bool) (k : Nat) (f : SlotSt → SlotSt) : ctlPart (c.modSlot fm k f) = ctlPart c := by cases fm <;> rfl

/-! Records. -/

@[simp] theorem ctlPart_setFill (c : Chip) (p n : Nat) : ctlPart (c.setFill p n) = ctlPart c := by
  have hpeak : ∀ d : Chip, ctlPart (if d.reg (cnvA p 3) < n then d.put (cnvA p 3) n else d) = ctlPart d := fun d => ctlPart_ite rfl rfl
  unfold Chip.setFill
  refine (ctlPart_ite (ctlPart_ite ?_ rfl) (ctlPart_ite ?_ rfl)).trans (hpeak _)
  · rfl
  · exact ctlPart_raise _ _ _ _

@[simp] theorem ctlPart_queueChanged (c : Chip) : ctlPart c.queueChanged = ctlPart c := by
  unfold Chip.queueChanged
  dsimp only
  split
  · exact ctlPart_setFill _ _ _
  · rfl

@[simp] theorem ctlPart_enqueue (c : Chip) (r : Rec) (j : Option Nat) (cls : Nat) (d : Option Nat) : ctlPart (c.enqueue r j cls d) = ctlPart c :=
  ctlPart_queueChanged _

@[simp] theorem ctlPart_lose (c : Chip) (k seq ty handle : Nat) (j : Option Nat) : ctlPart (c.lose k seq ty handle j) = ctlPart c := ctlPart_count _ _

@[simp] theorem ctlPart_dropElastic (c : Chip) (need : Nat) (sys : Bool) (n : Nat) : ctlPart (c.dropElastic need sys n) = ctlPart c := by
  induction n generalizing c with
  | zero => rfl
  | succ n ih =>
    unfold Chip.dropElastic
    split
    · rfl
    · split
      · rfl
      · exact (ih _).trans (ctlPart_lose _ _ _ _ _ _)

@[simp] theorem ctlPart_shedRec (c : Chip) (k j order : Nat) : ctlPart (c.shedRec k j order) = ctlPart c := by
  unfold Chip.shedRec
  dsimp only
  split
  · exact ctlPart_count _ _
  · exact (ctlPart_ite (ctlPart_raiseSat _ _ _) rfl).trans ((ctlPart_ite rfl (ctlPart_raise _ _ _ _)).trans (ctlPart_count _ _))

@[simp] theorem ctlPart_produceN (c : Chip) (r : RecSpec) (fuel : Nat) : ctlPart (c.produceN r fuel) = ctlPart c := by
  induction fuel generalizing c r with
  | zero => rfl
  | succ n ih =>
    unfold Chip.produceN
    dsimp only
    refine ctlPart_ite rfl (ctlPart_ite ?_ ?_)
    · split <;> simp only [ih, ctlPart_enqueue, ctlPart_modStream, apply_ite ctlPart, ctlPart_dropElastic, ite_self]
    · split <;> simp only [ctlPart_shedRec, ctlPart_lose, ctlPart_modStream, apply_ite ctlPart, ctlPart_dropElastic, ite_self]

@[simp] theorem ctlPart_produce (c : Chip) (r : RecSpec) : ctlPart (c.produce r) = ctlPart c := ctlPart_produceN c r 3

end Sys2Proof.Proofs
end

section
/-! The signal path and the audio port over a tick, and the mapping of studio time, leave the power state and the waiting writes alone. -/

namespace Sys2Proof.Proofs

open Sys2Proof Sys2Proof.Machine Sys2Proof.Laws

/-- A fold keeps the control part of the chip that its state carries if each step does. -/
theorem ctlPart_foldl {α β : Type} {f : Chip × β → α → Chip × β} (hf : ∀ s x, ctlPart (f s x).1 = ctlPart s.1) (l : List α) (s : Chip × β) :
    ctlPart (l.foldl f s).1 = ctlPart s.1 := by
  induction l generalizing s with
  | nil => rfl
  | cons x l ih => exact (ih (f s x)).trans (hf s x)

/-! Windows and lanes. -/

@[simp] theorem ctlPart_swtTake (c : Chip) (h : Nat) (p : SwtPoint) : ctlPart (c.swtTake h p) = ctlPart c := by
  unfold Chip.swtTake
  exact ctlPart_ite rfl rfl

@[simp] theorem ctlPart_swtLane (c : Chip) (k : Nat) (p : SwtPoint) : ctlPart (c.swtLane k p) = ctlPart c := ctlPart_swtTake c _ p

@[simp] theorem ctlPart_capMark (c : Chip) (w t causes : Nat) : ctlPart (c.capMark w t causes) = ctlPart c := rfl

@[simp] theorem ctlPart_capSample (c : Chip) (w t : Nat) (y : Smp) : ctlPart (c.capSample w t y) = ctlPart c := by
  unfold Chip.capSample
  simp only [ctlPart_modWin, apply_ite ctlPart, ctlPart_capMark, ctlPart_count, ctlPart_put, ite_self]

@[simp] theorem ctlPart_liveBlock (c : Chip) (w ts : Nat) (l : List Smp) : ctlPart (c.liveBlock w ts l) = ctlPart c := by
  unfold Chip.liveBlock
  split
  · rfl
  · exact ctlPart_produce _ _

@[simp] theorem ctlPart_exportSample (c : Chip) (w t : Nat) (y : Smp) : ctlPart (c.exportSample w t y) = ctlPart c := by
  unfold Chip.exportSample
  simp only [apply_ite ctlPart, ctlPart_liveBlock, ctlPart_modWin, ite_self]

@[simp] theorem ctlPart_winPath (c : Chip) (w t0 : Nat) (xs : List Int) : ctlPart (c.winPath w t0 xs).1 = ctlPart c := by
  unfold Chip.winPath
  refine (ctlPart_each (fun d o => ?_) _ _).trans ?_
  · simp only [ctlPart_exportSample, ctlPart_capSample]
  · simp only [apply_ite ctlPart, ctlPart_putInt, ctlPart_countBy, ctlPart_modWin, ite_self]

@[simp] theorem ctlPart_lanePath (c : Chip) (k : Nat) (wins : Tbl (List (Nat × Smp))) : ctlPart (c.lanePath k wins).1 = ctlPart c := by
  unfold Chip.lanePath
  refine (ctlPart_each (fun d p => ctlPart_swtLane d k p) _ _).trans ?_
  simp only [ctlPart_countBy, ctlPart_modLane]

@[simp] theorem ctlPart_slotPath (c : Chip) (t0 : Nat) (outs : Tbl (List (Nat × Int × Int))) (fm : Bool) (s : Nat) : ctlPart (c.slotPath t0 outs fm s) = ctlPart c := by
  unfold Chip.slotPath
  simp only [apply_ite ctlPart, ctlPart_countBy, ctlPart_modSlot, ite_self]

/-! DAB ensembles. -/

@[simp] theorem ctlPart_trlPut (c : Chip) (client : TrlClient) (deadline declared size : Nat) (soft : List (List Int)) :
    ctlPart (c.trlPut client deadline declared size soft) = ctlPart c := by
  unfold Chip.trlPut
  exact ctlPart_ite rfl rfl

@[simp] theorem ctlPart_ficPut (c : Chip) (e : Nat) (soft : List Int) : ctlPart (c.ficPut e soft) = ctlPart c :=
  ctlPart_each (fun _ _ => ctlPart_trlPut _ _ _ _ _ _) _ _

@[simp] theorem ctlPart_cifAt (c : Chip) (e ref : Nat) : ctlPart (c.cifAt e ref).2 = ctlPart c := by
  unfold Chip.cifAt
  split <;> rfl

@[simp] theorem ctlPart_frameEnd (c : Chip) (e : Nat) : ctlPart (c.frameEnd e) = ctlPart c := rfl

@[simp] theorem ctlPart_ensSymbol (c : Chip) (e : Nat) : ctlPart (c.ensSymbol e) = ctlPart c := by
  unfold Chip.ensSymbol
  simp only [apply_ite ctlPart, ctlPart_modEnsDsp, ctlPart_ficPut, ctlPart_frameEnd, ctlPart_cifAt, ctlPart_swtLane, ctlPart_modEns, ite_self]

@[simp] theorem ctlPart_ensTake (c : Chip) (e : Nat) (l : List (Nat × Smp)) : ctlPart (c.ensTake e l) = ctlPart c := by
  unfold Chip.ensTake Chip.ensAdvance
  refine ctlPart_ite rfl ((ctlPart_each (fun d _ => ?_) _ _).trans (ctlPart_modEnsDsp _ _ _))
  exact ctlPart_ite (ctlPart_ensSymbol d e) rfl

/-! DRM channels. -/

@[simp] theorem ctlPart_drmPut (c : Chip) (n kind : Nat) (b : DrmBlock) : ctlPart (c.drmPut n kind b) = ctlPart c :=
  (ctlPart_trlPut _ _ _ _ _ _).trans (ctlPart_modDrm _ _ _)

@[simp] theorem ctlPart_chFrame (c : Chip) (n : Nat) : ctlPart (c.chFrame n) = ctlPart c := by
  unfold Chip.chFrame
  simp only [ctlPart_modDrm, apply_ite ctlPart, ctlPart_drmPut, ctlPart_swtLane, ctlPart_put, ite_self]

@[simp] theorem ctlPart_chEqualise (c : Chip) (n : Nat) : ctlPart (c.chEqualise n) = ctlPart c := by
  unfold Chip.chEqualise
  cases h : (c.drm n).dsp.syms[drmPeriod (c.drm n).mode]? with
  | none => simp only [h]
  | some y => simp only [h, apply_ite ctlPart, ctlPart_chFrame, ctlPart_modDrmDsp, ite_self]

@[simp] theorem ctlPart_chFrameEnd (c : Chip) (n : Nat) : ctlPart (c.chFrameEnd n) = ctlPart c := rfl

@[simp] theorem ctlPart_chSymbol (c : Chip) (n : Nat) : ctlPart (c.chSymbol n) = ctlPart c := by
  unfold Chip.chSymbol
  simp only [apply_ite ctlPart, ctlPart_chFrameEnd, ctlPart_chEqualise, ctlPart_modDrmDsp, ctlPart_putInt, ite_self]

@[simp] theorem ctlPart_chTake (c : Chip) (n : Nat) (l : List (Nat × Smp)) : ctlPart (c.chTake n l) = ctlPart c := by
  unfold Chip.chTake Chip.chAdvance
  refine ctlPart_ite rfl ((ctlPart_each (fun d _ => ?_) _ _).trans (ctlPart_modDrmDsp _ _ _))
  exact ctlPart_ite (ctlPart_chSymbol d n) rfl

/-! The signal path. -/

theorem ctlPart_pathTick (c : Chip) (a b : List Int) : ctlPart (c.pathTick a b) = ctlPart c := by
  unfold Chip.pathTick
  simp only [ctlPart_each, ctlPart_foldl, ctlPart_slotPath, ctlPart_modFe, ctlPart_ensTake, ctlPart_chTake, ctlPart_lanePath, ctlPart_winPath,
    apply_ite ctlPart, apply_ite Prod.fst, ite_self, implies_true]

/-! The audio port. -/

@[simp] theorem ctlPart_linkWrite (c : Chip) (i : Nat) : ctlPart (c.linkWrite i) = ctlPart c := rfl

@[simp] theorem ctlPart_progWrite (c : Chip) (p : Nat) : ctlPart (c.progWrite p) = ctlPart c := rfl

@[simp] theorem ctlPart_linkFrames (c : Chip) (t3 dt : Nat) : ctlPart (c.linkFrames t3 dt).1 = ctlPart c := by
  unfold Chip.linkFrames
  refine ctlPart_foldl (fun s i => ?_) _ _
  exact ctlPart_modAud _ _ _

@[simp] theorem ctlPart_progFrame (c : Chip) (links : Tbl (Int × Int)) (t3 p : Nat) : ctlPart (c.progFrame links t3 p).1 = ctlPart c := by
  unfold Chip.progFrame
  simp only [apply_ite Prod.fst, apply_ite ctlPart, ctlPart_modProg, ite_self]

@[simp] theorem ctlPart_audio_aport (c : Chip) (x : Tbl (List (Word × Word))) (y : PortSt) : ctlPart { c with audio := x, aport := y } = ctlPart c := rfl

@[simp] theorem ctlPart_portFrame (cfg : Nat) (c : Chip) (t3 : Nat) : ctlPart (Chip.portFrame cfg c t3) = ctlPart c := by
  unfold Chip.portFrame
  simp only [ctlPart_audio_aport]
  refine (ctlPart_each (fun d p => ?_) _ _).trans (ctlPart_linkFrames c t3 _)
  cases audPort cfg p with
  | none => exact ctlPart_progFrame _ _ _ _
  | some line => simp only [apply_ite ctlPart, ctlPart_audio_aport, ctlPart_progFrame, ite_self]

theorem ctlPart_audioTick (c : Chip) (fs : List Nat) : ctlPart (c.audioTick fs) = ctlPart c := by
  unfold Chip.audioTick
  simp only [apply_ite ctlPart, ctlPart_audio_aport, ctlPart_each, ctlPart_portFrame, implies_true, ite_self]
  exact (congrArg (ite _ _) ((ctlPart_each ctlPart_progWrite _ _).trans (ctlPart_each ctlPart_linkWrite _ _))).trans (ite_self _)

/-! Studio time. -/

theorem ctlPart_syncTime (c : Chip) : ctlPart c.syncTime = ctlPart c := by
  unfold Chip.syncTime Chip.syncErr
  split <;> rfl

end Sys2Proof.Proofs
end

section
/-! O59: what a tick boundary does to studio time, the writes that come into force in it, and a deep sleep that begins in it. -/

namespace Sys2Proof.Proofs

open Sys2Proof Sys2Proof.Machine Sys2Proof.Laws

/-! The writes of a boundary, where every one that waits is due and plain. -/

theorem each_idle {α : Type} {f : Chip → α → Chip} {l : List α} (hf : ∀ c, ∀ x ∈ l, f c x = c) (c : Chip) : c.each l f = c := by
  induction l generalizing c with
  | nil => rfl
  | cons x l ih =>
    have hx : f c x = c := hf c x List.mem_cons_self
    change (f c x).each l f = c
    rw [hx, ih fun d y hy => hf d y (List.mem_cons_of_mem _ hy)]

theorem find_none_of_forall {α : Type} {t : Tbl α} {k : Nat} (h : ∀ e ∈ t, e.1 ≠ k) : Tbl.find t k = none := by
  induction t with
  | nil => rfl
  | cons e r ih =>
    obtain ⟨i, v⟩ := e
    have hi : i ≠ k := h (i, v) List.mem_cons_self
    rw [Tbl.find, if_neg hi, ih fun e he => h e (List.mem_cons_of_mem _ he)]

theorem special_win {w : Nat} (hw : w < 12) (o : Nat) (ho : o < 2) : special (winA w o) = true := by
  have hpage : winA w o / 256 = 0x10 + w := by unfold winA; omega
  have hoff : winA w o % 256 = o := by unfold winA; omega
  simp [special, hpage, hoff, ho]
  omega

theorem special_fe (fe : Nat) (h : fe ∈ [0, 1]) : special (feA fe 2) = true ∧ special (feA fe 4) = true := by
  obtain rfl | rfl : fe = 0 ∨ fe = 1 := by simpa only [List.mem_cons, List.not_mem_nil, or_false] using h
  · decide
  · decide

/-- The value that waits for address `a`. -/
def waiting (c : Chip) (a : Nat) : Option Nat := (Tbl.find c.staged a).map BitVec.toNat

/-- The waiting writes stored, and the linking generation stepped where one of them is a linking parameter's. -/
def storeWaiting (c : Chip) : Chip :=
  let d := Chip.each { c with staged := [] } c.staged fun c e => c.put e.1 e.2.toNat
  if c.staged.any fun e => decide (0xC61 ≤ e.1 ∧ e.1 < 0xD00) then d.stepGenAt 0xC6F else d

theorem storeWaiting_frame {β : Type} (p : Chip → β) (hp : ∀ c a v, p (c.put a v) = p c) (c : Chip) :
    p (storeWaiting c) = p { c with staged := [] } := by
  have heach := each_frame p (fun c (e : Nat × Word) => c.put e.1 e.2.toNat) (fun c e => hp c _ _) c.staged { c with staged := [] }
  unfold storeWaiting
  dsimp only
  split
  · exact (hp _ _ _).trans heach
  · exact heach

theorem applyWrites_plain (c : Chip) (h : ∀ e ∈ c.staged, c.dueNow e.1 = true ∧ special e.1 = false) :
    c.applyWrites = (storeWaiting c).refreshDiv.reweighAll := by
  have hdue : (c.staged.filter fun e => c.dueNow e.1) = c.staged := List.filter_eq_self.mpr fun e he => (h e he).1
  have hleft : (c.staged.filter fun e => !c.dueNow e.1) = [] := List.filter_eq_nil_iff.mpr fun e he => by simp [(h e he).1]
  have hplain : (c.staged.filter fun e => !special e.1) = c.staged := List.filter_eq_self.mpr fun e he => by simp [(h e he).2]
  have hspecial : (c.staged.filter fun e => special e.1) = [] := List.filter_eq_nil_iff.mpr fun e he => by simp [(h e he).2]
  have hget : ∀ a, special a = true → waiting c a = none := fun a ha => by
    have hfind : Tbl.find c.staged a = none := find_none_of_forall fun e he hea => by simp [← hea, (h e he).2] at ha
    simp only [waiting, hfind, Option.map_none]
  have hlnk : (storeWaiting c).applyLnkFreq = storeWaiting c := by
    have hs : (storeWaiting c).staged = [] := storeWaiting_frame (·.staged) (fun _ _ _ => rfl) c
    simp only [Chip.applyLnkFreq, hs, Tbl.find]
  have hwin : ∀ d : Chip, (d.each (List.range 12) fun d w => d.applyWindow w (waiting c (winA w 0)) (waiting c (winA w 1))) = d :=
    each_idle fun d w hw => by
      have hlt : w < 12 := List.mem_range.mp hw
      rw [hget _ (special_win hlt 0 (by decide)), hget _ (special_win hlt 1 (by decide))]; rfl
  have hfe : ∀ d : Chip, (d.each [0, 1] fun d fe => d.applyGain fe (waiting c (feA fe 2)) (waiting c (feA fe 4))) = d :=
    each_idle fun d fe hf => by
      obtain ⟨h2, h4⟩ := special_fe fe hf
      rw [hget _ h2, hget _ h4]; rfl
  unfold Chip.applyWrites
  simp only [hdue, hleft, hplain, hspecial, ← waiting.eq_1, hwin, hfe]
  exact congrArg (fun d : Chip => d.refreshDiv.reweighAll) hlnk

theorem reweighed_frame {β : Type} (p : Chip → β) (hlane : ∀ c k f, p (Chip.modLane c k f) = p c)
    (hmark : ∀ c q g d, p (Chip.markStreams c q g d) = p c) (c : Chip) :
    p c.refreshDiv.reweighAll = p c := by
  refine (each_frame p _ (fun d k => hlane d k _) _ _).trans (each_frame p _ (fun d k => ?_) _ _)
  dsimp only
  split
  · rfl
  · exact (hmark _ _ _ _).trans ((hlane _ _ _).trans (hlane _ _ _))

theorem applyWrites_frame {β : Type} (p : Chip → β) (hput : ∀ c a v, p (Chip.put c a v) = p c) (hlane : ∀ c k f, p (Chip.modLane c k f) = p c)
    (hmark : ∀ c q g d, p (Chip.markStreams c q g d) = p c) (c : Chip) (h : ∀ e ∈ c.staged, c.dueNow e.1 = true ∧ special e.1 = false) :
    p c.applyWrites = p { c with staged := [] } := by
  rw [applyWrites_plain c h, reweighed_frame p hlane hmark]
  exact storeWaiting_frame p hput c

theorem reg_storeWaiting_single (c : Chip) (a : Nat) (w : Word) (hs : c.staged = [(a, w)]) (ha : a ≠ 0xC6F) : (storeWaiting c).reg a = w.toNat &&& maskAt a := by
  have hput : (Chip.put { c with staged := [] } a w.toNat).reg a = w.toNat &&& maskAt a := by
    rw [reg_put_same]
    exact Nat.mod_eq_of_lt (Nat.lt_of_le_of_lt Nat.and_le_right (maskAt_lt a))
  unfold storeWaiting
  rw [hs]
  dsimp only
  split
  · exact (reg_put_other _ _ _ _ ha).trans hput
  · exact hput

theorem applyWrites_single (c : Chip) (a : Nat) (w : Word) (hs : c.staged = [(a, w)]) (hsp : special a = false) (hd : c.dueNow a = true) (ha : a ≠ 0xC6F) :
    c.applyWrites.reg a = w.toNat &&& maskAt a ∧ c.applyWrites.staged = [] := by
  have hall : ∀ e ∈ c.staged, c.dueNow e.1 = true ∧ special e.1 = false := by simp [hs, hd, hsp]
  constructor
  · rw [applyWrites_plain c hall, reweighed_frame (fun d => d.reg a) (fun _ _ _ => rfl) (fun _ _ _ _ => rfl)]
    exact reg_storeWaiting_single c a w hs ha
  · exact applyWrites_frame (·.staged) (fun _ _ _ => rfl) (fun _ _ _ => rfl) (fun _ _ _ _ => rfl) c hall

/-! A deep sleep begins. -/

theorem reg_enterDeep (c : Chip) (a : Nat) (hk : keptAt true a = false) (hp : a / 256 ∉ [8, 9]) : c.enterDeep.reg a = resetAt a % 2 ^ 32 := by
  have hpage : a / 256 ≠ 8 ∧ a / 256 ≠ 9 := by simpa using hp
  have hconv : c.failedConv a = false := by
    simp only [Chip.failedConv, Bool.and_eq_false_imp, Bool.or_eq_true, beq_iff_eq]
    intro h
    omega
  have hfind : Tbl.find c.enterDeep.regs a = none := find_none_of_forall fun e he hea => by
    have hkept : (keptAt true e.1 || (true && c.failedConv e.1)) = true := (List.mem_filter.mp he).2
    simp [hea, hk, hconv] at hkept
  simp only [Chip.reg, Chip.raw, Tbl.get, hfind]
  exact BitVec.toNat_ofNat _ _

/-- The receiver at a boundary when its writes come into force: studio time has reached it, and the signal path of an awake receiver has taken the tick. -/
def beforeWrites (c : Chip) (m : TickMeas) (slept : Bool) : Chip :=
  let d := Chip.syncTime { c with time := { c.time with now := 32000 * c.time.tick, tick := c.time.tick + 1 } }
  if d.blocksAsleep || slept then d else (d.pathTick m.adcA m.adcB).audioTick m.fs

theorem ctlPart_beforeWrites (c : Chip) (m : TickMeas) (slept : Bool) : ctlPart (beforeWrites c m slept) = ctlPart c :=
  (ctlPart_ite rfl ((ctlPart_audioTick _ _).trans (ctlPart_pathTick _ _ _))).trans (ctlPart_syncTime _)

theorem tickStep_deep (c : Chip) (m : TickMeas) (slept : Bool) (hs : c.staged = []) (hd : c.power.deepPending = true) :
    c.tickStep m slept = (beforeWrites c m slept).applyWrites.enterDeep := by
  obtain ⟨hpower, hstaged⟩ := Prod.ext_iff.mp (ctlPart_beforeWrites c m slept)
  have hnone : (beforeWrites c m slept).staged = [] := hstaged.trans hs
  have hkeep : (beforeWrites c m slept).applyWrites.power = c.power :=
    (applyWrites_frame (·.power) (fun _ _ _ => rfl) (fun _ _ _ => rfl) (fun _ _ _ _ => rfl) _ (by simp [hnone])).trans hpower
  unfold Chip.tickStep
  simp only [↓reduceIte, ← beforeWrites.eq_1, hkeep, hd]

/-! The boundary. -/

theorem catchUp_upToDate (c : Chip) (slept : Bool) (h : c.upToDate = true) : c.catchUp slept = c := by
  have hnot : ¬ c.time.tick * 32000 ≤ c.time.now := by have := of_decide_eq_true h; omega
  unfold Chip.catchUp
  cases c.time.now / 32000 + 1 - c.time.tick with
  | zero => rfl
  | succ n => simp [Chip.catchUpN, hnot]

theorem nextEdge_cpll (c : Chip) (h : c.reg 0x210 = 2) : c.nextEdge = (c.time.now / 32000 + 1) * 32000 := by
  have hcounts : c.idleCounts = 1 := by simp [Chip.idleCounts, h]
  simp only [Chip.nextEdge, hcounts, ceilDiv]
  simp
  omega

theorem scanTick_idle (c : Chip) (h : c.ctlOn = false ∨ c.asleep = true) : c.scanTick = c := by
  unfold Chip.scanTick
  refine if_neg ?_
  rcases h with h | h
  · simp [h]
  · have : c.blocksAsleep = true := by simp only [Chip.asleep] at h; simp [Chip.blocksAsleep, h]
    simp [this]

theorem tuneVoid_idle (keys : Tbl Key) (c : Chip) (h : c.bus.v1Wait = none) : c.tuneVoid keys = c := by simp only [Chip.tuneVoid, h]

/-- The command of a boundary that leaves the scan and a V1_TUNE that waits alone. -/
theorem exec_tickBoundary (s : State) (m : TickMeas) (hw : (s.chip.tickBoundary m).bus.v1Wait = none)
    (hscan : s.chip.passed = true ∨ (s.chip.tickBoundary m).ctlOn = false ∨ (s.chip.tickBoundary m).asleep = true) :
    BecomesPowered (.tickBoundary m) s (s.chip.tickBoundary m) := by
  have hpart : (if s.chip.passed then s.chip.tickBoundary m else (s.chip.tickBoundary m).scanTick) = s.chip.tickBoundary m := by
    split
    · rfl
    · next hp => exact scanTick_idle _ (hscan.resolve_left hp)
  change execTickBoundary m s = _
  simp only [execTickBoundary, State.both, hpart, tuneVoid_idle _ _ hw]

theorem tickBoundary_unpowered (c : Chip) (m : TickMeas) (h : c.ctlOn = false) :
    c.tickBoundary m = { c with time := { c.time with now := c.nextEdge, tick := c.nextEdge / 32000 + 1 } } := by
  simp [Chip.tickBoundary, h]

theorem tickBoundary_waits (c : Chip) (m : TickMeas) (hc : c.ctlOn = true) (h : c.asleep = true ∨ c.passed = true) :
    c.tickBoundary m = { c with time := { c.time with now := c.nextEdge } } := by
  have : (c.asleep || c.passed) = true := by simpa using h
  simp [Chip.tickBoundary, hc, this]

/-- A boundary that only moves studio time. -/
theorem exec_tickBoundary_waits (s : State) (m : TickMeas) (hw : s.chip.bus.v1Wait = none) (hc : s.chip.ctlOn = true)
    (h : s.chip.asleep = true ∨ s.chip.passed = true) :
    Becomes (.tickBoundary m) s { s.chip with time := { s.chip.time with now := s.chip.nextEdge } } := by
  have e := tickBoundary_waits s.chip m hc h
  have hx := exec_tickBoundary s m (by rw [e]; exact hw) (by rw [e]; exact h.symm.imp id .inr)
  rw [e] at hx
  refine hx.trans ?_
  simp only [keysLeft]
  rw [if_pos (show Chip.ctlOn { s.chip with time := { s.chip.time with now := s.chip.nextEdge } } = true from hc)]

theorem exec_tickBoundary_unpowered (s : State) (m : TickMeas) (hw : s.chip.bus.v1Wait = none) (hc : s.chip.ctlOn = false) :
    exec (.tickBoundary m) s = .next { s with keys := [], chip := { s.chip with time := { s.chip.time with
      now := s.chip.nextEdge, tick := s.chip.nextEdge / 32000 + 1 } } } := by
  have e := tickBoundary_unpowered s.chip m hc
  have hx := exec_tickBoundary s m (by rw [e]; exact hw) (by rw [e]; exact .inr (.inl hc))
  rw [e] at hx
  refine hx.trans ?_
  simp only [keysLeft]
  rw [if_neg (by rw [show Chip.ctlOn { s.chip with time := { s.chip.time with now := s.chip.nextEdge, tick := s.chip.nextEdge / 32000 + 1 } } = false from hc]; decide)]

theorem tickBoundary_deep (c : Chip) (m : TickMeas) (hc : c.ctlOn = true) (ha : c.asleep = false) (hu : c.upToDate = true)
    (ht : c.time.tick ≤ c.time.now / 32000 + 1) (hs : c.staged = []) (hd : c.power.deepPending = true) :
    ∃ d : Chip, c.tickBoundary m = { d.enterDeep with time := { d.enterDeep.time with now := max d.enterDeep.time.now c.nextEdge } } := by
  have hstep := tickStep_deep c m false hs hd
  have hp : c.passed = false := decide_eq_false (by omega)
  exact ⟨(beforeWrites c m false).applyWrites, by simp [Chip.tickBoundary, hc, ha, hp, catchUp_upToDate c true hu, hstep]⟩

theorem exec_tickBoundary_deep (s : State) (m : TickMeas) (hc : s.chip.ctlOn = true) (ha : s.chip.asleep = false) (hu : s.chip.upToDate = true)
    (ht : s.chip.time.tick ≤ s.chip.time.now / 32000 + 1) (hs : s.chip.staged = []) (hd : s.chip.power.deepPending = true) :
    EndsPowered (.tickBoundary m) s fun c =>
      c.power.deep = true ∧ c.boot.done = false ∧ s.chip.nextEdge ≤ c.time.now ∧ ∀ a, keptAt true a = false → a / 256 ∉ [8, 9] → c.reg a = resetAt a % 2 ^ 32 := by
  obtain ⟨d, e⟩ := tickBoundary_deep s.chip m hc ha hu ht hs hd
  refine ⟨_, exec_tickBoundary s m ?_ (.inr (.inl ?_)), ?_⟩
  · rw [e]; rfl
  · rw [e]; simp [Chip.ctlOn, Chip.enterDeep, Chip.resetDomains]
  · rw [e]
    exact ⟨rfl, rfl, Nat.le_max_right _ _, fun a hk hp => reg_enterDeep d a hk hp⟩

/-- Settles O59, by the branches of `Chip.tickBoundary` and, for the writes, by what `Chip.applyWrites` does with plain writes that are due. -/
theorem tickBoundaries : Obligations.TickBoundaries := by
  intro s m hw
  exact ⟨nextEdge_cpll s.chip, exec_tickBoundary_unpowered s m hw, fun hc ha => exec_tickBoundary_waits s m hw hc (.inl ha),
    fun hc ht => exec_tickBoundary_waits s m hw hc (.inr (decide_eq_true ht)), exec_tickBoundary_deep s m,
    fun a w hs hsp hd _ ha => applyWrites_single s.chip a w hs hsp hd ha⟩

end Sys2Proof.Proofs
end

section
/-! The bits of a value after a change of some of them, the chip after a reset (R12, R459), and the start of a boot (R460, R461, R581). -/

namespace Sys2Proof.Proofs

open Sys2Proof Sys2Proof.Machine Sys2Proof.Laws

/-! Bits of a value. -/

/-- The bits replaced are those of the new value, the others are as before. -/
theorem testBit_setBits_field (v lo w x j : Nat) :
    (setBits v lo w x).testBit j = if lo ≤ j ∧ j < lo + w then x.testBit (j - lo) else v.testBit j := by
  have hsplit : v = 2 ^ lo * (2 ^ w * (v / 2 ^ lo / 2 ^ w) + v / 2 ^ lo % 2 ^ w) + v % 2 ^ lo := by
    rw [Nat.div_add_mod, Nat.div_add_mod]
  have hr : v % 2 ^ lo < 2 ^ lo := Nat.mod_lt _ (Nat.two_pow_pos lo)
  have hm : v / 2 ^ lo % 2 ^ w < 2 ^ w := Nat.mod_lt _ (Nat.two_pow_pos w)
  have hx : x % 2 ^ w < 2 ^ w := Nat.mod_lt _ (Nat.two_pow_pos w)
  unfold setBits bits
  generalize v / 2 ^ lo / 2 ^ w = q at hsplit
  generalize v / 2 ^ lo % 2 ^ w = m at hsplit hm ⊢
  generalize v % 2 ^ lo = r at hsplit hr
  have hset : v - m * 2 ^ lo + x % 2 ^ w * 2 ^ lo = 2 ^ lo * (2 ^ w * q + x % 2 ^ w) + r := by
    rw [hsplit, Nat.mul_add, Nat.mul_add, Nat.mul_comm m, Nat.mul_comm (x % 2 ^ w)]
    omega
  rw [hset, hsplit, Nat.testBit_two_pow_mul_add _ hr, Nat.testBit_two_pow_mul_add _ hr, Nat.testBit_two_pow_mul_add _ hx,
    Nat.testBit_two_pow_mul_add _ hm, Nat.testBit_mod_two_pow]
  by_cases hlo : j < lo
  · simp [hlo, Nat.not_le.mpr hlo]
  · by_cases hw : j - lo < w
    · simp [hlo, hw, Nat.not_lt.mp hlo, show j < lo + w by omega]
    · simp [hlo, hw, show ¬ j < lo + w by omega]

theorem testBit_setBits_same (v i x : Nat) : (setBits v i 1 x).testBit i = x.testBit 0 := by
  rw [testBit_setBits_field, if_pos (by omega), Nat.sub_self]

theorem testBit_setBits_other (v i x j : Nat) (h : j ≠ i) : (setBits v i 1 x).testBit j = v.testBit j := by
  rw [testBit_setBits_field, if_neg (by omega)]

theorem bit_putField (c : Chip) (a lo w v j : Nat) :
    (c.putField a lo w v).bit a j = ((if lo ≤ j ∧ j < lo + w then v.testBit (j - lo) else c.bit a j) && (maskAt a).testBit j) := by
  unfold Chip.bit Chip.putField
  rw [reg_put_same, Nat.mod_eq_of_lt (Nat.lt_of_le_of_lt Nat.and_le_right (maskAt_lt a)), Nat.testBit_and, testBit_setBits_field]

theorem bit_putBit_same (c : Chip) (a i : Nat) (b : Bool) (hm : (maskAt a).testBit i = true) : (c.putBit a i b).bit a i = b := by
  unfold Chip.putBit
  rw [bit_putField, if_pos (by omega), hm, Nat.sub_self]
  cases b <;> rfl

theorem bit_putBit_other (c : Chip) (a i j : Nat) (b : Bool) (h : j ≠ i) (hm : (maskAt a).testBit j = true) : (c.putBit a i b).bit a j = c.bit a j := by
  unfold Chip.putBit
  rw [bit_putField, if_neg (by omega), hm, Bool.and_true]

theorem testBit_field (c : Chip) (a lo w j : Nat) : (c.field a lo w).testBit j = (decide (j < w) && c.bit a (lo + j)) := by
  unfold Chip.field Chip.bit bits
  rw [Nat.testBit_mod_two_pow, Nat.testBit_div_two_pow, Nat.add_comm]

theorem field_putField_same (c : Chip) (a lo w v : Nat) (hm : ∀ j < w, (maskAt a).testBit (lo + j) = true) (hv : v < 2 ^ w) :
    (c.putField a lo w v).field a lo w = v := by
  refine Nat.eq_of_testBit_eq fun j => ?_
  rw [testBit_field, bit_putField]
  by_cases hj : j < w
  · simp [hj, hm j hj]
  · simp [hj, Nat.testBit_lt_two_pow (Nat.lt_of_lt_of_le hv (Nat.pow_le_pow_right (by decide) (Nat.not_lt.mp hj)))]

theorem field_putBit_other (c : Chip) (a lo w i : Nat) (b : Bool) (hi : i < lo ∨ lo + w ≤ i) (hm : ∀ j < w, (maskAt a).testBit (lo + j) = true) :
    (c.putBit a i b).field a lo w = c.field a lo w := by
  refine Nat.eq_of_testBit_eq fun j => ?_
  rw [testBit_field, testBit_field]
  by_cases hj : j < w
  · rw [bit_putBit_other _ _ _ _ _ (by omega) (hm j hj)]
  · simp [hj]

/-! Events that are pending. -/

theorem mask_evt_testBit (n m : Nat) (hn : n < 64) : (maskAt (0x100 + n / 32)).testBit (m % 32) = true := by
  rw [mask_evt n hn, show (0xFFFFFFFF : Nat) = 2 ^ 32 - 1 from rfl, Nat.testBit_two_pow_sub_one]
  exact decide_eq_true (Nat.mod_lt m (by decide))

theorem isPending_bit (c : Chip) (n : Nat) (hn : n < 64) : c.isPending n = c.bit (0x100 + n / 32) (n % 32) := if_pos hn

theorem pending_makePending_keeps (c : Chip) (n m : Nat) (hn : n < 64) (hm : m < 64) (hp : c.isPending m = true) : (c.makePending n).isPending m = true := by
  unfold Chip.makePending
  rw [if_pos hn]
  split
  · exact hp
  · rw [isPending_bit _ _ hm] at hp ⊢
    change (c.putBit (0x100 + n / 32) (n % 32) true).bit (0x100 + m / 32) (m % 32) = true
    by_cases hword : m / 32 = n / 32
    · rw [hword] at hp ⊢
      by_cases hbit : m % 32 = n % 32
      · rw [hbit]; exact bit_putBit_same _ _ _ _ (mask_evt_testBit n n hn)
      · rw [bit_putBit_other _ _ _ _ _ hbit (mask_evt_testBit n m hn)]; exact hp
    · unfold Chip.bit Chip.putBit Chip.putField at *
      rw [reg_put_other _ _ _ _ (by omega)]; exact hp

/-- A raise leaves the events that are pending so. -/
theorem pending_raise_keeps (c : Chip) (n m h d : Nat) (hn : n < 64) (hm : m < 64) (hp : c.isPending m = true) :
    (c.raise n h d).isPending m = true := by
  have hsat : satOf (0x140 + n) = some (0x10A + n / 32, n % 32) := by
    unfold satOf; rw [if_pos (by omega)]; simp
  have hcount : ∀ x : Chip, (x.count (0x140 + n)).isPending m = x.isPending m := fun x => by
    rw [isPending_bit _ _ hm, isPending_bit _ _ hm]
    unfold Chip.bit
    rw [reg_count_other _ _ _ (by omega) (by omega) (by rw [hsat]; rintro _ ⟨⟩; dsimp only; omega)]
  have hnote : ((c.noteLegacy n h).noteRaise n h (d % 2 ^ 32)).isPending m = c.isPending m := by
    unfold Chip.isPending Chip.bit
    simp only [reg_noteRaise, reg_noteLegacy]
  exact (hcount _).trans (pending_makePending_keeps _ n m hn hm (hnote.trans hp))

/-- A parameter that holds no pending bit leaves the events as they are. -/
theorem isPending_put (c : Chip) (a v n : Nat) (hn : n < 64) (ha : a / 256 ≠ 1) : (c.put a v).isPending n = c.isPending n := by
  unfold Chip.isPending Chip.bit
  rw [if_pos hn, if_pos hn, reg_put_other _ _ _ _ (by omega)]

/-! What every step of a fold over a list leaves alone. -/

theorem each_frame_mem {α β : Type} (p : Chip → β) {f : Chip → α → Chip} {l : List α} (hf : ∀ c, ∀ x ∈ l, p (f c x) = p c) (c : Chip) :
    p (c.each l f) = p c := by
  induction l generalizing c with
  | nil => rfl
  | cons x l ih => exact (ih (fun d y hy => hf d y (List.mem_cons_of_mem _ hy)) (f c x)).trans (hf c x List.mem_cons_self)

/-! The chip after a reset. -/

theorem reg_resetDomains (c : Chip) (a : Nat) (hk : keptAt false a = false) : (c.resetDomains false).reg a = resetAt a % 2 ^ 32 := by
  have hfind : Tbl.find (c.resetDomains false).regs a = none := find_none_of_forall fun e he hea => by
    have hkept : (keptAt false e.1 || (false && c.failedConv e.1)) = true := (List.mem_filter.mp he).2
    simp [hea, hk] at hkept
  simp only [Chip.reg, Chip.raw, Tbl.get, hfind]
  exact BitVec.toNat_ofNat _ _

/-- Beyond the domains that lose their state, a reset writes parameters only: whatever no write changes is that of `Chip.resetDomains`. -/
theorem resetAll_frame {β : Type} (p : Chip → β) (hput : ∀ c a v, p (Chip.put c a v) = p c) (c : Chip) :
    p c.resetAll = p (c.resetDomains false) := by
  refine (each_frame p _ (fun d ch => ?_) _ _).trans (hput _ _ _)
  dsimp only
  split
  · exact (hput _ _ _).trans ((hput _ _ _).trans (hput _ _ _))
  · exact (hput _ _ _).trans (hput _ _ _)

/-- The parameters that a reset writes are those of the control outputs. -/
theorem reg_resetAll_outside (c : Chip) (a : Nat) (ha : a / 256 ≠ 0x0E) : c.resetAll.reg a = (c.resetDomains false).reg a := by
  refine (each_frame_mem (fun d => d.reg a) (fun d ch hch => ?_) _).trans (reg_put_other _ _ _ _ (by omega))
  have hlt : ch < 4 := by simp at hch; omega
  have hne : ∀ o, o < 16 → a ≠ dacA ch o := fun o ho => by unfold dacA; omega
  dsimp only
  split
  · exact (reg_put_other _ _ _ _ (hne 9 (by omega))).trans ((reg_put_other _ _ _ _ (hne 0x0A (by omega))).trans (reg_put_other _ _ _ _ (hne 1 (by omega))))
  · exact (reg_put_other _ _ _ _ (hne 0x0A (by omega))).trans (reg_put_other _ _ _ _ (hne 1 (by omega)))

theorem reg_resetAll (c : Chip) (a : Nat) (ha : resetHere a = true) : c.resetAll.reg a = resetAt a % 2 ^ 32 := by
  obtain ⟨⟨hk, -⟩, he⟩ : (keptAt false a = false ∧ a / 256 ≠ 1) ∧ a / 256 ≠ 0x0E := by simpa [resetHere] using ha
  exact (reg_resetAll_outside c a he).trans (reg_resetDomains c a hk)

@[simp] theorem resetAll_boot (c : Chip) : c.resetAll.boot = BootSt.reset := resetAll_frame (·.boot) (fun _ _ _ => rfl) c
@[simp] theorem resetAll_jobs (c : Chip) : c.resetAll.jobs = [] := resetAll_frame (·.jobs) (fun _ _ _ => rfl) c
@[simp] theorem resetAll_invalid (c : Chip) : c.resetAll.power.invalid = c.power.invalid := resetAll_frame (·.power.invalid) (fun _ _ _ => rfl) c
@[simp] theorem resetAll_resetN (c : Chip) : c.resetAll.power.resetN = c.power.resetN := resetAll_frame (·.power.resetN) (fun _ _ _ => rfl) c
@[simp] theorem resetAll_deep (c : Chip) : c.resetAll.power.deep = false := resetAll_frame (·.power.deep) (fun _ _ _ => rfl) c
@[simp] theorem resetAll_aoReady (c : Chip) : c.resetAll.power.aoReady = c.power.aoReady := resetAll_frame (·.power.aoReady) (fun _ _ _ => rfl) c

/-! The start of a boot. -/

theorem reg_samplePins_other (c : Chip) (a : Nat) (h : a ≠ 0x500) (h' : a ≠ 0x402) : c.samplePins.reg a = c.reg a :=
  (reg_put_other _ _ _ _ h').trans (reg_put_other _ _ _ _ h)

theorem tryBoot_starts (c : Chip) (hr : c.power.aoReady = true) (hon : c.ctlOn = true) (hc : c.power.cause.isSome = true) (hp : c.boot.phase = 0) :
    c.tryBoot = c.bootStart := by
  simp [Chip.tryBoot, hr, hon, hc, hp]

@[simp] theorem bootStart_power (c : Chip) : c.bootStart.power = { c.power with cause := none } := by simp [Chip.bootStart]

theorem tryBoot_resetN (c : Chip) : c.tryBoot.power.resetN = c.power.resetN := by
  unfold Chip.tryBoot
  split
  · rw [bootStart_power]
  · rfl

theorem reg_bootStart (c : Chip) (a : Nat) (ha : a / 256 ≠ 1) (h : a ≠ 0x231) :
    c.bootStart.reg a = (c.put 0x400 (c.power.cause.getD 1)).reg a :=
  (reg_put_other _ _ _ _ h).trans (reg_raise_other _ 3 _ _ a (by decide) ha)

/-- The start of a boot writes BOOT_CAUSE and TCXO_STATE, and raises event 3. -/
theorem bootStart_sameRegs (c : Chip) : SameRegs [0x400, 0x231] c c.bootStart := by
  intro a ha hex
  obtain ⟨h4, h2⟩ : a ≠ 0x400 ∧ a ≠ 0x231 := by simpa using hex
  exact (reg_bootStart c a ha h2).trans (reg_put_other _ _ _ _ h4)

theorem tryBoot_sameRegs (c : Chip) : SameRegs [0x400, 0x231] c c.tryBoot := by
  unfold Chip.tryBoot
  split
  · exact bootStart_sameRegs c
  · exact fun _ _ _ => rfl

theorem bootStart_cause (c : Chip) (n : Nat) (hc : c.power.cause = some n) : c.bootStart.reg 0x400 = n &&& maskAt 0x400 := by
  rw [reg_bootStart c _ (by decide) (by decide), reg_put_same, hc]
  exact Nat.mod_eq_of_lt (Nat.lt_of_le_of_lt Nat.and_le_right (maskAt_lt _))

theorem bootStart_tcxoState (c : Chip) : c.bootStart.reg 0x231 = 1 := reg_put_fits _ _ _ 2 rfl (by decide) (by decide)

theorem bootStart_raises (c : Chip) : c.bootStart.isPending 3 = true :=
  (isPending_put _ _ _ _ (by decide) (by decide)).trans (pending_raise _ 3 _ _ (by decide))

theorem bootStart_keeps_pending (c : Chip) (m : Nat) (hm : m < 64) (hp : c.isPending m = true) : c.bootStart.isPending m = true := by
  refine (isPending_put _ _ _ _ hm (by decide)).trans (pending_raise_keeps (c.put 0x400 _) 3 m _ _ (by decide) hm ?_)
  rwa [isPending_put _ _ _ _ hm (by decide)]

end Sys2Proof.Proofs
end

section
/-! O25: supplies, resets and the start of a boot (R28, R459 to R461, R528, R575 to R581). -/

namespace Sys2Proof.Proofs

open Sys2Proof Sys2Proof.Machine Sys2Proof.Laws

/-! How a row that acts on the chip ends, with and without power for the key slots. -/

theorem becomes_onTime {i : Instr} {s : State} {f : Chip → Chip} {c : Chip} (hx : exec i s = .next (s.onTime f)) (e : f s.chip = c) (hon : c.ctlOn = true) :
    Becomes i s c := by
  subst e
  refine hx.trans ?_
  simp only [State.onTime, State.both, keysLeft_on _ _ hon]

theorem keysLeft_off (k : Tbl Key) (c : Chip) (h : c.ctlOn = false) : keysLeft k c = [] := by simp [keysLeft, h]

/-- A row that ends without power for the key slots leaves none of their contents. -/
theorem exec_onTime_off {i : Instr} {s : State} {f : Chip → Chip} {P : Chip → Prop} (hx : exec i s = .next (s.onTime f)) (hoff : (f s.chip).ctlOn = false)
    (hP : P (f s.chip)) : ∃ t, exec i s = .next t ∧ t.keys = [] ∧ t.pending = s.pending ∧ P t.chip :=
  ⟨_, hx, keysLeft_off _ _ hoff, rfl, hP⟩

/-! Whether CTL is on. -/

theorem ctlOn_of_resetN (c : Chip) (h : c.power.resetN = false) : c.ctlOn = false := by simp [Chip.ctlOn, h]

theorem ctlOn_of_invalid (c : Chip) (h : c.power.invalid.testBit 0 = true ∨ c.power.invalid.testBit 3 = true) : c.ctlOn = false := by
  rcases h with h | h <;> simp [Chip.ctlOn, h]

theorem invalid_of_ctlOn {c : Chip} (h : c.ctlOn = true) : c.power.invalid.testBit 3 = false := by
  simp only [Chip.ctlOn, Bool.and_eq_true, Bool.not_eq_true'] at h
  exact h.1.2

/-- A rail other than the core and the always-on one does not decide whether CTL is on. -/
theorem ctlOn_setInvalid (c : Chip) (r : Nat) (b : Bool) (h0 : r ≠ 0) (h3 : r ≠ 3) : (c.setInvalid r b).ctlOn = c.ctlOn := by
  simp only [Chip.ctlOn, Chip.setInvalid, testBit_setBits_other _ _ _ _ h0.symm, testBit_setBits_other _ _ _ _ h3.symm]

theorem invalid_setInvalid (c : Chip) (r : Nat) : (c.setInvalid r true).power.invalid.testBit r = true := testBit_setBits_same _ _ _

/-! VDD_AO and the start of the boot. -/

theorem exec_vddAoValid (s : State) : ∃ t, exec .vddAoValid s = .next t ∧ t.keys = [] ∧ t.pending = s.pending ∧ (∀ a, t.chip.reg a = resetAt a % 2 ^ 32) ∧
    t.chip.power.invalid.testBit 3 = false ∧ t.chip.power.resetN = s.chip.power.resetN ∧ t.chip.power.cause = some 0 :=
  ⟨_, rfl, ite_self _, rfl, reg_reset, testBit_setBits_same _ _ _, rfl, rfl⟩

/-- The start of the boot from a chip `d` that is `c` but for the parameters `ex` and for AO being ready. -/
theorem bootStart_facts {c d : Chip} {n : Nat} {ex : List Nat} (hc : d.power.cause = some n) (hr : d.power.aoReady = true) (hs : SameRegs ex c d) :
    d.bootStart.power.aoReady = true ∧ d.bootStart.boot.phase = 1 ∧ d.bootStart.reg 0x400 = n &&& maskAt 0x400 ∧ d.bootStart.isPending 3 = true ∧
      d.bootStart.reg 0x231 = 1 ∧ d.bootStart.clk.tcxoEn = true ∧ SameRegs (0x400 :: 0x231 :: ex) c d.bootStart := by
  refine ⟨?_, rfl, bootStart_cause d n hc, bootStart_raises d, bootStart_tcxoState d, rfl, fun a ha hex => ?_⟩
  · rw [bootStart_power]; exact hr
  · obtain ⟨h4, h2, hex⟩ : a ≠ 0x400 ∧ a ≠ 0x231 ∧ a ∉ ex := by simpa using hex
    exact (bootStart_sameRegs d a ha (by simp [h4, h2])).trans (hs a ha hex)

/-- AO has become ready. -/
def aoReadied (c : Chip) : Chip := { c with power := { c.power with aoReady := true } }

/-- XO32K declared failed: CLK_AO_FAIL is set and event 13 raised (R356). -/
theorem xo32kFail_eq (c : Chip) (h : c.reg 0x23C ≠ 1) : c.xo32kFail = (c.put 0x23C 1).raise 13 (handleBlock 0x0C) 0 := if_neg h

theorem reg_xo32kFail (c : Chip) (h : c.reg 0x23C ≠ 1) (a : Nat) (ha : a / 256 ≠ 1) : c.xo32kFail.reg a = (c.put 0x23C 1).reg a := by
  rw [xo32kFail_eq c h]
  exact reg_raise_other _ _ _ _ _ (by decide) ha

theorem pending_xo32kFail (c : Chip) (h : c.reg 0x23C ≠ 1) : c.xo32kFail.isPending 13 = true := by
  rw [xo32kFail_eq c h]
  exact pending_raise _ _ _ _ (by decide)

theorem xo32kFail_sameRegs (c : Chip) (h : c.reg 0x23C ≠ 1) : SameRegs [0x23C] c c.xo32kFail := fun a ha hex =>
  (reg_xo32kFail c h a ha).trans (reg_put_other _ _ _ _ (by simpa using hex))

theorem xo32kFail_only (c : Chip) : ∃ r e, c.xo32kFail = { c with regs := r, ev := e } := by
  unfold Chip.xo32kFail
  split
  · exact ⟨c.regs, c.ev, rfl⟩
  · obtain ⟨r, e, h⟩ := raise_only (c.put 0x23C 1) 13 (handleBlock 0x0C) 0
    exact ⟨r, e, h⟩

section BootStart
variable {s : State} {n : Nat} (hao : s.chip.power.invalid.testBit 3 = false) (hr : s.chip.power.aoReady = false) (hc : s.chip.power.cause = some n)
  (hon : s.chip.ctlOn = true) (hp : s.chip.boot.phase = 0)
include hao hr hc hon hp

theorem exec_powerUpBootStart : Becomes .powerUpBootStart s (aoReadied s.chip).bootStart := by
  have hboot : (aoReadied s.chip).tryBoot = (aoReadied s.chip).bootStart := tryBoot_starts _ rfl hon (by simp [aoReadied, hc]) hp
  have hedges : s.chip.edgesPassed = (aoReadied s.chip).tryBoot := by simp [Chip.edgesPassed, aoReadied, hao, hr]
  rw [← hboot, ← hedges]
  rfl

theorem exec_aoStartupTimeout : Becomes .aoStartupTimeout s (aoReadied s.chip).xo32kFail.bootStart := by
  obtain ⟨r, e, hx⟩ := xo32kFail_only (aoReadied s.chip)
  have hboot : (aoReadied s.chip).xo32kFail.tryBoot = (aoReadied s.chip).xo32kFail.bootStart := by
    rw [hx]; exact tryBoot_starts _ rfl hon (by simp [aoReadied, hc]) hp
  have hedges : s.chip.edgesMissing = (aoReadied s.chip).xo32kFail.tryBoot := by simp [Chip.edgesMissing, aoReadied, hao, hr]
  rw [← hboot, ← hedges]
  rfl

theorem exec_boot (i : Instr) (hi : i = .powerUpBootStart ∨ (i = .aoStartupTimeout ∧ s.chip.reg 0x23C ≠ 1)) : Ends i s fun c =>
    c.power.aoReady = true ∧ c.boot.phase = 1 ∧ c.reg 0x400 = n &&& maskAt 0x400 ∧ c.isPending 3 = true ∧ c.reg 0x231 = 1 ∧ c.clk.tcxoEn = true ∧
      (i = .aoStartupTimeout → c.reg 0x23C = 1 ∧ c.isPending 13 = true) ∧ SameRegs [0x400, 0x231, 0x23C] s.chip c := by
  rcases hi with rfl | ⟨rfl, hx⟩
  · obtain ⟨hready, hphase, hcause, hev, htcxo, hen, hsame⟩ := bootStart_facts (d := aoReadied s.chip) (ex := [0x23C]) hc rfl fun _ _ _ => rfl
    exact ⟨_, exec_powerUpBootStart hao hr hc hon hp, hready, hphase, hcause, hev, htcxo, hen, nofun, hsame⟩
  · have hx' : (aoReadied s.chip).reg 0x23C ≠ 1 := hx
    obtain ⟨r, e, hd⟩ := xo32kFail_only (aoReadied s.chip)
    obtain ⟨hready, hphase, hcause, hev, htcxo, hen, hsame⟩ := bootStart_facts (d := (aoReadied s.chip).xo32kFail) (c := s.chip) (ex := [0x23C])
      (by rw [hd]; exact hc) (by rw [hd]; rfl) (xo32kFail_sameRegs _ hx')
    have hfail : (aoReadied s.chip).xo32kFail.bootStart.reg 0x23C = 1 :=
      (bootStart_sameRegs _ _ (by decide) (by decide)).trans ((reg_xo32kFail _ hx' _ (by decide)).trans (reg_put_fits _ _ _ 1 rfl (by decide) (by decide)))
    exact ⟨_, exec_aoStartupTimeout hao hr hc hon hp, hready, hphase, hcause, hev, htcxo, hen,
      fun _ => ⟨hfail, bootStart_keeps_pending _ 13 (by decide) (pending_xo32kFail _ hx')⟩, hsame⟩

end BootStart

/-! RESET_N. -/

theorem resetAssert_long (c : Chip) (ns : Nat) (h : 1000 ≤ ns) (hao : c.power.invalid.testBit 3 = false) :
    c.resetAssert ns = { c.resetAll.withCause c.power.cause 1 with power := { (c.resetAll.withCause c.power.cause 1).power with resetN := false } } := by
  have hlong : ¬ ns < 1000 := by omega
  have hno : ¬ ns ≤ 200 := by omega
  simp [Chip.resetAssert, hlong, hno, hao]

theorem resetAssert_short (c : Chip) (ns : Nat) (h : ns ≤ 200) : c.resetAssert ns = c := by
  have hno : ¬ 200 < ns := by omega
  simp [Chip.resetAssert, h, hno]

theorem exec_resetNAssert_long (s : State) (ns : Nat) (h : 1000 ≤ ns) (hao : s.chip.power.invalid.testBit 3 = false) :
    ∃ t, exec (.resetNAssert ns) s = .next t ∧ t.keys = [] ∧ t.pending = s.pending ∧ t.chip.power.resetN = false ∧ t.chip.boot.done = false ∧ t.chip.jobs = [] ∧
      ∀ a, resetHere a = true → t.chip.reg a = resetAt a % 2 ^ 32 := by
  have e := resetAssert_long s.chip ns h hao
  refine exec_onTime_off (f := fun c => c.resetAssert ns)
    (P := fun c => c.power.resetN = false ∧ c.boot.done = false ∧ c.jobs = [] ∧ ∀ a, resetHere a = true → c.reg a = resetAt a % 2 ^ 32) rfl ?_ ?_
  · exact ctlOn_of_resetN _ (by rw [e])
  · rw [e]
    exact ⟨rfl, congrArg BootSt.done (resetAll_boot s.chip), resetAll_jobs s.chip, reg_resetAll s.chip⟩

theorem exec_resetNRelease (s : State) (a p : Nat) (ha : a < 4) (hp : p < 4) (hn : s.chip.power.resetN = false) : Ends (.resetNRelease a p) s fun c =>
    c.power.resetN = true ∧ c.reg 0x500 = 0x58 + a ∧ c.reg 0x402 = p := by
  let d : Chip := { s.chip with power := { s.chip.power with resetN := true, addrPins := a % 4, profPins := p % 4 } }
  have hact : (if okPin a && okPin p then s.chip.resetRelease a p else s.chip) = d.samplePins.tryBoot := by simp [okPin, ha, hp, Chip.resetRelease, hn, d]
  have haddr : d.samplePins.reg 0x500 = 0x58 + a % 4 :=
    (reg_put_other _ _ _ _ (by decide)).trans (reg_put_fits _ _ _ 7 rfl (by decide) (show 0x58 + a % 4 < 2 ^ 7 by omega))
  have hprof : d.samplePins.reg 0x402 = p % 4 := reg_put_fits _ _ _ 2 rfl (by decide) (show p % 4 < 2 ^ 2 by omega)
  refine ⟨d.samplePins.tryBoot, by rw [← hact]; rfl, tryBoot_resetN _, ?_, ?_⟩
  · rw [tryBoot_sameRegs d.samplePins _ (by decide) (by decide), haddr, Nat.mod_eq_of_lt ha]
  · rw [tryBoot_sameRegs d.samplePins _ (by decide) (by decide), hprof, Nat.mod_eq_of_lt hp]

theorem exec_resetNRelease_high (s : State) (a p : Nat) (hn : s.chip.power.resetN = true) : Becomes (.resetNRelease a p) s s.chip := by
  have hact : (if okPin a && okPin p then s.chip.resetRelease a p else s.chip) = s.chip := by simp [Chip.resetRelease, hn]
  change Host.Outcome.next (s.onChip _) = _
  rw [State.onChip, hact]

/-! Rails. -/

theorem mask_supply_testBit (r : Rail) : (maskAt 0x001).testBit (railNum r) = true := by cases r <;> rfl

theorem exec_railBelowWarning (s : State) (r : Rail) (hao : s.chip.power.invalid.testBit 3 = false) (hb : s.chip.bit 0x001 (railNum r) = false)
    (hcnt : s.chip.reg 0x002 < 0xFFFFFFFF) : Ends (.railBelowWarning r) s fun c =>
      c.bit 0x001 (railNum r) = true ∧ c.isPending 6 = true ∧ c.reg 0x002 = s.chip.reg 0x002 + 1 ∧ SameRegs [0x001, 0x002] s.chip c := by
  let d := s.chip.putBit 0x001 (railNum r) true
  let x := d.raise 6 (handleBlock 0x08) (d.reg 0x001)
  have hact : s.chip.railWarning (railNum r) = x.count 0x002 := by simp [Chip.railWarning, hao, hb, d, x]
  have hraise : ∀ a, a / 256 ≠ 1 → x.reg a = d.reg a := fun a ha => reg_raise_other _ _ _ _ a (by decide) ha
  have hold : x.reg 0x002 = s.chip.reg 0x002 := (hraise _ (by decide)).trans (reg_put_other _ _ _ _ (by decide))
  have hput : x.count 0x002 = x.put 0x002 (x.reg 0x002 + 1) := if_pos (by rw [hold]; exact hcnt)
  have hother : ∀ a, a ≠ 0x002 → (x.count 0x002).reg a = x.reg a := fun a ha => by rw [hput]; exact reg_put_other _ _ _ _ ha
  refine ⟨x.count 0x002, by rw [← hact]; rfl, ?_, ?_, ?_, fun a ha hex => ?_⟩
  · unfold Chip.bit
    rw [hother _ (by decide), hraise _ (by decide)]
    exact bit_putBit_same s.chip 0x001 _ true (mask_supply_testBit r)
  · rw [hput, isPending_put _ _ _ _ (by decide) (by decide)]
    exact pending_raise _ _ _ _ (by decide)
  · rw [reg_count_same x 0x002 32 rfl (by decide) (by omega), hold]
  · obtain ⟨h1, h2⟩ : a ≠ 0x001 ∧ a ≠ 0x002 := by simpa using hex
    exact (hother a h2).trans ((hraise a ha).trans (reg_put_other _ _ _ _ h1))

theorem railInvalid_core (c : Chip) (h : c.power.invalid.testBit 0 = false) (hao : c.power.invalid.testBit 3 = false) :
    c.railInvalid 0 = (c.resetAll.withCause c.power.cause 3).setInvalid 0 true := by simp [Chip.railInvalid, h, hao]

theorem railInvalid_ao (c : Chip) (hao : c.power.invalid.testBit 3 = false) : c.railInvalid 3 = c.lostAll (setBits c.power.invalid 3 1 1) := by
  simp [Chip.railInvalid, hao]

/-- Without the core or the always-on rail CTL is off, and the receiver has to boot again. -/
theorem exec_railBelowValid_ctl (s : State) (r : Rail) (hr : r = .core ∨ r = .ao) (h : s.chip.power.invalid.testBit (railNum r) = false)
    (hao : s.chip.power.invalid.testBit 3 = false) :
    ∃ t, exec (.railBelowValid r) s = .next t ∧ t.keys = [] ∧ t.pending = s.pending ∧ t.chip.ctlOn = false ∧ t.chip.boot.done = false := by
  have hoff : (s.chip.railInvalid (railNum r)).ctlOn = false ∧ (s.chip.railInvalid (railNum r)).boot.done = false := by
    rcases hr with rfl | rfl
    · rw [railNum, railInvalid_core _ h hao]
      exact ⟨ctlOn_of_invalid _ (.inl (invalid_setInvalid _ 0)), congrArg BootSt.done (resetAll_boot s.chip)⟩
    · rw [railNum, railInvalid_ao _ hao]
      exact ⟨ctlOn_of_invalid _ (.inr (testBit_setBits_same _ _ _)), rfl⟩
  exact exec_onTime_off (f := fun c => c.railInvalid (railNum r)) (P := fun c => c.ctlOn = false ∧ c.boot.done = false) rfl hoff.1 hoff

theorem exec_railBelowValid_conv (s : State) (r : Rail) (hr : r = .adc ∨ r = .an) (h : s.chip.power.invalid.testBit (railNum r) = false)
    (hao : s.chip.power.invalid.testBit 3 = false) (hran : s.chip.convRails = true) (hon : s.chip.ctlOn = true) :
    EndsPowered (.railBelowValid r) s fun c => c.power.invalid.testBit (railNum r) = true ∧ c.power.convAt = some s.chip.time.now := by
  have hnum : railNum r = 1 ∨ railNum r = 2 := by rcases hr with rfl | rfl <;> simp [railNum]
  have hctl : (s.chip.setInvalid (railNum r) true).ctlOn = true := (ctlOn_setInvalid _ _ _ (by omega) (by omega)).trans hon
  have hact : (s.chip.railInvalid (railNum r)).power = { (s.chip.setInvalid (railNum r) true).power with convAt := some s.chip.time.now } := by
    unfold Chip.railInvalid
    rw [if_neg (by simp [h, hao]), if_neg (by omega), if_neg (by omega), if_pos hnum]
    simp only [hran, hctl, Bool.and_self, ↓reduceIte]
    rfl
  have hinvalid : (s.chip.railInvalid (railNum r)).power.invalid.testBit (railNum r) = true := by rw [hact]; exact invalid_setInvalid _ _
  have hat : (s.chip.railInvalid (railNum r)).power.convAt = some s.chip.time.now := by rw [hact]
  exact ⟨s.chip.railInvalid (railNum r), rfl, hinvalid, hat⟩

theorem exec_railBelowValid_io (s : State) (h : s.chip.power.invalid.testBit 4 = false) (hon : s.chip.ctlOn = true) :
    Becomes (.railBelowValid .io) s (s.chip.setInvalid 4 true) := by
  have hao := invalid_of_ctlOn hon
  exact becomes_onTime (f := fun c => c.railInvalid 4) rfl (by simp [Chip.railInvalid, h, hao])
    ((ctlOn_setInvalid _ _ _ (by decide) (by decide)).trans hon)

/-- A link that is off stays so, whatever its loops and its rail do. -/
theorem linkLoops_off (c : Chip) (h : c.reg 0xD00 = 0) : c.linkLoops = c := by simp [Chip.linkLoops, h]

theorem exec_railBelowValid_pa (s : State) (h : s.chip.power.invalid.testBit 5 = false) (hon : s.chip.ctlOn = true) (hl : s.chip.reg 0xD00 = 0) :
    Becomes (.railBelowValid .pa) s (s.chip.setInvalid 5 true) := by
  have hao := invalid_of_ctlOn hon
  have hctl : (s.chip.setInvalid 5 true).ctlOn = true := (ctlOn_setInvalid _ _ _ (by decide) (by decide)).trans hon
  have hlink : (s.chip.setInvalid 5 true).linkLoops = s.chip.setInvalid 5 true := linkLoops_off _ hl
  exact becomes_onTime (f := fun c => c.railInvalid 5) rfl (by simp [Chip.railInvalid, Chip.live, h, hao, hctl, hlink]) hctl

theorem exec_railRecovered (s : State) (r : Rail) (hao : s.chip.power.invalid.testBit 3 = false) (h : s.chip.power.invalid.testBit (railNum r) = false) :
    Becomes (.railRecovered r) s (s.chip.putBit 0x001 (railNum r) false) := by
  have hact : s.chip.railBack (railNum r) = s.chip.putBit 0x001 (railNum r) false := by simp [Chip.railBack, hao, h]
  rw [← hact]
  rfl

/-! The control outputs' rail. -/

/-- A channel when VDD_DAC becomes valid: its range is the rail's class, and nothing of an earlier output is left. -/
def dacRestart (five : Bool) (c : Chip) (ch : Nat) : Chip :=
  (c.put (dacA ch 1) (if five then 1 else 0)).modDac ch fun d => { d with fresh := true, sine := false, sineReq := none, hold := false, rangeEdges := 0 }

/-- The channel then presents its clear code. -/
def dacClear (five : Bool) (c : Chip) (ch : Nat) : Chip := (dacRestart five c ch).present ch 1 ((dacRestart five c ch).clrCode ch)

/-- The code that CLRSEL `cs` fixes (R527). -/
def clrselCode (cs : Nat) : Nat := if cs = 0 then 0 else if cs = 1 then 0x8000 else 0xFFFF

/-- The channel `ch` presents `code`, its clear code, on a rail of the class `five`. -/
def DacCleared (five : Bool) (code : Nat) (c : Chip) (ch : Nat) : Prop :=
  c.reg (dacA ch 9) = 1 ∧ c.reg (dacA ch 0x0A) = code ∧ c.reg (dacA ch 1) = if five then 1 else 0

theorem dacA_inj {ch dh o p : Nat} (ho : o < 16) (hp : p < 16) (h : dacA ch o = dacA dh p) : ch = dh ∧ o = p := by
  unfold dacA at h
  omega

theorem dacClear_offsets : ∀ o ∈ [1, 9, 0x0A], o ≠ 0 ∧ o < 16 := by decide

/-- A channel writes three parameters of its own. -/
theorem reg_dacClear_other (five : Bool) (c : Chip) (ch a : Nat) (h : ∀ o ∈ [1, 9, 0x0A], a ≠ dacA ch o) : (dacClear five c ch).reg a = c.reg a :=
  (reg_put_other _ _ _ _ (h 9 (by decide))).trans ((reg_put_other _ _ _ _ (h 0x0A (by decide))).trans (reg_put_other _ _ _ _ (h 1 (by decide))))

/-- CLRSEL, at offset 0 of the block after the channels, is none of them. -/
theorem reg_dacClear_status (five : Bool) (c : Chip) (ch : Nat) : (dacClear five c ch).reg 0xE40 = c.reg 0xE40 :=
  reg_dacClear_other _ _ _ _ fun o ho h => by
    obtain ⟨h0, hlt⟩ := dacClear_offsets o ho
    exact h0 (dacA_inj (ch := 4) (o := 0) (by decide) hlt h).2.symm

theorem clrselCode_lt (cs : Nat) (hcs : cs < 3) : clrselCode cs < 2 ^ 16 := by
  have hall : ∀ cs < 3, clrselCode cs < 2 ^ 16 := by decide
  exact hall cs hcs

theorem clrCode_of_field (c : Chip) (ch cs : Nat) (hcs : cs < 3) (h : c.field 0xE40 0 2 = cs) :
    c.clrCode ch = clrselCode cs := by
  unfold Chip.clrCode
  rw [h]
  obtain rfl | rfl | rfl : cs = 0 ∨ cs = 1 ∨ cs = 2 := by omega
  all_goals rfl

theorem dacClear_clears (five : Bool) (c : Chip) (ch cs : Nat) (hch : ch < 4) (hcs : cs < 3) (h : c.field 0xE40 0 2 = cs) :
    DacCleared five (clrselCode cs) (dacClear five c ch) ch := by
  have hmask : ∀ ch < 4, maskAt (dacA ch 9) = 2 ^ 3 - 1 ∧ maskAt (dacA ch 0x0A) = 2 ^ 16 - 1 ∧ maskAt (dacA ch 1) = 2 ^ 1 - 1 := by decide
  obtain ⟨hm9, hmA, hm1⟩ := hmask ch hch
  have hne : ∀ o p, o < 16 → p < 16 → o ≠ p → dacA ch o ≠ dacA ch p := fun o p ho hp hop e => hop (dacA_inj ho hp e).2
  have h40 : (0xE40 : Nat) ≠ dacA ch 1 := by unfold dacA; omega
  have hsel : (dacRestart five c ch).field 0xE40 0 2 = cs := (congrArg (bits · 0 2) (reg_put_other _ _ _ _ h40)).trans h
  have hcode : clrselCode cs < 2 ^ 16 := clrselCode_lt cs hcs
  refine ⟨reg_put_fits _ _ _ 3 hm9 (by decide) (by decide), ?_, ?_⟩
  · refine (reg_put_other _ _ _ _ (hne 0x0A 9 (by decide) (by decide) (by decide))).trans ?_
    rw [clrCode_of_field _ ch cs hcs hsel]
    exact reg_put_fits _ _ _ 16 hmA (by decide) hcode
  · refine (reg_put_other _ _ _ _ (hne 1 9 (by decide) (by decide) (by decide))).trans
      ((reg_put_other _ _ _ _ (hne 1 0x0A (by decide) (by decide) (by decide))).trans ?_)
    exact reg_put_fits c _ _ 1 hm1 (by decide) (by cases five <;> decide)

theorem dacClear_keeps_cleared (five : Bool) (code : Nat) (c : Chip) (ch dh : Nat) (hne : ch ≠ dh) (h : DacCleared five code c ch) :
    DacCleared five code (dacClear five c dh) ch := by
  have hother : ∀ p < 16, (dacClear five c dh).reg (dacA ch p) = c.reg (dacA ch p) := fun p hp => reg_dacClear_other _ _ _ _ fun o ho e =>
    hne (dacA_inj hp (dacClear_offsets o ho).2 e).1
  unfold DacCleared
  rw [hother 9 (by decide), hother 0x0A (by decide), hother 1 (by decide)]
  exact h

/-- What a step of a fold gives its own index, and the steps of other indices keep, every index of the fold has at its end. -/
theorem each_reaches {α : Type} {f : Chip → α → Chip} {Inv : Chip → Prop} {P : Chip → α → Prop} {x : α} (hinv : ∀ c y, Inv c → Inv (f c y))
    (hgives : ∀ c, Inv c → P (f c x) x) (hkeeps : ∀ c y, x ≠ y → P c x → P (f c y) x) (l : List α) (c : Chip) (hc : Inv c) (hx : P c x ∨ x ∈ l) :
    P (c.each l f) x := by
  induction l generalizing c with
  | nil => exact hx.resolve_right List.not_mem_nil
  | cons y l ih =>
    refine ih (f c y) (hinv c y hc) ?_
    by_cases hxy : x = y
    · subst hxy; exact .inl (hgives c hc)
    · exact hx.imp (hkeeps c y hxy) fun hm => (List.mem_cons.mp hm).resolve_left hxy

/-- The rail is valid with its class and CLRSEL, and the generation has stepped; no channel has been cleared yet. -/
def dacRailSensed (c : Chip) (five : Bool) (clrsel : Nat) : Chip :=
  (((c.setInvalid 6 false).putField 0xE40 0 2 clrsel).putBit 0xE40 3 five).stepGenAt 0xE41

theorem dacRailValid_eq (c : Chip) (mv clrsel : Nat) :
    c.dacRailValid mv clrsel = (dacRailSensed c (decide (4500 ≤ mv)) clrsel).each [0, 1, 2, 3] (dacClear (decide (4500 ≤ mv))) := rfl

theorem clrsel_dacRailSensed (c : Chip) (five : Bool) (cs : Nat) (h : cs < 4) : (dacRailSensed c five cs).field 0xE40 0 2 = cs := by
  have hmask : ∀ j < 2, (maskAt 0xE40).testBit (0 + j) = true := by decide
  have hgen : (dacRailSensed c five cs).field 0xE40 0 2 = (((c.setInvalid 6 false).putField 0xE40 0 2 cs).putBit 0xE40 3 five).field 0xE40 0 2 := by
    unfold Chip.field; exact congrArg (bits · 0 2) (reg_put_other _ _ _ _ (by decide))
  rw [hgen, field_putBit_other _ _ _ _ _ _ (by decide) hmask]
  exact field_putField_same _ _ _ _ _ hmask h

theorem dacGen_dacRailSensed (c : Chip) (five : Bool) (cs : Nat) : (dacRailSensed c five cs).reg 0xE41 = (c.reg 0xE41 + 1) % 65536 := by
  have hold : (((c.setInvalid 6 false).putField 0xE40 0 2 cs).putBit 0xE40 3 five).reg 0xE41 = c.reg 0xE41 :=
    (reg_put_other _ _ _ _ (by decide)).trans (reg_put_other _ _ _ _ (by decide))
  rw [← hold]
  exact reg_put_fits _ _ _ 16 rfl (by decide) (Nat.mod_lt _ (by decide))

theorem exec_vddDacValid (s : State) (mv cs : Nat) (hcs : cs < 3) : Ends (.vddDacValid mv cs) s fun c =>
    c.power.invalid.testBit 6 = false ∧ c.reg 0xE41 = (s.chip.reg 0xE41 + 1) % 65536 ∧
      ∀ ch, ch < 4 → c.reg (dacA ch 9) = 1 ∧ c.reg (dacA ch 0x0A) = (if cs = 0 then 0 else if cs = 1 then 0x8000 else 0xFFFF) ∧
        c.reg (dacA ch 1) = (if 4500 ≤ mv then 1 else 0) := by
  have hact : (if okPin cs then s.chip.dacRailValid mv cs else s.chip) = s.chip.dacRailValid mv cs := if_pos (decide_eq_true (by omega))
  refine ⟨s.chip.dacRailValid mv cs, by rw [← hact]; rfl, ?_, ?_, fun ch hch => ?_⟩
  · exact (each_frame (·.power.invalid.testBit 6) (dacClear _) (fun _ _ => rfl) _ _).trans (testBit_setBits_same _ _ _)
  · rw [dacRailValid_eq, ← dacGen_dacRailSensed s.chip (decide (4500 ≤ mv)) cs]
    refine each_frame_mem (fun d => d.reg 0xE41) (fun d ch hch => reg_dacClear_other _ _ _ _ fun o ho h => ?_) _
    obtain rfl : 4 = ch := (dacA_inj (ch := 4) (o := 1) (by decide) (dacClear_offsets o ho).2 h).1
    exact absurd hch (by decide)
  · rw [dacRailValid_eq]
    obtain ⟨h9, hA, h1⟩ := each_reaches (Inv := fun c => c.field 0xE40 0 2 = cs)
      (P := DacCleared (decide (4500 ≤ mv)) (clrselCode cs)) (x := ch)
      (fun c y hc => (congrArg (bits · 0 2) (reg_dacClear_status _ c y)).trans hc) (fun c hc => dacClear_clears _ c ch cs hch hcs hc)
      (fun c y hne hc => dacClear_keeps_cleared _ _ c ch y hne hc) [0, 1, 2, 3] _ (clrsel_dacRailSensed s.chip _ cs (by omega)) (.inr (by simp; omega))
    exact ⟨h9, hA, h1.trans (by simp only [decide_eq_true_eq])⟩

/-- The output code of a channel without its rail is a free value. -/
def dacUndefined (c : Chip) (ch : Nat) : Chip := c.freeWord.2.put (dacA ch 0x0A) c.freeWord.1.toNat

theorem dacRailLost_eq (c : Chip) : c.dacRailLost = (c.setInvalid 6 true).each [0, 1, 2, 3] dacUndefined := rfl

theorem exec_vddDacLoss (s : State) : Ends .vddDacLoss s fun c => c.power.invalid.testBit 6 = true ∧ SameRegs [0xE0A, 0xE1A, 0xE2A, 0xE3A] s.chip c := by
  refine ⟨s.chip.dacRailLost, rfl, ?_, fun a _ hex => ?_⟩
  · rw [dacRailLost_eq]
    exact (each_frame (·.power.invalid.testBit 6) dacUndefined (fun _ _ => rfl) _ _).trans (invalid_setInvalid _ 6)
  · have hout : ∀ ch ∈ [0, 1, 2, 3], dacA ch 0x0A ∈ [0xE0A, 0xE1A, 0xE2A, 0xE3A] := by decide
    rw [dacRailLost_eq]
    exact each_frame_mem (fun d => d.reg a) (f := dacUndefined) (fun d ch hch => reg_put_other d.freeWord.2 _ _ _ fun e => hex (e ▸ hout ch hch)) _

/-! The watchdog. -/

/-- The boot that a watchdog reset starts: everything is at reset, and the pins have been sampled. -/
theorem watchdog_eq (c : Chip) (n : Nat) (hon : c.ctlOn = true) (hr : c.power.aoReady = true) :
    c.watchdog n = (c.resetAll.withCause c.power.cause 4).samplePins.bootStart := by
  have hctl : (c.resetAll.withCause c.power.cause 4).samplePins.ctlOn = true := by
    simp only [Chip.ctlOn, Bool.and_eq_true, Bool.not_eq_true'] at hon
    obtain ⟨⟨⟨hn, -⟩, h3⟩, h0⟩ := hon
    simp [Chip.ctlOn, Chip.samplePins, Chip.withCause, hn, h3, h0]
  have hboot := tryBoot_starts (c.resetAll.withCause c.power.cause 4).samplePins ((resetAll_aoReady c).trans hr) hctl rfl
    (congrArg BootSt.phase (resetAll_boot c))
  simp only [Chip.watchdog, hon, Bool.not_true, Bool.false_eq_true, ↓reduceIte]
  exact hboot

theorem exec_directorWatchdogReset (s : State) (n : Nat) (hon : s.chip.ctlOn = true) (hr : s.chip.power.aoReady = true) :
    ∃ t, exec (.directorWatchdogReset n) s = .next t ∧ t.keys = [] ∧ t.pending = s.pending ∧ t.chip.boot.phase = 1 ∧ t.chip.isPending 3 = true ∧
      ∀ a, resetHere a = true → a ∉ [0x231, 0x400, 0x402, 0x500] → t.chip.reg a = resetAt a % 2 ^ 32 := by
  have hkeys : keysLeft (if s.chip.ctlOn then [] else s.keys) (s.chip.watchdog n) = [] := by rw [hon]; exact ite_self _
  refine ⟨_, rfl, hkeys, rfl, ?_⟩
  change (s.chip.watchdog n).boot.phase = 1 ∧ (s.chip.watchdog n).isPending 3 = true ∧ ∀ a, _ → _ → (s.chip.watchdog n).reg a = _
  rw [watchdog_eq s.chip n hon hr]
  refine ⟨rfl, bootStart_raises _, fun a ha hex => ?_⟩
  obtain ⟨h231, h400, h402, h500⟩ : a ≠ 0x231 ∧ a ≠ 0x400 ∧ a ≠ 0x402 ∧ a ≠ 0x500 := by simpa using hex
  have hpage : a / 256 ≠ 1 := by
    obtain ⟨⟨-, h⟩, -⟩ : (keptAt false a = false ∧ a / 256 ≠ 1) ∧ a / 256 ≠ 0x0E := by simpa [resetHere] using ha
    exact h
  exact (bootStart_sameRegs _ a hpage (by simp [h231, h400])).trans ((reg_samplePins_other _ a h500 h402).trans (reg_resetAll s.chip a ha))

/-- Settles O25, row by row: each clause is what the row's own function does, by the facts about resets and the start of a boot. -/
theorem supplyAndResetEvents : Obligations.SupplyAndResetEvents := fun s =>
  ⟨exec_vddAoValid s,
    fun hao hr _ hc _ hon hp => exec_boot hao hr hc hon hp,
    exec_resetNAssert_long s,
    fun ns h hon => becomes_onTime (f := fun c => c.resetAssert ns) rfl (resetAssert_short s.chip ns h) hon,
    exec_resetNRelease s,
    exec_resetNRelease_high s,
    exec_railBelowWarning s,
    exec_railBelowValid_ctl s,
    exec_railBelowValid_conv s,
    exec_railBelowValid_io s,
    exec_railBelowValid_pa s,
    exec_railRecovered s,
    fun _ => rfl,
    exec_vddDacValid s,
    exec_vddDacLoss s,
    exec_directorWatchdogReset s⟩

end Sys2Proof.Proofs
end

section
/-! O2 and O60: studio time between commands, and the boundary of a receiver that is awake (R29, R32, R36). -/

namespace Sys2Proof.Proofs

open Sys2Proof Sys2Proof.Machine Sys2Proof.Laws

/-! Studio time between commands. -/

theorem step_idle (s : State) (h : s.pending = []) : step s = .next (s.onChip Chip.idle) := by simp only [step, h]

/-- Between commands studio time moves, and the tick in progress stays. -/
theorem idle_time (c : Chip) : ∃ n, c.idle = { c with time := { c.time with now := n } } ∧ c.time.now ≤ n ∧ n / 32000 = c.time.now / 32000 := by
  unfold Chip.idle
  split
  · next h => exact ⟨c.time.now + c.idleCounts, rfl, by omega, by omega⟩
  · exact ⟨c.time.now, rfl, Nat.le_refl _, rfl⟩

/-- Settles O2: the step is `Chip.idle`, which stops before the boundary. -/
theorem emptyQueueLetsTimePass : Obligations.EmptyQueueLetsTimePass := by
  intro s h
  obtain ⟨n, e, hle, htick⟩ := idle_time s.chip
  exact ⟨n, by rw [step_idle s h, State.onChip, e], hle, htick⟩

/-! The boundary of a receiver that is awake. -/

theorem le_ceilDiv_mul (a b : Nat) (hb : 0 < b) : a ≤ ceilDiv a b * b := by
  have hmod := Nat.mod_lt (a + b - 1) hb
  have hdiv := Nat.div_add_mod (a + b - 1) b
  rw [ceilDiv, if_neg (by omega), Nat.mul_comm]
  omega

theorem idleCounts_pos (c : Chip) : 0 < c.idleCounts := by
  unfold Chip.idleCounts
  dsimp only
  split <;> decide

/-- The edge that ends a tick does not come before the boundary. -/
theorem boundary_le_nextEdge (c : Chip) : (c.time.now / 32000 + 1) * 32000 ≤ c.nextEdge := by
  have h := le_ceilDiv_mul ((c.time.now / 32000 + 1) * 32000 - c.time.now) c.idleCounts (idleCounts_pos c)
  unfold Chip.nextEdge
  dsimp only
  omega

/-- The chip after the tick that ends has been taken, at the edge that reaches the boundary. -/
def tickTaken (c : Chip) (m : TickMeas) : Chip :=
  { c.tickStep m false with time := { (c.tickStep m false).time with now := max (c.tickStep m false).time.now c.nextEdge } }

theorem tickBoundary_awake (c : Chip) (m : TickMeas) (hon : c.ctlOn = true) (ha : c.asleep = false) (hu : c.upToDate = true) (hp : c.passed = false) :
    c.tickBoundary m = tickTaken c m := by
  simp [Chip.tickBoundary, tickTaken, hon, ha, hp, catchUp_upToDate c true hu]

theorem exec_tickBoundary_awake (s : State) (m : TickMeas) (hon : s.chip.ctlOn = true) (ha : s.chip.asleep = false) (hu : s.chip.upToDate = true)
    (hp : s.chip.passed = false) : BecomesPowered (.tickBoundary m) s ((tickTaken s.chip m).scanTick.tuneVoid s.keys) := by
  change execTickBoundary m s = _
  simp only [execTickBoundary, State.both, hp, tickBoundary_awake s.chip m hon ha hu hp, Bool.false_eq_true, ↓reduceIte]

/-- How a row that may end the key slots' supply ends. -/
theorem becomesPowered_parts {i : Instr} {s : State} {c : Chip} (h : BecomesPowered i s c) :
    ∃ t, exec i s = .next t ∧ t.pending = s.pending ∧ t.chip = c ∧ t.keys = if t.chip.ctlOn then s.keys else [] := ⟨_, h, rfl, rfl, rfl⟩

/-- Settles O60: with no boundary to catch up and none passed, `Chip.tickBoundary` is `Chip.tickStep` at the edge that ends the tick. -/
theorem tickBoundaryCompletes : Obligations.TickBoundaryCompletes := by
  intro s m hon ha hu ht
  have hp : s.chip.passed = false := decide_eq_false (by omega)
  have hbound : 32000 * s.chip.time.tick ≤ s.chip.nextEdge := by have := boundary_le_nextEdge s.chip; omega
  have hedge : s.chip.nextEdge ≤ (tickTaken s.chip m).time.now := Nat.le_max_right _ _
  obtain ⟨t, hx, hqueue, hchip, hkeys⟩ := becomesPowered_parts (exec_tickBoundary_awake s m hon ha (decide_eq_true hu) hp)
  exact ⟨t, tickTaken s.chip m, hx, hqueue, hchip, hkeys, rfl, hedge, Nat.le_trans hbound hedge⟩

end Sys2Proof.Proofs
end

section
/-! Command parameters: bits that act in order, accepted writes and refused writes with an effect of their own (R11, R430). -/

namespace Sys2Proof.Proofs

open Sys2Proof Sys2Proof.Machine Sys2Proof.Laws

/-! What counting the command leaves alone, further. -/

section Taken
variable (c : Chip)

@[simp] theorem taken_time : c.taken.time = c.time := by obtain ⟨_, _, h⟩ := taken_only c; rw [h]
@[simp] theorem taken_blocksAsleep : c.taken.blocksAsleep = c.blocksAsleep := by
  simp [Chip.blocksAsleep, taken_reg_of]
@[simp] theorem taken_reg_winA (w o : Nat) : c.taken.reg (winA w o) = c.reg (winA w o) := taken_reg_of c _ (by unfold winA; omega)
@[simp] theorem taken_view_feA (fe o : Nat) : c.taken.view (feA fe o) = c.view (feA fe o) := taken_view_of c _ (by unfold feA; omega)
@[simp] theorem taken_capSamples (w : Nat) : c.taken.capSamples w = c.capSamples w := by simp [Chip.capSamples]
@[simp] theorem taken_winSamples (w : Nat) : c.taken.winSamples w = c.winSamples w := by simp [Chip.winSamples]
@[simp] theorem taken_capCauses (w n t : Nat) : c.taken.capCauses w n t = c.capCauses w n t := by simp [Chip.capCauses]
@[simp] theorem taken_stagedMap : c.taken.stagedMap = c.stagedMap :=
  List.map_congr_left fun p _ => taken_reg_of c _ (by unfold cnvA; omega)
@[simp] theorem taken_canvas : c.taken.canvas = c.canvas := by obtain ⟨_, _, h⟩ := taken_only c; rw [h]
@[simp] theorem taken_injBad (fe : Nat) : c.taken.injBad fe = c.injBad fe := by simp [Chip.injBad]
@[simp] theorem taken_injecting (fe : Nat) : c.taken.injecting fe = c.injecting fe := by simp [Chip.injecting]
@[simp] theorem taken_pal (i : Nat) : c.taken.pal i = c.pal i := by obtain ⟨_, _, h⟩ := taken_only c; rw [h]; rfl
@[simp] theorem taken_laneRuns (k : Nat) : c.taken.laneRuns k = c.laneRuns k := by simp [Chip.laneRuns]
@[simp] theorem taken_laneBank (k : Nat) : c.taken.laneBank k = c.laneBank k := by simp [Chip.laneBank, Chip.laneBankOf, Chip.field]
@[simp] theorem taken_bankT (b : Nat) : c.taken.bankT b = c.bankT b := by simp [Chip.bankT]
@[simp] theorem taken_bankG (b : Nat) : c.taken.bankG b = c.bankG b := by simp [Chip.bankG]
@[simp] theorem taken_bankOk (b : Nat) : c.taken.bankOk b = c.bankOk b := by simp [Chip.bankOk]
@[simp] theorem taken_bankBad (k b : Nat) : c.taken.bankBad k b = c.bankBad k b := by simp [Chip.bankBad]
@[simp] theorem taken_follow (i : Nat) : c.taken.follow i = c.follow i := by obtain ⟨_, _, h⟩ := taken_only c; rw [h]; rfl
@[simp] theorem taken_member (i key : Nat) : c.taken.member i key = c.member i key := by simp [Chip.member]
@[simp] theorem taken_refStatus (i : Nat) : c.taken.refStatus i = c.refStatus i := by obtain ⟨_, _, h⟩ := taken_only c; rw [h]; rfl

end Taken

/-! The bits of a command parameter. -/

theorem runBits_none (c : Chip) (acted : Bool) (l : List (Bool × (Chip → WRes))) (d : Chip) (h : ∀ p ∈ l, p.1 = false) :
    runBits c acted l d = (0, d) := by
  induction l with
  | nil => rfl
  | cons p r ih =>
    have hp : p.1 = false := h p List.mem_cons_self
    rw [runBits, hp]
    exact ih fun q hq => h q (List.mem_cons_of_mem _ hq)

/-- A write with one bit set does what that bit does. -/
theorem runBits_only (c : Chip) (f : Chip → WRes) (l : List (Bool × (Chip → WRes))) (d : Chip) (h : ∀ p ∈ l, p.1 = false) :
    runBits c false ((true, f) :: l) d = f d := by
  obtain ⟨reason, e, hf⟩ : ∃ reason e, f d = (reason, e) := ⟨_, _, rfl⟩
  rw [runBits, hf]
  simp only [runBits_none c true l e h]
  by_cases h0 : reason = 0
  · simp [h0]
  · simp [h0]

/-! One-entry writes. -/

/-- The parameters after the reply are those of the effect, but for HB_STATE. -/
theorem reg_replied (d : Chip) (body : List Byte) (a : Nat) (h : a ≠ 0x508) :
    ({ d with bus := { d.bus with reply := body, complete := true } }.put 0x508 3 : Chip).reg a = d.reg a := reg_put_other _ _ _ _ h

theorem replied_put (d : Chip) (body : List Byte) : ({ d with bus := { d.bus with reply := body, complete := true } }.put 0x508 3 : Chip).replied body :=
  ⟨rfl, rfl, by rw [reg_put_same]; decide⟩

/-- A one-entry write that is refused ends with what the refused value left (log entry 18), and the reply that names it. -/
theorem ends_of_refusal (i : Instr) (s : State) {a n : Nat} (h : s.chip.hostReady [2, 3] = true) (hx : exec i s = .next (s.command i))
    (e : hostFx i = some (native, one a n)) {d : Chip} (hw : s.chip.taken.writeParam a n = (rBad, d)) (hc : d.ctlOn = true) (hs : d.bus.stretch = none)
    {P : Chip → Prop} (hP : P ({ d with bus := { d.bus with reply := [0x0A, 0x00] ++ le 2 a, complete := true } }.put 0x508 3)) : Ends i s P :=
  ends_of_effect i s h hx e (b := 0x0A) (l := 0x00 :: le 2 a)
    (by simp only [one, plain, writeOne, hw, writeReply_no rBad a (by decide)]; rfl) hc hs hP

end Sys2Proof.Proofs
end

section
/-! The capture commands of a window (R95, R96, R98, R99). -/

namespace Sys2Proof.Proofs

open Sys2Proof Sys2Proof.Machine Sys2Proof.Laws

theorem capCtrl_row {w : Nat} (hw : w < 12) : rowAt (winA w 0x10) = some (prow 0x10 0xF .wo 0x0) := (rowAt_win hw (by decide)).trans rfl

theorem capState_mask {w : Nat} (hw : w < 12) : maskAt (winA w 0x13) = 2 ^ 3 - 1 :=
  maskAt_of_row (r := prow 0x13 0x7 .ro 0x6) ((rowAt_win hw (by decide)).trans rfl)

theorem winA_inj {w o p : Nat} (h : winA w o = winA w p) : o = p := by unfold winA at h; omega

theorem winA_ne_hbState (w o : Nat) : winA w o ≠ 0x508 := by unfold winA; omega

theorem writeParam_capCtrl (c : Chip) {w v : Nat} (hw : w < 12) (hv : v < 2 ^ 4) : c.writeParam (winA w 0x10) v = c.wrCapCtrl w v := by
  rw [writeParam_takesField c v (takesField_of_row (capCtrl_row hw) (.inr (.inr rfl)) (.inr (by unfold winA; omega))),
    and_maskAt 4 (maskAt_of_row (capCtrl_row hw)), Nat.mod_eq_of_lt hv, wrValue_win c w 0x10 v hw (by decide) (by decide)]
  rfl

/-! What each bit does. -/

theorem wrCapCtrl_arm (c : Chip) (w : Nat) : c.wrCapCtrl w 1 = c.capArm w := runBits_only c _ _ c (by simp; decide)
theorem wrCapCtrl_triggerNow (c : Chip) (w : Nat) : c.wrCapCtrl w 2 = (0, c.capTrigger w (c.capCauses w 0 c.time.now) true) :=
  runBits_only c (fun d => (d.capTrigger w (d.capCauses w 0 d.time.now) true).yes) _ c (by simp; decide)
theorem wrCapCtrl_startExport (c : Chip) (w : Nat) : c.wrCapCtrl w 4 = c.capExport w :=
  runBits_only c (fun d => d.capExport w) [(false, fun d => d.capRelease w)] c (by simp)
theorem wrCapCtrl_release (c : Chip) (w : Nat) : c.wrCapCtrl w 8 = c.capRelease w := runBits_only c (fun d => d.capRelease w) [] c (by simp)

/-- The window after arm: its ring is empty, and samples count from now. -/
def armed (c : Chip) (w : Nat) : Chip :=
  (c.put (winA w 0x13) 1).modWin w fun x => { x with capSince := c.time.now, capTrunc := false, capPartial := false, dsp := { x.dsp with ring := [] } }

theorem capArm_idle (c : Chip) (w : Nat) (hst : c.reg (winA w 0x13) = 0) (hpost : c.reg (winA w 0x12) * 1024 < c.capSamples w) :
    c.capArm w = (0, armed c w) := by
  unfold Chip.capArm
  dsimp only
  rw [hst, if_neg (by decide), if_neg (by omega)]
  rfl

theorem capArm_refused (c : Chip) (w : Nat) (hst : c.reg (winA w 0x13) = 0) (hpost : c.capSamples w ≤ c.reg (winA w 0x12) * 1024) :
    c.capArm w = (rBad, c) := by
  unfold Chip.capArm
  dsimp only
  rw [hst, if_neg (by decide), if_pos (.inr hpost)]
  rfl

/-- In states 1 and 2 the sample of trigger-now is the trigger sample. -/
theorem capTrigger_now (c : Chip) (w causes : Nat) (hs : c.winSamples w = true) (hst : c.reg (winA w 0x13) = 1 ∨ c.reg (winA w 0x13) = 2) :
    c.capTrigger w causes true = c.capMark w c.time.now causes := by
  unfold Chip.capTrigger
  simp only [hs, hst, not_true_eq_false, and_false, if_false, if_true]

/-- The trigger sample gives the state, its studio time and its causes, and nothing else in the parameters (R98). -/
theorem capMark_marks (c : Chip) {w : Nat} (hw : w < 12) (t causes : Nat) (hcauses : causes < 2 ^ 5) :
    (c.capMark w t causes).reg (winA w 0x13) = 3 ∧ (c.capMark w t causes).reg (winA w 0x14) = t % 2 ^ 32 ∧
      (c.capMark w t causes).reg (winA w 0x16) = causes ∧
      ∀ b, b ∉ [winA w 0x13, winA w 0x14, winA w 0x15, winA w 0x16] → (c.capMark w t causes).reg b = c.reg b := by
  have hputs : ∀ b, (c.capMark w t causes).reg b =
    ((((c.put (winA w 0x13) 3).put (winA w 0x14) (t % 2 ^ 32)).put (winA w 0x15) (t / 2 ^ 32)).put (winA w 0x16) causes).reg b := fun _ => rfl
  have hne : ∀ o p, o ≠ p → winA w o ≠ winA w p := fun o p hop e => hop (winA_inj e)
  have hlow : maskAt (winA w 0x14) = 0xFFFFFFFF := maskAt_of_row (r := prow 0x14 0xFFFFFFFF .rs 0x0) ((rowAt_win hw (by decide)).trans rfl)
  have hcause : maskAt (winA w 0x16) = 2 ^ 5 - 1 := maskAt_of_row (r := prow 0x16 0x1F .ro 0x0) ((rowAt_win hw (by decide)).trans rfl)
  refine ⟨?_, ?_, ?_, fun b hb => ?_⟩
  · rw [hputs, reg_put_other _ _ _ _ (hne _ _ (by decide)), reg_put_other _ _ _ _ (hne _ _ (by decide)), reg_put_other _ _ _ _ (hne _ _ (by decide))]
    exact reg_put_fits _ _ _ 3 (capState_mask hw) (by decide) (by decide)
  · rw [hputs, reg_put_other _ _ _ _ (hne _ _ (by decide)), reg_put_other _ _ _ _ (hne _ _ (by decide))]
    exact reg_put_full _ _ _ hlow (Nat.mod_lt _ (by decide))
  · rw [hputs]
    exact reg_put_fits _ _ _ 5 hcause (by decide) hcauses
  · simp only [List.mem_cons, List.not_mem_nil, or_false, not_or] at hb
    obtain ⟨h13, h14, h15, h16⟩ := hb
    rw [hputs, reg_put_other _ _ _ _ h16, reg_put_other _ _ _ _ h15, reg_put_other _ _ _ _ h14, reg_put_other _ _ _ _ h13]

theorem capMark_ctlOn (c : Chip) (w t causes : Nat) : (c.capMark w t causes).ctlOn = c.ctlOn := rfl
theorem capMark_bus (c : Chip) (w t causes : Nat) : (c.capMark w t causes).bus = c.bus := rfl

theorem capRelease_frozen (c : Chip) (w : Nat) (hst : c.reg (winA w 0x13) = 4) : c.capRelease w = (0, c.put (winA w 0x13) 0) := by
  unfold Chip.capRelease
  exact if_pos hst

theorem capExport_refused (c : Chip) (w : Nat) (hst : c.reg (winA w 0x13) ≠ 4) : c.capExport w = (rBad, c) := by
  unfold Chip.capExport
  exact if_pos hst

section
variable (s : State) (h : s.chip.hostReady [2, 3] = true) (w : Nat) (hw : w < 12)
include h hw

theorem ends_capArm (hst : s.chip.reg (winA w 0x13) = 0) (hpost : s.chip.reg (winA w 0x12) * 1024 < s.chip.capSamples w) :
    Ends (.winCapArm w) s fun c => c.reg (winA w 0x13) = 1 ∧ (c.win w).capSince = s.chip.time.now ∧ c.replied writeDone ∧
      SameRegs (winA w 0x13 :: hostRegs) s.chip c := by
  have hwrite : s.chip.taken.writeParam (winA w 0x10) 1 = (0, armed s.chip.taken w) := by
    rw [writeParam_capCtrl _ hw (by decide), wrCapCtrl_arm]
    exact capArm_idle _ w (by simpa using hst) (by simpa using hpost)
  have hwin : (armed s.chip.taken w).win w = _ := (win_modWin _ w w _).trans (if_pos rfl)
  refine ends_of_write (.winCapArm w) s h rfl (if_pos hw) hwrite (taken_powered s _ h) (taken_stretch s _ h) ⟨?_, ?_, ?_⟩
  · rw [reg_replied _ _ _ (winA_ne_hbState w _)]
    exact reg_put_fits _ _ _ 3 (capState_mask hw) (by decide) (by decide)
  · exact (congrArg WinSt.capSince hwin).trans (by rw [taken_time])
  · exact replied_regs s _ _ [winA w 0x13] fun b hb => reg_put_other _ _ _ _ (by simpa using hb)

theorem refuses_capArm (hst : s.chip.reg (winA w 0x13) = 0) (hpost : s.chip.capSamples w ≤ s.chip.reg (winA w 0x12) * 1024) :
    Refuses (.winCapArm w) s ([0x0A, 0x00] ++ le 2 (winA w 0x10)) := by
  refine refuses_of _ s _ 1 rBad h rfl (if_pos hw) (by decide) ?_
  rw [writeParam_capCtrl _ hw (by decide), wrCapCtrl_arm]
  exact capArm_refused _ w (by simpa using hst) (by simpa using hpost)

theorem ends_capTriggerNow (hs : s.chip.winSamples w = true) (hst : s.chip.reg (winA w 0x13) = 1 ∨ s.chip.reg (winA w 0x13) = 2) :
    Ends (.winCapTriggerNow w) s fun c => c.reg (winA w 0x13) = 3 ∧ c.reg (winA w 0x14) = s.chip.time.now % 2 ^ 32 ∧
      c.reg (winA w 0x16) = s.chip.capCauses w 0 s.chip.time.now ∧ c.replied writeDone ∧
      SameRegs ([winA w 0x13, winA w 0x14, winA w 0x15, winA w 0x16] ++ hostRegs) s.chip c := by
  have hwrite : s.chip.taken.writeParam (winA w 0x10) 2 =
      (0, s.chip.taken.capMark w s.chip.time.now (s.chip.capCauses w 0 s.chip.time.now)) := by
    rw [writeParam_capCtrl _ hw (by decide), wrCapCtrl_triggerNow,
      capTrigger_now _ w _ (by simpa using hs) (by simpa using hst), taken_time, taken_capCauses]
  have hon := (capMark_ctlOn _ w s.chip.time.now (s.chip.capCauses w 0 s.chip.time.now)).trans (taken_powered s _ h)
  have hstretch := (congrArg BusSt.stretch (capMark_bus _ w s.chip.time.now (s.chip.capCauses w 0 s.chip.time.now))).trans (taken_stretch s _ h)
  obtain ⟨h13, h14, h16, hrest⟩ := capMark_marks s.chip.taken hw s.chip.time.now (s.chip.capCauses w 0 s.chip.time.now) (Nat.mod_lt _ (by decide))
  refine ends_of_write (.winCapTriggerNow w) s h rfl (if_pos hw) hwrite hon hstretch ⟨?_, ?_, ?_, replied_regs s _ _ _ hrest⟩
  · exact (reg_replied _ _ _ (winA_ne_hbState w _)).trans h13
  · exact (reg_replied _ _ _ (winA_ne_hbState w _)).trans h14
  · exact (reg_replied _ _ _ (winA_ne_hbState w _)).trans h16

theorem ends_capRelease (hst : s.chip.reg (winA w 0x13) = 4) :
    Ends (.winCapRelease w) s fun c => c.reg (winA w 0x13) = 0 ∧ c.replied writeDone ∧ SameRegs (winA w 0x13 :: hostRegs) s.chip c := by
  have hwrite : s.chip.taken.writeParam (winA w 0x10) 8 = (0, s.chip.taken.put (winA w 0x13) 0) := by
    rw [writeParam_capCtrl _ hw (by decide), wrCapCtrl_release]
    exact capRelease_frozen _ w (by simpa using hst)
  refine ends_of_write (.winCapRelease w) s h rfl (if_pos hw) hwrite (taken_powered s _ h) (taken_stretch s _ h) ⟨?_, ?_⟩
  · rw [reg_replied _ _ _ (winA_ne_hbState w _), reg_put_zero, if_pos rfl]
  · exact replied_regs s _ _ [winA w 0x13] fun b hb => reg_put_other _ _ _ _ (by simpa using hb)

theorem refuses_capStartExport (hst : s.chip.reg (winA w 0x13) ≠ 4) : Refuses (.winCapStartExport w) s ([0x0A, 0x00] ++ le 2 (winA w 0x10)) := by
  refine refuses_of _ s _ 4 rBad h rfl (if_pos hw) (by decide) ?_
  rw [writeParam_capCtrl _ hw (by decide), wrCapCtrl_startExport]
  exact capExport_refused _ w (by simpa using hst)

end

end Sys2Proof.Proofs
end

section
/-! O19: commands written to the staged map, the sine generators, test injection, lane banks, forced changes and link references (R66, R68, R87, R123,
R124, R281, R286, R533), with the capture commands before. -/

namespace Sys2Proof.Proofs

open Sys2Proof Sys2Proof.Machine Sys2Proof.Laws

/-- A command parameter below the lanes takes the bits of its field. -/
theorem takesField_wo {a m d o : Nat} (hr : rowAt a = some (prow o m .wo d)) (hb : a < 0x4000) : takesField a :=
  takesField_of_row hr (.inr (.inr rfl)) (.inl hb)

/-! The staged map. -/

theorem commit_row : rowAt 0x7B0 = some (prow 0xB0 0x1 .wo 0x0) := rfl

theorem writeParam_commit (c : Chip) : c.writeParam 0x7B0 1 = c.wrCommit 1 := by
  rw [writeParam_takesField c 1 (takesField_wo commit_row (by decide)), and_maskAt 1 (maskAt_of_row commit_row)]
  simp [Chip.wrValue, Chip.badValue]

/-- A valid map waits (R87). -/
theorem wrCommit_valid (c : Chip) (hm : mapOk c.stagedMap = true) :
    ∃ m, c.wrCommit 1 = (0, { c with canvas := { c.canvas with pending := some m } }.put 0x7B1 1) := by
  unfold Chip.wrCommit
  rw [if_neg (by decide), if_pos hm]
  exact ⟨_, rfl⟩

theorem wrCommit_invalid (c : Chip) (hm : mapOk c.stagedMap = false) : c.wrCommit 1 = (rBad, c.put 0x7B1 2) := by
  unfold Chip.wrCommit
  rw [if_neg (by decide), if_neg (by rw [hm]; decide)]
  rfl

/-! The sine generators. -/

theorem sineCtrl_row {ch : Nat} (hc : ch < 4) : rowAt (dacA ch 5) = some (prow 0x05 0x3 .wo 0x0) := (rowAt_dac hc (by decide)).trans rfl

theorem wrValue_sineCtrl (c : Chip) (ch v : Nat) (hc : ch < 4) : c.wrValue (dacA ch 5) v = c.wrSineCtrl ch v := by
  obtain rfl | rfl | rfl | rfl : ch = 0 ∨ ch = 1 ∨ ch = 2 ∨ ch = 3 := by omega
  all_goals simp [Chip.wrValue, Chip.badValue, dacBad, dacA]

theorem writeParam_sineCtrl (c : Chip) (ch v : Nat) (hc : ch < 4) (hv : v < 2 ^ 2) : c.writeParam (dacA ch 5) v = c.wrSineCtrl ch v := by
  rw [writeParam_takesField c v (takesField_wo (sineCtrl_row hc) (by unfold dacA; omega)), and_maskAt 2 (maskAt_of_row (sineCtrl_row hc)),
    Nat.mod_eq_of_lt hv, wrValue_sineCtrl c ch v hc]

theorem wrSineCtrl_start (c : Chip) (ch : Nat) : c.wrSineCtrl ch 1 = c.sineStart ch := runBits_only c (fun d => d.sineStart ch) _ c (by simp; decide)
theorem wrSineCtrl_stop (c : Chip) (ch : Nat) : c.wrSineCtrl ch 2 = c.sineStop ch := runBits_only c (fun d => d.sineStop ch) [] c (by simp)

/-- A start or stop that waits for the next tick boundary. -/
def sineAsked (c : Chip) (ch : Nat) (on : Bool) : Chip := c.modDac ch fun d => { d with sineReq := some on }

theorem sineReq_sineAsked (c : Chip) (ch : Nat) (on : Bool) : ((sineAsked c ch on).dac ch).sineReq = some on :=
  congrArg DacSt.sineReq (tbl_get_set_same DacSt.reset c.dacs ch _)

/-- A start asks for the TCXO where no update clock runs (R529). -/
theorem sineStart_allowed (c : Chip) (ch : Nat) (ha : c.dacAlarm ch = false) : ∃ k, c.sineStart ch = (0, sineAsked { c with clk := k } ch true) := by
  unfold Chip.sineStart
  rw [if_neg (by rw [ha]; decide)]
  by_cases hclk : c.updateClock = true
  · exact ⟨c.clk, by rw [if_pos hclk]; rfl⟩
  · exact ⟨{ c.clk with tcxoEn := true }, by rw [if_neg hclk]; rfl⟩

/-! Test injection. -/

theorem injCtrl_row {fe : Nat} (hf : fe < 2) : rowAt (feA fe 0x20) = some (prow 0x20 0x3 .wo 0x0) := (rowAt_fe hf (by decide)).trans rfl

theorem injStatus_mask {fe : Nat} (hf : fe < 2) : maskAt (feA fe 0x23) = 2 ^ 3 - 1 :=
  maskAt_of_row (r := prow 0x23 0x7 .ro 0x0) ((rowAt_fe hf (by decide)).trans rfl)

theorem feA_ne_hbState (fe o : Nat) : feA fe o ≠ 0x508 := by unfold feA; omega

theorem takesField_injCtrl {fe : Nat} (hf : fe < 2) : takesField (feA fe 0x20) := takesField_wo (injCtrl_row hf) (by unfold feA; omega)

theorem and_injCtrl {fe : Nat} (hf : fe < 2) : 1 &&& maskAt (feA fe 0x20) = 1 := by rw [maskAt_of_row (injCtrl_row hf)]; rfl

theorem wrValue_injCtrl (c : Chip) (fe v : Nat) (hf : fe < 2) : c.wrValue (feA fe 0x20) v = c.wrInjCtrl fe v := by
  obtain rfl | rfl : fe = 0 ∨ fe = 1 := by omega
  all_goals simp [Chip.wrValue, Chip.badValue, Chip.feBad, feA]

theorem wrInjCtrl_start (c : Chip) (fe : Nat) : c.wrInjCtrl fe 1 = c.injStart fe := runBits_only c (fun d => d.injStart fe) _ c (by simp; decide)

theorem injStart_allowed (c : Chip) (fe : Nat) (hb : c.injBad fe = false) : c.injStart fe = (0, c.stage (feA fe 0x20) 1) := by
  unfold Chip.injStart
  exact if_neg (by rw [hb]; decide)

theorem injStart_refused (c : Chip) (fe : Nat) (hb : c.injBad fe = true) : c.injStart fe = (rBad, c.put (feA fe 0x23) 4) := by
  unfold Chip.injStart
  exact if_pos hb

/-- The front end after a stop: a start that waits is taken back, and the level measured waits for the boundary (R68). -/
def injStopped (c : Chip) (fe : Nat) (l : Int) : Chip :=
  { c with staged := Tbl.del c.staged (feA fe 0x20) }.modFe fe fun f => { f with injLevel := some l }

theorem injStopWrite_injecting (c : Chip) (fe : Nat) (l : Int) (hi : c.injecting fe = true) : c.injStopWrite fe l = (0, injStopped c fe l) := by
  unfold Chip.injStopWrite
  rw [hi]
  rfl

/-! Bank requests. -/

theorem writeParam_bankNext (c : Chip) (k v : Nat) (hk : k < 160) : c.writeParam (laneA k 4) v = c.wrLane k 4 v := by
  have hr : rowAt (laneA k 4) = some (prow 0x04 0x3F .wo 0x0) := (rowAt_lane hk (by decide)).trans rfl
  have hb : 0x4000 ≤ laneA k 4 ∧ laneA k 4 < 0x4A00 ∧ laneA k 4 % 16 = 4 := by unfold laneA; omega
  rw [← wrValue_lane c k 4 v hk (by decide)]
  unfold Chip.writeParam
  rw [hr]
  dsimp only
  rw [if_pos hb]
  rfl

theorem wrLane_bankNext (c : Chip) (k v : Nat) : c.wrLane k 4 v = if c.bankBad k v then (rBad, c) else (0, c.bankRequest k v) := rfl

/-- The lane's inactive pointer names bank `b` and is the active one from now on. -/
def bankSwapped (c : Chip) (k b : Nat) : Chip := (c.loadInactive k b).modLane k fun l => { l with actB := !l.actB }

theorem bankRequest_stopped (c : Chip) (k b : Nat) (hr : c.laneRuns k = false) : c.bankRequest k b = bankSwapped c k b := by
  unfold Chip.bankRequest
  exact if_pos (by rw [hr]; rfl)

theorem laneBank_bankSwapped (c : Chip) (k b : Nat) (hk : k < 160) (hb : b < 2 ^ 6) : (bankSwapped c k b).laneBank k = b := by
  have hm : maskAt (laneA k 3) = 0x3F3F := maskAt_of_row (r := prow 0x03 0x3F3F .rws 0x909) ((rowAt_lane hk (by decide)).trans rfl)
  have hlane : (bankSwapped c k b).lane k = _ := (lane_modLane (c.loadInactive k b) k k _).trans (if_pos rfl)
  have hbits : ∀ lo ∈ [0, 8], ∀ j < 6, (0x3F3F : Nat).testBit (lo + j) = true := by decide
  have hfield : ∀ lo ∈ [0, 8], (c.putField (laneA k 3) lo 6 b).field (laneA k 3) lo 6 = b := fun lo hlo =>
    field_putField_same _ _ _ _ _ (by rw [hm]; exact hbits lo hlo) hb
  have hold : (c.loadInactive k b).lane k = c.lane k := rfl
  unfold Chip.laneBank
  rw [hlane, hold]
  cases hact : (c.lane k).actB
  · have hload : c.loadInactive k b = c.putField (laneA k 3) 8 6 b := by unfold Chip.loadInactive; rw [hact]; rfl
    refine Eq.trans ?_ (hfield 8 (by decide))
    rw [← hload]; rfl
  · have hload : c.loadInactive k b = c.putField (laneA k 3) 0 6 b := by unfold Chip.loadInactive; rw [hact]; rfl
    refine Eq.trans ?_ (hfield 0 (by decide))
    rw [← hload]; rfl

theorem bank_le_of_not_bad {c : Chip} {k b : Nat} (h : c.bankBad k b = false) : b < 64 := by
  simp only [Chip.bankBad, Bool.or_eq_false_iff, decide_eq_false_iff_not] at h
  omega

/-! Forced changes. -/

theorem force_row {i : Nat} (hi : i < 8) : rowAt (lnkA i 15) = some (prow 0x7F 0xBFFF .wo 0x0) := by
  have ha : lnkA i 15 = (⟨galRows, 0xC00, 8, 18, 0x70⟩ : Region).addr i 0x7F := by unfold lnkA Region.addr; dsimp only; omega
  rw [ha, rowAt_addr (List.mem_append_left _ (by simp [pageRegions])) ⟨hi, by decide, by decide⟩]
  rfl

theorem wrValue_force (c : Chip) (i v : Nat) (hi : i < 8) : c.wrValue (lnkA i 15) v = c.wrForce i v := by
  obtain rfl | rfl | rfl | rfl | rfl | rfl | rfl | rfl : i = 0 ∨ i = 1 ∨ i = 2 ∨ i = 3 ∨ i = 4 ∨ i = 5 ∨ i = 6 ∨ i = 7 := by omega
  all_goals simp [Chip.wrValue, Chip.badValue, followBad, lnkA]

theorem writeParam_force (c : Chip) (i v : Nat) (hi : i < 8) : c.writeParam (lnkA i 15) v = c.wrForce i (v &&& maskAt (lnkA i 15)) := by
  rw [writeParam_takesField c v (takesField_wo (force_row hi) (by unfold lnkA; omega)), wrValue_force c i _ hi]

/-- A forced change to a verified member, where none is armed or running (R286). -/
theorem wrForce_verified (c : Chip) (i v : Nat) (m : MemberSt) (hm : c.member i (forceKey v) = some m) (hv : m.verified = true)
    (hc : (c.follow i).change = none) : c.wrForce i v = (0, c.modFollow i fun f => { f with force := some (forceKey v) }) := by
  unfold Chip.wrForce
  simp only [hm, hv, hc, Bool.not_true, Option.isSome_none, Bool.or_self, Bool.false_eq_true, if_false]
  rfl

/-! Link references. -/

/-- The table refuses a write to word 3 of a block whose reference is in use (R281). -/
theorem tableWrite_refStatus (c : Chip) (i : Nat) (hi : i < 8) :
    c.tableWrite 6 (refWord i 3) [1] = if c.refStatus i = 1 then ([b8 rBad], c) else ([b8 rOk], c.commitRef i) := by
  have hsize : ¬ tableSize 6 < refWord i 3 + 1 := by rw [show tableSize 6 = 32800 from rfl]; unfold refWord; omega
  have hdiv : (refWord i 3) / 4100 = i := by unfold refWord; omega
  have hmod : (refWord i 3) % 4100 = 3 := by unfold refWord; omega
  have hbad : c.tableBad 6 [refWord i 3] = (c.refStatus i == 1) := by simp [Chip.tableBad, hdiv]
  unfold Chip.tableWrite
  simp [hsize, hbad, Chip.each, Chip.writeRef, hmod, hdiv]

theorem refStatus_setRef (c : Chip) (i v : Nat) (hv : v < 2 ^ 32) : (c.setRef i 3 v).refStatus i = v :=
  (congrArg BitVec.toNat (tbl_get_set_same (0 : Word) c.linkRef (refWord i 3) (w32 v))).trans ((BitVec.toNat_ofNat v 32).trans (Nat.mod_eq_of_lt hv))

/-- A commit accepts the block or rejects it (R281). -/
theorem commitRef_outcome (c : Chip) (i : Nat) (h : c.refStatus i ≠ 1) : c.commitRef i = c.setRef i 3 1 ∨ c.commitRef i = c.setRef i 3 3 := by
  unfold Chip.commitRef
  rw [if_neg h]
  split
  · split
    · exact .inl rfl
    · exact .inr rfl
  · exact .inr rfl

/-! The commands. -/

section
variable (s : State) (h : s.chip.hostReady [2, 3] = true)
include h

theorem ends_commit_valid (hm : mapOk s.chip.stagedMap = true) :
    Ends .cnvCommit s fun c => c.reg 0x7B1 = 1 ∧ c.canvas.pending.isSome = true ∧ c.replied writeDone := by
  obtain ⟨m, hwrite⟩ := wrCommit_valid s.chip.taken (by simpa using hm)
  refine ends_of_write .cnvCommit s h rfl rfl ((writeParam_commit _).trans hwrite) (taken_powered s _ h) (taken_stretch s _ h)
    ⟨?_, rfl, replied_put _ _⟩
  rw [reg_replied _ _ _ (by decide)]
  exact reg_put_fits _ _ _ 2 rfl (by decide) (by decide)

theorem ends_commit_invalid (hm : mapOk s.chip.stagedMap = false) :
    Ends .cnvCommit s fun c => c.reg 0x7B1 = 2 ∧ c.canvas = s.chip.canvas ∧ c.replied ([0x0A, 0x00] ++ le 2 0x7B0) := by
  have hwrite := (writeParam_commit s.chip.taken).trans (wrCommit_invalid _ (by simpa using hm))
  refine ends_of_refusal .cnvCommit s h rfl rfl hwrite (taken_powered s _ h) (taken_stretch s _ h) ⟨?_, taken_canvas s.chip, replied_put _ _⟩
  rw [reg_replied _ _ _ (by decide)]
  exact reg_put_fits _ _ _ 2 rfl (by decide) (by decide)

theorem ends_sineStart (ch : Nat) (hc : ch < 4) (ha : s.chip.dacAlarm ch = false) :
    Ends (.dacSineStart ch) s fun c => (c.dac ch).sineReq = some true ∧ c.replied writeDone := by
  obtain ⟨k, hstart⟩ := sineStart_allowed s.chip.taken ch (by simpa using ha)
  have hwrite := (writeParam_sineCtrl s.chip.taken ch 1 hc (by decide)).trans ((wrSineCtrl_start _ ch).trans hstart)
  exact ends_of_write (.dacSineStart ch) s h rfl (if_pos hc) hwrite (taken_powered s _ h) (taken_stretch s _ h)
    ⟨sineReq_sineAsked _ ch true, replied_put _ _⟩

theorem refuses_sineStart (ch : Nat) (hc : ch < 4) (ha : s.chip.dacAlarm ch = true) :
    Refuses (.dacSineStart ch) s ([0x0A, 0x00] ++ le 2 (dacA ch 5)) := by
  refine refuses_of _ s _ 1 rBad h rfl (if_pos hc) (by decide) ?_
  rw [writeParam_sineCtrl _ ch 1 hc (by decide), wrSineCtrl_start, Chip.sineStart, if_pos (by simpa using ha)]
  rfl

theorem ends_sineStop (ch : Nat) (hc : ch < 4) : Ends (.dacSineStop ch) s fun c => (c.dac ch).sineReq = some false ∧ c.replied writeDone :=
  ends_of_write (.dacSineStop ch) s h rfl (if_pos hc) ((writeParam_sineCtrl s.chip.taken ch 2 hc (by decide)).trans (wrSineCtrl_stop _ ch))
    (taken_powered s _ h) (taken_stretch s _ h) ⟨sineReq_sineAsked _ ch false, replied_put _ _⟩

theorem waits_injStart (fe : Nat) (hf : fe < 2) (hb : s.chip.injBad fe = false) : Waits (.feInjStart fe) s (feA fe 0x20) 1 := by
  refine waits_of_wrValue _ s _ 1 h rfl (if_pos hf) (takesField_injCtrl hf) ?_
  rw [and_injCtrl hf, wrValue_injCtrl _ fe 1 hf, wrInjCtrl_start]
  exact injStart_allowed _ fe (by simpa using hb)

theorem ends_injStart_refused (fe : Nat) (hf : fe < 2) (hb : s.chip.injBad fe = true) :
    Ends (.feInjStart fe) s fun c => c.reg (feA fe 0x23) = 4 ∧ c.replied ([0x0A, 0x00] ++ le 2 (feA fe 0x20)) := by
  have hwrite : s.chip.taken.writeParam (feA fe 0x20) 1 = (rBad, s.chip.taken.put (feA fe 0x23) 4) := by
    rw [writeParam_takesField _ 1 (takesField_injCtrl hf), and_injCtrl hf, wrValue_injCtrl _ fe 1 hf, wrInjCtrl_start]
    exact injStart_refused _ fe (by simpa using hb)
  refine ends_of_refusal (.feInjStart fe) s h rfl (if_pos hf) hwrite (taken_powered s _ h) (taken_stretch s _ h) ⟨?_, replied_put _ _⟩
  rw [reg_replied _ _ _ (feA_ne_hbState fe _)]
  exact reg_put_fits _ _ _ 3 (injStatus_mask hf) (by decide) (by decide)

theorem ends_injStop (fe : Nat) (l : Int) (hf : fe < 2) (hi : s.chip.injecting fe = true) : Ends (.feInjStop fe l) s fun c =>
    (c.fe fe).injLevel = some l ∧ Tbl.find c.staged (feA fe 0x20) = none ∧ c.replied writeDone ∧ SameRegs hostRegs s.chip c := by
  have hstop := injStopWrite_injecting s.chip.taken fe l (by simpa using hi)
  refine ends_of_effect (.feInjStop fe l) s h rfl (if_pos hf) (b := 0) (l := [0x01, 0xFF, 0xFF]) (d := injStopped s.chip.taken fe l)
    (by simp only [plain, writeOne, hstop, writeReply_ok]; rfl) (taken_powered s _ h) (taken_stretch s _ h) ⟨?_, ?_, ?_⟩
  · exact congrArg FeSt.injLevel (tbl_get_set_same FeSt.reset s.chip.taken.fes fe _)
  · exact tbl_find_del_same s.chip.taken.staged _
  · exact replied_regs s _ _ [] fun _ _ => rfl

theorem refuses_bankNext (k : Nat) (v : Word) (hk : k < 160) (hb : s.chip.bankBad k v.toNat = true) :
    Refuses (.laneBankNextWrite k v) s ([0x0A, 0x00] ++ le 2 (laneA k 4)) := by
  refine refuses_of _ s _ v.toNat rBad h rfl (if_pos hk) (by decide) ?_
  rw [writeParam_bankNext _ k _ hk, wrLane_bankNext, taken_bankBad, if_pos hb]

theorem ends_bankNext (k : Nat) (v : Word) (hk : k < 160) (hb : s.chip.bankBad k v.toNat = false) (hr : s.chip.laneRuns k = false) :
    Ends (.laneBankNextWrite k v) s fun c => c.laneBank k = v.toNat % 64 ∧ c.replied writeDone ∧ SameRegs (laneA k 3 :: hostRegs) s.chip c := by
  have hlt := bank_le_of_not_bad hb
  have hwrite : s.chip.taken.writeParam (laneA k 4) v.toNat = (0, bankSwapped s.chip.taken k v.toNat) := by
    rw [writeParam_bankNext _ k _ hk, wrLane_bankNext, taken_bankBad, if_neg (by rw [hb]; decide), bankRequest_stopped _ k _ (by simpa using hr)]
  have hbank := laneBank_bankSwapped s.chip.taken k v.toNat hk hlt
  refine ends_of_write (.laneBankNextWrite k v) s h rfl (if_pos hk) hwrite (taken_powered s _ h) (taken_stretch s _ h) ⟨?_, ?_⟩
  · refine Eq.trans ?_ (hbank.trans (Nat.mod_eq_of_lt hlt).symm)
    exact congrArg (bits · _ 6) (reg_replied (bankSwapped s.chip.taken k v.toNat) writeDone (laneA k 3) (by unfold laneA; omega))
  · exact replied_regs s _ _ [laneA k 3] fun b hb => reg_put_other _ _ _ _ (by simpa using hb)

theorem ends_force (i : Nat) (v : Word) (m : MemberSt) (hi : i < 8) (hm : s.chip.member i (forceKey (v.toNat &&& maskAt (lnkA i 15))) = some m)
    (hv : m.verified = true) (hc : (s.chip.follow i).change = none) : Ends (.lnkForceWrite i v) s fun c =>
      (c.follow i).force = some (forceKey (v.toNat &&& maskAt (lnkA i 15))) ∧ c.replied writeDone ∧ SameRegs hostRegs s.chip c := by
  have hwrite := (writeParam_force s.chip.taken i v.toNat hi).trans
    (wrForce_verified _ i _ m ((taken_member _ _ _).trans hm) hv ((congrArg FollowSt.change (taken_follow _ i)).trans hc))
  refine ends_of_write (.lnkForceWrite i v) s h rfl (if_pos hi) hwrite (taken_powered s _ h) (taken_stretch s _ h) ⟨?_, ?_⟩
  · exact congrArg FollowSt.force (tbl_get_set_same FollowSt.reset s.chip.taken.follows i _)
  · exact replied_regs s _ _ [] fun _ _ => rfl

theorem refuses_refCommit (i : Nat) (hi : i < 8) (hst : s.chip.refStatus i = 1) : Refuses (.linkRefCommit i) s [0x0A] := by
  have hwrite : s.chip.taken.tableWrite 6 (refWord i 3) [1] = ([0x0A], s.chip.taken) := by
    rw [tableWrite_refStatus _ i hi, if_pos ((taken_refStatus _ i).trans hst)]; rfl
  exact ends_of_effect (.linkRefCommit i) s h rfl (if_pos hi) (b := 0x0A) (l := []) (d := s.chip.taken)
    (by simp only [plain, hwrite]) (taken_powered s _ h) (taken_stretch s _ h) (replied_regs s _ _ [] fun _ _ => rfl)

theorem ends_refCommit (i : Nat) (hi : i < 8) (hst : s.chip.refStatus i ≠ 1) : Ends (.linkRefCommit i) s fun c =>
    (c.refStatus i = 1 ∨ c.refStatus i = 3) ∧ c.replied [0x00] ∧ SameRegs hostRegs s.chip c := by
  have hne : s.chip.taken.refStatus i ≠ 1 := by rwa [taken_refStatus]
  obtain ⟨v, hv, hcommit⟩ : ∃ v, (v = 1 ∨ v = 3) ∧ s.chip.taken.commitRef i = s.chip.taken.setRef i 3 v :=
    (commitRef_outcome _ i hne).elim (fun e => ⟨1, .inl rfl, e⟩) (fun e => ⟨3, .inr rfl, e⟩)
  have hwrite : s.chip.taken.tableWrite 6 (refWord i 3) [1] = ([0x00], s.chip.taken.setRef i 3 v) := by
    rw [tableWrite_refStatus _ i hi, if_neg hne, hcommit]; rfl
  refine ends_of_effect (.linkRefCommit i) s h rfl (if_pos hi) (b := 0x00) (l := []) (d := s.chip.taken.setRef i 3 v)
    (by simp only [plain, hwrite]) (taken_powered s _ h) (taken_stretch s _ h) ⟨?_, ?_⟩
  · have hread := refStatus_setRef s.chip.taken i v (by omega)
    exact hv.imp hread.trans hread.trans
  · exact replied_regs s _ _ [] fun _ _ => rfl

end

/-- Settles O19, clause by clause. -/
theorem controlWrites : Obligations.ControlWrites := fun s h =>
  ⟨ends_capArm s h, refuses_capArm s h, ends_capTriggerNow s h, ends_capRelease s h, refuses_capStartExport s h,
    ends_commit_valid s h, ends_commit_invalid s h, ends_sineStart s h, refuses_sineStart s h, ends_sineStop s h, waits_injStart s h,
    ends_injStart_refused s h, ends_injStop s h, refuses_bankNext s h, ends_bankNext s h, ends_force s h, refuses_refCommit s h, ends_refCommit s h⟩

end Sys2Proof.Proofs
end

section
/-! O29 fails: the end of a capture export gives back the pages that its job holds (R89, R99), and a state may give that job pages in a partition beyond
the sixteen of a map, whose fill and peak would lie among the parameters of a window. -/

namespace Sys2Proof.Proofs

open Sys2Proof Sys2Proof.Machine Sys2Proof.Laws

/-- A row of the signal path acts on the chip where that path is clocked. -/
theorem becomes_onDsp {i : Instr} {s : State} {ok : Bool} {f : Chip → Chip} (hx : exec i s = .next (s.onDsp ok f)) (ho : ok = true)
    (hd : s.chip.dspOn = true) : Becomes i s (f s.chip) := by
  obtain ⟨hon, hawake⟩ : s.chip.ctlOn = true ∧ s.chip.blocksAsleep = false := by simpa [Chip.dspOn] using hd
  have hchip := onDsp_chip s ok f ho hon hawake
  unfold Becomes
  rw [hx, ← hchip]
  rfl

theorem becomes_unique {i : Instr} {s : State} {c d : Chip} (hc : Becomes i s c) (hd : Becomes i s d) : c = d := by
  have hnext := hc.symm.trans hd
  injection hnext with hstate
  injection hstate

/-- A running capture export of window 0 whose only pages are 0 KiB of partition 532. -/
def strayExport : Job :=
  { desc := mkDesc 8 1 0 (handleWin 0) 0, state := 2, reason := 0, start := 0, stop := none, allowance := 0, lmin := 0, rate := 0, mean := 0, burst := 0,
    trellis := 0, lanes := [], pages := [(532, 0)], origin := 2, records := 0, late := 0, shed := 0, maxLate := 0, sat := 0, lateRun := false,
    shedRun := false, ending := none, voided := false }

/-- The receiver at reset, window 0 in WIN_CAP_STATE 5 under that job, with all five sources in WIN_CAP_SRC. -/
def strayState : State :=
  State.reset.onChip fun c =>
    (((c.put (winA 0 0x13) 5).put (winA 0 0x11) 0x1F).modWin 0 fun x => { x with capJob := some 7 }).setJob 7 strayExport

/-- Giving the pages back stores the fill of partition 532, read from WIN_CAP_SRC (0x1F), as its new peak, because it is above the old one; that peak is
WIN_CAP_STATE, which has just become 4 and keeps three bits of the fill. -/
theorem capState_strayExportDone : cnvA 532 1 = winA 0 0x11 ∧ cnvA 532 3 = winA 0 0x13 ∧ (strayState.chip.capExportDone 0).reg (winA 0 0x13) = 7 := by
  refine ⟨rfl, rfl, ?_⟩
  decide +kernel

/-- Refutes O29: where its job holds pages of partition 532, the capture export that ends leaves WIN_CAP_STATE at 7, not 4. The statement speaks of every
state, also of this one, to which no admission leads: pages come from the sixteen partitions of the map (R89). -/
theorem not_capturesAndExports : ¬ Obligations.CapturesAndExports := by
  intro h
  obtain ⟨hdsp, -⟩ := h strayState 0 (by decide)
  obtain ⟨-, -, -, -, -, -, hdone, -⟩ := hdsp (by decide)
  obtain ⟨c, hc, hstate, -⟩ := hdone 7 (by decide) (by decide) (by decide) (by decide) ⟨strayExport, by decide, by decide, by decide⟩
  obtain ⟨-, -, hseven⟩ := capState_strayExportDone
  have hon : strayState.chip.dspOn = true := by decide
  have hend : Becomes (.captureExportDone 0) strayState (strayState.chip.capExportDone 0) :=
    becomes_onDsp (f := fun c => c.capExportDone 0) rfl rfl hon
  rw [becomes_unique hc hend, hseven] at hstate
  cases hstate

end Sys2Proof.Proofs
end

section
/-! Rows of the signal path on a lane, and what a change of the chip moves when it keeps the lanes, takes no pending event back and writes parameters of
page 0x01 and of given pages only. -/

namespace Sys2Proof.Proofs

open Sys2Proof Sys2Proof.Machine Sys2Proof.Laws

/-! How a row of the signal path on one lane ends. -/

theorem ends_onDsp {i : Instr} {s : State} {ok : Bool} {f : Chip → Chip} {P : Chip → Prop} (hx : exec i s = .next (s.onDsp ok f)) (ho : ok = true)
    (hd : s.chip.dspOn = true) (hP : P (f s.chip)) : Ends i s P := ⟨_, becomes_onDsp hx ho hd, hP⟩

/-- A row that finds nothing to do leaves the receiver as it is (log entry 16). -/
theorem becomes_idle {i : Instr} {s : State} {ok : Bool} {f : Chip → Chip} (hx : exec i s = .next (s.onDsp ok f)) (ho : ok = true)
    (hd : s.chip.dspOn = true) (hf : f s.chip = s.chip) : Becomes i s s.chip := by
  have h := becomes_onDsp hx ho hd
  rwa [hf] at h

theorem okLane_of_lt {k : Nat} (hk : k < 160) : okLane k = true := decide_eq_true hk

theorem lane_modLane_same (c : Chip) (k : Nat) (f : LaneSt → LaneSt) : (c.modLane k f).lane k = f (c.lane k) := by
  rw [lane_modLane, if_pos rfl]

theorem lane_eq_of_lanes {c d : Chip} (h : d.lanes = c.lanes) (k : Nat) : d.lane k = c.lane k := by
  unfold Chip.lane
  rw [h]

theorem reg_eq_of_regs {c d : Chip} (h : d.regs = c.regs) (a : Nat) : d.reg a = c.reg a := by
  unfold Chip.reg Chip.raw
  rw [h]

/-! Changes within given pages. -/

/-- From `c` to `d` the lanes stay, no pending event is taken back, and parameters move in page 0x01 and in the pages of `page` only. -/
structure MovesIn (page : Nat → Prop) (c d : Chip) : Prop where
  lanes : d.lanes = c.lanes
  pending : ∀ n < 64, c.isPending n = true → d.isPending n = true
  regs : ∀ a, a / 256 ≠ 1 → ¬ page (a / 256) → d.reg a = c.reg a

namespace MovesIn

variable {page : Nat → Prop} {b c d : Chip}

theorem trans (h : MovesIn page b c) (h' : MovesIn page c d) : MovesIn page b d where
  lanes := h'.lanes.trans h.lanes
  pending n hn hp := h'.pending n hn (h.pending n hn hp)
  regs a h1 ha := (h'.regs a h1 ha).trans (h.regs a h1 ha)

/-- A change outside parameters and lanes. -/
theorem of_regs (hr : d.regs = c.regs) (hl : d.lanes = c.lanes) : MovesIn page c d where
  lanes := hl
  pending n _ hp := by
    simp only [Chip.isPending, Chip.bit, reg_eq_of_regs hr] at hp ⊢
    exact hp
  regs a _ _ := reg_eq_of_regs hr a

theorem refl (c : Chip) : MovesIn page c c := of_regs rfl rfl

theorem of_put (c : Chip) (a v : Nat) (ha : page (a / 256)) (h1 : a / 256 ≠ 1) : MovesIn page c (c.put a v) where
  lanes := rfl
  pending n hn hp := (isPending_put c a v n hn h1).trans hp
  regs x _ hx := reg_put_other c a v x fun e => hx (e ▸ ha)

/-- A counter whose SAT bit lies at `sa`. -/
theorem of_count (c : Chip) {a sa i : Nat} (hs : satOf a = some (sa, i)) (ha : page (a / 256)) (h1 : a / 256 ≠ 1) (hsa : page (sa / 256))
    (hs1 : sa / 256 ≠ 1) : MovesIn page c (c.count a) where
  lanes := count_lanes c a
  pending n hn hp := by
    rw [isPending_bit _ _ hn] at hp ⊢
    unfold Chip.bit at hp ⊢
    rwa [reg_count_other _ _ _ (by omega) (by omega) (by rw [hs]; rintro _ ⟨⟩; dsimp only; omega)]
  regs x hx hpx := reg_count_other _ _ _ (fun e => hpx (e ▸ ha)) (by omega) (by rw [hs]; rintro _ ⟨⟩ e; exact hpx (e ▸ hsa))

theorem of_raise (c : Chip) (n h d : Nat) (hn : n < 64) : MovesIn page c (c.raise n h d) where
  lanes := raise_lanes c n h d
  pending m hm hp := pending_raise_keeps c n m h d hn hm hp
  regs a h1 _ := reg_raise_other c n h d a hn h1

theorem of_each {α : Type} {f : Chip → α → Chip} {l : List α} (hf : ∀ c, ∀ x ∈ l, MovesIn page c (f c x)) (c : Chip) :
    MovesIn page c (c.each l f) := by
  induction l generalizing c with
  | nil => exact refl c
  | cons x l ih => exact (hf c x List.mem_cons_self).trans (ih (fun d y hy => hf d y (List.mem_cons_of_mem _ hy)) (f c x))

theorem lane (h : MovesIn page c d) (k : Nat) : d.lane k = c.lane k := lane_eq_of_lanes h.lanes k

end MovesIn

end Sys2Proof.Proofs
end

section
/-! Insertion and reception of a Gallery entry move parameters of pages 0x01 and 0x0C only (R241 to R245). -/

namespace Sys2Proof.Proofs

open Sys2Proof Sys2Proof.Machine Sys2Proof.Laws

/-- The page of the Gallery's parameters. -/
def galPage (p : Nat) : Prop := p = 0x0C

theorem galPut_moves (c : Chip) {a : Nat} (v : Nat) (ha : a / 256 = 0x0C) : MovesIn galPage c (c.put a v) := .of_put c a v ha (by omega)

theorem galCount_moves (c : Chip) {a i : Nat} (hs : satOf a = some (0xC0D, i)) (ha : a / 256 = 0x0C) : MovesIn galPage c (c.count a) :=
  .of_count c hs ha (by omega) (show 0xC0D / 256 = 0x0C by decide) (by decide)

theorem galInsCount_moves (c : Chip) : MovesIn galPage c (c.count 0xC08) := galCount_moves c (i := 0) (by decide) (by decide)
theorem galEvictCount_moves (c : Chip) : MovesIn galPage c (c.count 0xC09) := galCount_moves c (i := 1) (by decide) (by decide)
theorem galDropCount_moves (c : Chip) : MovesIn galPage c (c.count 0xC0A) := galCount_moves c (i := 2) (by decide) (by decide)

theorem setGalW_moves {page : Nat → Prop} (c : Chip) (e w v : Nat) : MovesIn page c (c.setGalW e w v) := .of_regs rfl rfl
theorem setAfW_moves {page : Nat → Prop} (c : Chip) (e w v : Nat) : MovesIn page c (c.setAfW e w v) := .of_regs rfl rfl
theorem galMark_moves {page : Nat → Prop} (c : Chip) (e : Nat) : MovesIn page c (c.galMark e) := .of_regs rfl rfl

theorem galCounts_moves (c : Chip) : MovesIn galPage c c.galCounts := by
  have hputs := (galPut_moves c (a := 0xC00) c.galUsed.length (by decide)).trans
    (galPut_moves _ (a := 0xC01) (c.put 0xC00 c.galUsed.length).afUsed.length (by decide))
  unfold Chip.galCounts
  dsimp only
  split
  · exact hputs.trans (.of_regs rfl rfl)
  · exact hputs

theorem galNew_moves (c : Chip) (e kind ident : Nat) : MovesIn galPage c (c.galNew e kind ident) := by
  refine MovesIn.trans (MovesIn.trans (MovesIn.trans ?_ (galMark_moves _ e)) (galInsCount_moves _)) (galCounts_moves _)
  exact (((setGalW_moves c e 0 ident).trans (setGalW_moves _ e 1 _)).trans (setGalW_moves _ e 6 0x3FFF)).trans (setGalW_moves _ e 7 _)

theorem galFullEvent_moves (c : Chip) : MovesIn galPage c c.galFullEvent := by
  unfold Chip.galFullEvent
  split
  · exact .refl c
  · have hfull : MovesIn galPage c { c with gal := { c.gal with full := true } } := .of_regs rfl rfl
    exact hfull.trans (.of_raise _ 44 _ _ (by decide))

theorem galFree_moves {page : Nat → Prop} (c : Chip) (e : Nat) : MovesIn page c (c.galFree e) := by
  have hchain := MovesIn.of_each (page := page) (l := c.afChain e) (fun d a _ => (setAfW_moves d a 0 0).trans (setAfW_moves _ a 1 0)) c
  exact (hchain.trans (setGalW_moves _ e 6 _)).trans (.of_each (fun d w _ => setGalW_moves d e w 0) _)

theorem galInsert_moves (c : Chip) (kind ident : Nat) : MovesIn galPage c (c.galInsert kind ident).2 := by
  unfold Chip.galInsert
  split
  · exact .refl c
  · dsimp only
    split
    · exact galNew_moves c _ kind ident
    · split
      · rename_i v _
        have hfree := (galFullEvent_moves c).trans (galFree_moves c.galFullEvent v)
        dsimp only
        exact (hfree.trans (galEvictCount_moves _)).trans (galNew_moves _ v kind ident)
      · exact (galFullEvent_moves c).trans (galDropCount_moves _)

theorem galHold_moves {page : Nat → Prop} (c : Chip) (k e : Nat) : MovesIn page c (c.galHold k e) := by
  have hgal : ∀ (d : Chip) (g : GalSt), MovesIn page d { d with gal := g } := fun _ _ => .of_regs rfl rfl
  refine MovesIn.trans (MovesIn.trans ?_ (setGalW_moves _ e 1 _)) (hgal _ _)
  dsimp only
  split
  · exact .refl c
  · exact hgal c _

/-- The AM carrier of lane `k` is an entry of the Gallery, received on that lane (R242). -/
def galReceived (c : Chip) (k : Nat) : Chip := match c.galInsert 5 (c.laneKHz k) with
  | (some e, d) => d.galHold k e
  | (none, d) => d

theorem galReceived_moves (c : Chip) (k : Nat) : MovesIn galPage c (galReceived c k) := by
  have hins := galInsert_moves c 5 (c.laneKHz k)
  unfold galReceived
  generalize c.galInsert 5 (c.laneKHz k) = r at hins ⊢
  obtain ⟨_ | e, d⟩ := r
  · exact hins
  · exact hins.trans (galHold_moves d k e)

end Sys2Proof.Proofs
end

section
/-! A capture trigger moves parameters of its window only (R96, R98). -/

namespace Sys2Proof.Proofs

open Sys2Proof Sys2Proof.Machine Sys2Proof.Laws

/-- The pages of windows 0 to 11. -/
def winPage (p : Nat) : Prop := 0x10 ≤ p ∧ p < 0x20

theorem winPage_winA {w o : Nat} (hw : w < 12) (ho : o < 256) : winPage (winA w o / 256) ∧ winA w o / 256 ≠ 1 := by
  unfold winPage winA
  omega

theorem winPut_moves (c : Chip) {w o : Nat} (v : Nat) (hw : w < 12) (ho : o < 256) : MovesIn winPage c (c.put (winA w o) v) :=
  .of_put c _ v (winPage_winA hw ho).1 (winPage_winA hw ho).2

theorem satOf_capIgnored {w : Nat} (hw : w < 12) : satOf (winA w 0x1A) = some (winA w 0x06, 1) := by
  have hrow : rowAt (winA w 0x1A) = some (prow 0x1A 0xFFFFFFFF .rs 0x0 |>.satAt 0x06 1) := (rowAt_win hw (by decide)).trans rfl
  have hblock : blockBase (winA w 0x1A) = 0x1000 + 256 * w :=
    congrArg (·.2.1) (blockOf_addr (g := winRegion) (i := w) (off := 0x1A) (by simp [regions, wideRegions]) ⟨hw, by decide, by decide⟩)
  unfold satOf
  rw [if_neg (by unfold winA; omega), hrow, hblock]
  rfl

theorem capMark_moves (c : Chip) {w : Nat} (t causes : Nat) (hw : w < 12) : MovesIn winPage c (c.capMark w t causes) := by
  have hputs := (((winPut_moves c (o := 0x13) 3 hw (by decide)).trans (winPut_moves _ (o := 0x14) (t % 2 ^ 32) hw (by decide))).trans
    (winPut_moves _ (o := 0x15) (t / 2 ^ 32) hw (by decide))).trans (winPut_moves _ (o := 0x16) causes hw (by decide))
  exact hputs.trans (.of_regs rfl rfl)

theorem capTrigger_moves (c : Chip) {w : Nat} (causes : Nat) (now_ : Bool) (hw : w < 12) : MovesIn winPage c (c.capTrigger w causes now_) := by
  obtain ⟨hcnt, hcnt1⟩ := winPage_winA hw (show 0x1A < 256 by decide)
  obtain ⟨hsat, hsat1⟩ := winPage_winA hw (show 0x06 < 256 by decide)
  unfold Chip.capTrigger
  dsimp only
  split
  · exact .refl c
  · split
    · split
      · exact capMark_moves c _ causes hw
      · exact .refl c
    · split
      · exact winPut_moves c _ hw (by decide)
      · split
        · exact .refl c
        · exact .of_count c (satOf_capIgnored hw) hcnt hcnt1 hsat hsat1

end Sys2Proof.Proofs
end

section
/-! O31: pilot, AM loop, carrier and first output of a running lane (R111, R138, R142, R154). -/

namespace Sys2Proof.Proofs

open Sys2Proof Sys2Proof.Machine Sys2Proof.Laws

/-! A carrier is found or lost. -/

/-- The chip after the carrier of lane `k` is marked found or lost and event `n` is raised. -/
def carrierMarked (c : Chip) (k : Nat) (found : Bool) (n : Nat) : Chip :=
  (c.modLane k fun l => { l with found := found }).raise n (c.handleLane k) 0

section Marked
variable (c : Chip) (k : Nat) (found : Bool) {n : Nat}

theorem lane_carrierMarked (n : Nat) : (carrierMarked c k found n).lane k = { c.lane k with found := found } :=
  (lane_eq_of_lanes (raise_lanes _ n _ _) k).trans (lane_modLane_same c k _)

theorem pending_carrierMarked (hn : n < 64) : (carrierMarked c k found n).isPending n = true := pending_raise _ n _ _ hn

theorem reg_carrierMarked {a : Nat} (hn : n < 64) (ha : a / 256 ≠ 1) : (carrierMarked c k found n).reg a = c.reg a :=
  reg_raise_other _ n _ _ a hn ha

theorem laneOption_carrierMarked (n : Nat) : (carrierMarked c k found n).laneOption k = c.laneOption k := by
  unfold Chip.laneOption Chip.laneHeld
  rw [lane_carrierMarked]

end Marked

theorem foundNow_of (c : Chip) (k : Nat) (hr : c.laneRuns k = true) (hd : c.demodulates k = true) (hf : (c.lane k).found = false)
    (h4 : 4 ≤ (c.lane k).foundRun) : c.foundNow k = true := by
  simp [Chip.foundNow, hr, hd, hf, h4]

theorem lostNow_of (c : Chip) (k : Nat) (hr : c.laneRuns k = true) (hd : c.demodulates k = true) (hf : (c.lane k).found = true)
    (hl : c.reg 0x5182 ≤ (c.lane k).lostRun) : c.lostNow k = true := by
  simp [Chip.lostNow, hr, hd, hf, hl]

theorem carrierFound_eq (c : Chip) (k : Nat) (hn : c.foundNow k = true) :
    c.carrierFound k = if (carrierMarked c k true 32).laneIsAm k then galReceived (carrierMarked c k true 32) k else carrierMarked c k true 32 := by
  unfold Chip.carrierFound
  rw [if_neg (by simp [hn])]
  rfl

/-- An FM carrier is found: nothing beyond the mark and the event. -/
theorem carrierFound_fm (c : Chip) (k : Nat) (hn : c.foundNow k = true) (hfm : c.laneIsFm k = true) :
    c.carrierFound k = carrierMarked c k true 32 := by
  have hopt : c.laneOption k = 0x01 := by simpa [Chip.laneIsFm] using hfm
  have ham : (carrierMarked c k true 32).laneIsAm k = false := by
    unfold Chip.laneIsAm
    rw [laneOption_carrierMarked, hopt]
    rfl
  rw [carrierFound_eq c k hn, ham]
  rfl

/-- Beyond the mark and the event only the Gallery moves (R242). -/
theorem carrierFound_moves (c : Chip) (k : Nat) (hn : c.foundNow k = true) : MovesIn galPage (carrierMarked c k true 32) (c.carrierFound k) := by
  rw [carrierFound_eq c k hn]
  split
  · exact galReceived_moves _ k
  · exact .refl _

/-- A carrier lost to followers touches the state of following only (R286). -/
theorem followCarrierLost_moves {page : Nat → Prop} (c : Chip) (k : Nat) : MovesIn page c (c.followCarrierLost k) := by
  refine .of_each (fun d i _ => ?_) c
  dsimp only
  split
  · exact .refl d
  · split <;> exact .of_regs rfl rfl

/-- Beyond the mark and the event only windows move, whose captures the lost carrier may trigger (R96). -/
theorem carrierLost_moves (c : Chip) (k : Nat) (hn : c.lostNow k = true) : MovesIn winPage (carrierMarked c k false 33) (c.carrierLost k) := by
  have halarm : MovesIn winPage (carrierMarked c k false 33) ((carrierMarked c k false 33).alarmSourceLost k) := .of_regs rfl rfl
  unfold Chip.carrierLost
  rw [if_neg (by simp [hn])]
  refine (halarm.trans (followCarrierLost_moves _ k)).trans (.of_each (fun d w hw => ?_) _)
  exact capTrigger_moves d _ false (List.mem_range.mp (List.mem_filter.mp hw).1)

/-! Pilot, AM loop and first output. -/

theorem pilotLock_locks (c : Chip) (k : Nat) (hr : c.laneRuns k = true) (hf : c.laneIsFm k = true) (hon : 16 ≤ (c.lane k).pilotOn) :
    c.pilotLock k = c.modLane k fun l => { l with pilot := true, pilotTicks := if l.pilot then l.pilotTicks else 0 } := if_pos ⟨hr, hf, hon⟩

theorem pilotLock_early (c : Chip) (k : Nat) (hon : (c.lane k).pilotOn < 16) : c.pilotLock k = c := if_neg fun h => by omega

theorem pilotUnlock_unlocks (c : Chip) (k : Nat) (hr : c.laneRuns k = true) (hf : c.laneIsFm k = true) (hoff : 4 ≤ (c.lane k).pilotOff) :
    c.pilotUnlock k = c.modLane k fun l => { l with pilot := false, pilotTicks := 0 } := if_pos ⟨hr, hf, hoff⟩

theorem pilotUnlock_early (c : Chip) (k : Nat) (hoff : (c.lane k).pilotOff < 4) : c.pilotUnlock k = c := if_neg fun h => by omega

/-- The count of ticks that the loop's detector asks for: 16 for lock, 4 for its loss (R154). -/
def amCountFull (l : LaneSt) (locked : Bool) : Prop := if locked then 16 ≤ l.amGood else 4 ≤ l.amBad

theorem amLock_sets (c : Chip) (k : Nat) (locked : Bool) (hr : c.laneRuns k = true) (ho : c.laneOption k = 0x03 ∨ c.laneOption k = 0x04)
    (hfull : amCountFull (c.lane k) locked) : c.amLock k locked = c.modLane k fun l => { l with amLock := locked } := if_pos ⟨hr, ho, hfull⟩

theorem amLock_early (c : Chip) (k : Nat) (locked : Bool) (hfull : ¬ amCountFull (c.lane k) locked) : c.amLock k locked = c :=
  if_neg fun h => hfull h.2.2

/-- The first output of a background lane starts its visit, and touches the state of following only. -/
theorem followFirstOutput_moves {page : Nat → Prop} (c : Chip) (k : Nat) : MovesIn page c (c.followFirstOutput k) := by
  refine .of_each (fun d i _ => ?_) c
  split
  · exact .of_regs rfl rfl
  · exact .refl d

theorem laneFirst_fills (c : Chip) (k : Nat) (hs : (c.lane k).started = true) (hp : (c.lane k).suspended = false) (hf : (c.lane k).filled = false)
    (hspan : (c.lane k).dsp.since + c.laneFill k ≤ c.time.now) :
    c.laneFirst k = (c.modLane k fun l => { l with filled := true }).followFirstOutput k := if_pos (by simp [hs, hp, hf, hspan])

/-! The rows. -/

section
variable (s : State) (k : Nat) (hd : s.chip.dspOn = true) (hk : k < 160)
include hd hk

theorem ends_pilotLock (hr : s.chip.laneRuns k = true) (hf : s.chip.laneIsFm k = true) (hon : 16 ≤ (s.chip.lane k).pilotOn) :
    Ends (.pilotLock k) s fun c => (c.lane k).pilot = true ∧ SameRegs [] s.chip c := by
  refine ends_onDsp (f := fun c => c.pilotLock k) rfl (okLane_of_lt hk) hd ?_
  rw [pilotLock_locks _ k hr hf hon, lane_modLane_same]
  exact ⟨rfl, fun _ _ _ => rfl⟩

theorem ends_pilotUnlock (hr : s.chip.laneRuns k = true) (hf : s.chip.laneIsFm k = true) (hoff : 4 ≤ (s.chip.lane k).pilotOff) :
    Ends (.pilotUnlock k) s fun c => (c.lane k).pilot = false ∧ (c.lane k).pilotTicks = 0 ∧ SameRegs [] s.chip c := by
  refine ends_onDsp (f := fun c => c.pilotUnlock k) rfl (okLane_of_lt hk) hd ?_
  rw [pilotUnlock_unlocks _ k hr hf hoff, lane_modLane_same]
  exact ⟨rfl, rfl, fun _ _ _ => rfl⟩

theorem becomes_pilotLock_early (hon : (s.chip.lane k).pilotOn < 16) : Becomes (.pilotLock k) s s.chip :=
  becomes_idle (f := fun c => c.pilotLock k) rfl (okLane_of_lt hk) hd (pilotLock_early _ k hon)

theorem becomes_pilotUnlock_early (hoff : (s.chip.lane k).pilotOff < 4) : Becomes (.pilotUnlock k) s s.chip :=
  becomes_idle (f := fun c => c.pilotUnlock k) rfl (okLane_of_lt hk) hd (pilotUnlock_early _ k hoff)

theorem ends_carrierFound (hr : s.chip.laneRuns k = true) (hm : s.chip.demodulates k = true) (hf : (s.chip.lane k).found = false)
    (h4 : 4 ≤ (s.chip.lane k).foundRun) : Ends (.carrierFound k) s fun c =>
      (c.lane k).found = true ∧ c.isPending 32 = true ∧ (s.chip.laneIsFm k = true → SameRegs [] s.chip c) ∧
        ∀ a, a / 256 ≠ 1 → a / 256 ≠ 0x0C → c.reg a = s.chip.reg a := by
  have hnow := foundNow_of _ k hr hm hf h4
  have hmoves := carrierFound_moves _ k hnow
  refine ends_onDsp (f := fun c => c.carrierFound k) rfl (okLane_of_lt hk) hd ⟨?_, ?_, fun hfm => ?_, fun a h1 hpage => ?_⟩
  · rw [hmoves.lane, lane_carrierMarked]
  · exact hmoves.pending 32 (by decide) (pending_carrierMarked _ k true (by decide))
  · rw [carrierFound_fm _ k hnow hfm]
    exact fun a h1 _ => reg_carrierMarked _ k true (by decide) h1
  · exact (hmoves.regs a h1 hpage).trans (reg_carrierMarked _ k true (by decide) h1)

theorem becomes_carrierFound_early (h4 : (s.chip.lane k).foundRun < 4) : Becomes (.carrierFound k) s s.chip :=
  becomes_idle (f := fun c => c.carrierFound k) rfl (okLane_of_lt hk) hd (if_pos (by simp [Chip.foundNow, h4]))

theorem ends_carrierLost (hr : s.chip.laneRuns k = true) (hm : s.chip.demodulates k = true) (hf : (s.chip.lane k).found = true)
    (hl : s.chip.reg 0x5182 ≤ (s.chip.lane k).lostRun) : Ends (.carrierLost k) s fun c =>
      (c.lane k).found = false ∧ c.isPending 33 = true ∧ ∀ a, a / 256 ≠ 1 → a < 0x1000 ∨ 0x2000 ≤ a → c.reg a = s.chip.reg a := by
  have hmoves := carrierLost_moves _ k (lostNow_of _ k hr hm hf hl)
  refine ends_onDsp (f := fun c => c.carrierLost k) rfl (okLane_of_lt hk) hd ⟨?_, ?_, fun a h1 hout => ?_⟩
  · rw [hmoves.lane, lane_carrierMarked]
  · exact hmoves.pending 33 (by decide) (pending_carrierMarked _ k false (by decide))
  · have hpage : ¬ winPage (a / 256) := by unfold winPage; omega
    exact (hmoves.regs a h1 hpage).trans (reg_carrierMarked _ k false (by decide) h1)

/-- Lock and loss of the AM loop are one row with the new lock as its operand. -/
theorem ends_amLock {i : Instr} (locked : Bool) (hx : exec i s = .next (s.onDsp (okLane k) fun c => c.amLock k locked)) (hr : s.chip.laneRuns k = true)
    (ho : s.chip.laneOption k = 0x03 ∨ s.chip.laneOption k = 0x04) (hfull : amCountFull (s.chip.lane k) locked) :
    Ends i s fun c => (c.lane k).amLock = locked ∧ SameRegs [] s.chip c := by
  refine ends_onDsp hx (okLane_of_lt hk) hd ?_
  rw [amLock_sets _ k locked hr ho hfull, lane_modLane_same]
  exact ⟨rfl, fun _ _ _ => rfl⟩

theorem becomes_amLoopLock_early (hgood : (s.chip.lane k).amGood < 16) : Becomes (.amLoopLock k) s s.chip :=
  becomes_idle (f := fun c => c.amLock k true) rfl (okLane_of_lt hk) hd (amLock_early _ k true (Nat.not_le.mpr hgood))

theorem becomes_amLoopUnlock_early (hbad : (s.chip.lane k).amBad < 4) : Becomes (.amLoopUnlock k) s s.chip :=
  becomes_idle (f := fun c => c.amLock k false) rfl (okLane_of_lt hk) hd (amLock_early _ k false (Nat.not_le.mpr hbad))

theorem ends_laneFirstOutputSample (hs : (s.chip.lane k).started = true) (hp : (s.chip.lane k).suspended = false) (hf : (s.chip.lane k).filled = false)
    (hspan : (s.chip.lane k).dsp.since + s.chip.laneFill k ≤ s.chip.time.now) :
    Ends (.laneFirstOutputSample k) s fun c => (c.lane k).filled = true ∧ SameRegs [] s.chip c := by
  have hmoves : MovesIn (fun _ => False) (s.chip.modLane k fun l => { l with filled := true }) (s.chip.laneFirst k) := by
    rw [laneFirst_fills _ k hs hp hf hspan]
    exact followFirstOutput_moves _ k
  refine ends_onDsp (f := fun c => c.laneFirst k) rfl (okLane_of_lt hk) hd ⟨?_, fun a h1 _ => hmoves.regs a h1 id⟩
  rw [hmoves.lane, lane_modLane_same]

end

/-- Settles O31, clause by clause. -/
theorem carrierPilotAndLoopLock : Obligations.CarrierPilotAndLoopLock := fun s k hd hk =>
  ⟨ends_pilotLock s k hd hk, ends_pilotUnlock s k hd hk, becomes_pilotLock_early s k hd hk, becomes_pilotUnlock_early s k hd hk,
    ends_carrierFound s k hd hk, becomes_carrierFound_early s k hd hk, ends_carrierLost s k hd hk,
    fun hr ho => ⟨ends_amLock s k hd hk true rfl hr ho, ends_amLock s k hd hk false rfl hr ho⟩,
    becomes_amLoopLock_early s k hd hk, becomes_amLoopUnlock_early s k hd hk, ends_laneFirstOutputSample s k hd hk⟩

end Sys2Proof.Proofs
end

section
/-! What a lane start makes of the lane and of the demodulator that it takes (R108, R165, R204). -/

namespace Sys2Proof.Proofs

open Sys2Proof Sys2Proof.Machine Sys2Proof.Laws

/-! The demodulators' parameters. -/

theorem rowAt_dab {e o : Nat} (he : e < 8) (ho : o < 256) : rowAt (dabA e o) = dabRows.find? (·.covers o) :=
  rowAt_addr (g := dabRegion) (by simp [regions, wideRegions]) ⟨he, Nat.zero_le _, by simpa [dabRegion] using ho⟩

theorem rowAt_drm {n o : Nat} (hn : n < 16) (ho : o < 128) : rowAt (drmA n o) = drmRows.find? (·.covers o) :=
  rowAt_addr (g := ⟨drmRows, 0x2800, 16, 128, 0⟩) (by simp [regions, wideRegions]) ⟨hn, Nat.zero_le _, by simpa using ho⟩

theorem dabLane_mask {e : Nat} (he : e < 8) : maskAt (dabA e 0) = 2 ^ 8 - 1 :=
  maskAt_of_row (r := prow 0x00 0xFF .ro 0xFF) ((rowAt_dab he (by decide)).trans rfl)

theorem dabState_mask {e : Nat} (he : e < 8) : maskAt (dabA e 1) = 2 ^ 3 - 1 :=
  maskAt_of_row (r := prow 0x01 0x7 .ro 0x0) ((rowAt_dab he (by decide)).trans rfl)

theorem drmLane_mask {n : Nat} (hn : n < 16) : maskAt (drmA n 0) = 2 ^ 8 - 1 :=
  maskAt_of_row (r := prow 0x00 0xFF .ro 0xFF) ((rowAt_drm hn (by decide)).trans rfl)

theorem drmState_mask {n : Nat} (hn : n < 16) : maskAt (drmA n 1) = 2 ^ 3 - 1 :=
  maskAt_of_row (r := prow 0x01 0x7 .ro 0x0) ((rowAt_drm hn (by decide)).trans rfl)

theorem laneGen_mask {k : Nat} (hk : k < 160) : maskAt (laneA k 6) = 2 ^ 16 - 1 :=
  maskAt_of_row (r := prow 0x06 0xFFFF .ro 0x0) ((rowAt_lane hk (by decide)).trans rfl)

/-! The lane itself. -/

/-- Lane `k` after its start under job `j` with option byte `o`, before it takes a demodulator: its generation steps, its state is new. -/
def laneRenewed (c : Chip) (k j o : Nat) : Chip :=
  let c := c.stepGenAt (laneA k 6)
  c.modLane k fun _ => { LaneSt.reset with job := some j, option := o, started := true, actB := (c.lane k).actB, phaseAt := c.tick,
                                           single := c.laneCombines k && !c.winRuns (c.laneWin2 k),
                                           dsp := { LaneDsp.reset with since := c.time.now, bank := c.laneBank k } }

/-- What R108 says of a lane that starts. -/
def laneShown (l : LaneSt) : Bool × Option Nat × Bool × Nat × Bool := (l.started, l.job, l.filled, l.phaseAt, l.actB)

theorem laneShown_laneRenewed (c : Chip) (k j o : Nat) :
    laneShown ((laneRenewed c k j o).lane k) = (true, some j, false, c.tick, (c.lane k).actB) :=
  congrArg laneShown (lane_modLane_same (c.stepGenAt (laneA k 6)) k _)

theorem reg_laneRenewed_other (c : Chip) (k j o a : Nat) (ha : a ≠ laneA k 6) : (laneRenewed c k j o).reg a = c.reg a :=
  reg_put_other c (laneA k 6) _ a ha

theorem laneGen_laneRenewed (c : Chip) {k : Nat} (j o : Nat) (hk : k < 160) :
    (laneRenewed c k j o).reg (laneA k 6) = (c.reg (laneA k 6) + 1) % 65536 :=
  reg_put_fits c (laneA k 6) _ 16 (laneGen_mask hk) (by decide) (Nat.mod_lt _ (by decide))

/-! The demodulator. -/

/-- Ensemble demodulator `e` is taken by lane `k`, and searches. -/
def ensTaken (c : Chip) (e k : Nat) : Chip := ((c.put (dabA e 0) k).put (dabA e 1) 1).modEns e fun _ => EnsSt.reset

/-- DRM demodulator `n` is taken by lane `k`, and searches. -/
def drmTaken (c : Chip) (n k : Nat) : Chip := (((c.put (drmA n 0) k).put (drmA n 1) 1).put (drmA n 3) 0x3F).modDrm n fun _ => DrmSt.reset

/-- A DAB lane that has no demodulator takes the lowest free one. -/
def takeEns (c : Chip) (k o : Nat) : Chip :=
  if o = 0x10 ∧ (c.ensOf k).isNone then
    match (List.range 8).find? (fun e => c.reg (dabA e 0) == 0xFF) with
    | some e => ensTaken c e k
    | none => c
  else c

/-- A DRM lane that has no demodulator takes the lowest free one. -/
def takeDrm (c : Chip) (k o : Nat) : Chip :=
  if optDrm o ∧ (c.drmOf k).isNone then
    match (List.range 16).find? (fun n => c.reg (drmA n 0) == 0xFF) with
    | some n => drmTaken c n k
    | none => c
  else c

theorem startLane_eq (c : Chip) (k j o : Nat) : c.startLane k j o = takeDrm (takeEns (laneRenewed c k j o) k o) k o := rfl

theorem takeEns_other (c : Chip) (k o : Nat) (ho : o ≠ 0x10) : takeEns c k o = c := if_neg fun h => ho h.1

theorem takeDrm_other (c : Chip) (k o : Nat) (ho : optDrm o = false) : takeDrm c k o = c := if_neg fun h => by simp [ho] at h

theorem startLane_without_demodulator (c : Chip) (k j o : Nat) (ho : o ≠ 0x10) (hd : optDrm o = false) : c.startLane k j o = laneRenewed c k j o := by
  rw [startLane_eq, takeEns_other _ _ _ ho, takeDrm_other _ _ _ hd]

/-- The search for a free one of `n` finds the lowest. -/
theorem find?_lowest {n e : Nat} {free : Nat → Bool} (he : e < n) (hfree : free e = true) (hlow : ∀ d < e, free d = false) :
    (List.range n).find? free = some e :=
  List.find?_range_eq_some.mpr ⟨hfree, List.mem_range.mpr he, fun d hd => by simp [hlow d hd]⟩

section
variable (c : Chip) {k : Nat} (j o : Nat)

theorem dabLane_laneRenewed (e : Nat) (_ : e < 8) : (laneRenewed c k j o).reg (dabA e 0) = c.reg (dabA e 0) :=
  reg_laneRenewed_other c k j o _ (by unfold dabA laneA; omega)

theorem drmLane_laneRenewed (n : Nat) (_ : n < 16) : (laneRenewed c k j o).reg (drmA n 0) = c.reg (drmA n 0) :=
  reg_laneRenewed_other c k j o _ (by unfold drmA laneA; omega)

theorem takeEns_lowest {e : Nat} (hnone : c.ensOf k = none) (he : e < 8) (hfree : c.reg (dabA e 0) = 0xFF)
    (hlow : ∀ d, d < e → c.reg (dabA d 0) ≠ 0xFF) : takeEns c k 0x10 = ensTaken c e k := by
  have hfind : (List.range 8).find? (fun e => c.reg (dabA e 0) == 0xFF) = some e :=
    find?_lowest he (by simp [hfree]) fun d hd => by simpa using hlow d hd
  unfold takeEns
  rw [if_pos ⟨rfl, by rw [hnone]; rfl⟩, hfind]

theorem takeDrm_lowest {n : Nat} (ho : optDrm o = true) (hnone : c.drmOf k = none) (hn : n < 16) (hfree : c.reg (drmA n 0) = 0xFF)
    (hlow : ∀ m, m < n → c.reg (drmA m 0) ≠ 0xFF) : takeDrm c k o = drmTaken c n k := by
  have hfind : (List.range 16).find? (fun n => c.reg (drmA n 0) == 0xFF) = some n :=
    find?_lowest hn (by simp [hfree]) fun m hm => by simpa using hlow m hm
  unfold takeDrm
  rw [if_pos ⟨ho, by rw [hnone]; rfl⟩, hfind]

theorem startLane_dab {e : Nat} (hnone : c.ensOf k = none) (he : e < 8) (hfree : c.reg (dabA e 0) = 0xFF)
    (hlow : ∀ d, d < e → c.reg (dabA d 0) ≠ 0xFF) : c.startLane k j 0x10 = ensTaken (laneRenewed c k j 0x10) e k := by
  have hens : (laneRenewed c k j 0x10).ensOf k = none := List.find?_eq_none.mpr fun d hd => by
    rw [dabLane_laneRenewed c j _ d (List.mem_range.mp hd)]
    exact List.find?_eq_none.mp hnone d hd
  rw [startLane_eq, takeDrm_other _ _ _ (by decide), takeEns_lowest _ hens he ((dabLane_laneRenewed c j _ e he).trans hfree)]
  intro d hd
  rw [dabLane_laneRenewed c j _ d (by omega)]
  exact hlow d hd

theorem startLane_drm {n : Nat} (ho : optDrm o = true) (hnone : c.drmOf k = none) (hn : n < 16) (hfree : c.reg (drmA n 0) = 0xFF)
    (hlow : ∀ m, m < n → c.reg (drmA m 0) ≠ 0xFF) : c.startLane k j o = drmTaken (laneRenewed c k j o) n k := by
  have hdrm : (laneRenewed c k j o).drmOf k = none := List.find?_eq_none.mpr fun m hm => by
    rw [drmLane_laneRenewed c j _ m (List.mem_range.mp hm)]
    exact List.find?_eq_none.mp hnone m hm
  have hdab : o ≠ 0x10 := by rintro rfl; exact absurd ho (by decide)
  rw [startLane_eq, takeEns_other _ _ _ hdab, takeDrm_lowest _ _ ho hdrm hn ((drmLane_laneRenewed c j _ n hn).trans hfree)]
  intro m hm
  rw [drmLane_laneRenewed c j _ m (by omega)]
  exact hlow m hm

end

/-! What taking a demodulator moves. -/

/-- The pages of the DAB and DRM demodulators. -/
def demodPage (p : Nat) : Prop := 0x20 ≤ p ∧ p < 0x30

theorem ensTaken_moves (c : Chip) {e : Nat} (k : Nat) (he : e < 8) : MovesIn demodPage c (ensTaken c e k) := by
  have hput : ∀ (d : Chip) (o v : Nat), o < 256 → MovesIn demodPage d (d.put (dabA e o) v) := fun d o v ho =>
    .of_put d _ v (by unfold demodPage dabA; omega) (by unfold dabA; omega)
  exact ((hput c 0 k (by decide)).trans (hput _ 1 1 (by decide))).trans (.of_regs rfl rfl)

theorem drmTaken_moves (c : Chip) {n : Nat} (k : Nat) (hn : n < 16) : MovesIn demodPage c (drmTaken c n k) := by
  have hput : ∀ (d : Chip) (o v : Nat), o < 128 → MovesIn demodPage d (d.put (drmA n o) v) := fun d o v ho =>
    .of_put d _ v (by unfold demodPage drmA; omega) (by unfold drmA; omega)
  exact (((hput c 0 k (by decide)).trans (hput _ 1 1 (by decide))).trans (hput _ 3 0x3F (by decide))).trans (.of_regs rfl rfl)

theorem takeEns_moves (c : Chip) (k o : Nat) : MovesIn demodPage c (takeEns c k o) := by
  unfold takeEns
  split
  · split
    · rename_i e hfind
      exact ensTaken_moves c k (List.mem_range.mp (List.mem_of_find?_eq_some hfind))
    · exact .refl c
  · exact .refl c

theorem takeDrm_moves (c : Chip) (k o : Nat) : MovesIn demodPage c (takeDrm c k o) := by
  unfold takeDrm
  split
  · split
    · rename_i n hfind
      exact drmTaken_moves c k (List.mem_range.mp (List.mem_of_find?_eq_some hfind))
    · exact .refl c
  · exact .refl c

theorem startLane_moves (c : Chip) (k j o : Nat) : MovesIn demodPage (laneRenewed c k j o) (c.startLane k j o) :=
  (takeEns_moves _ k o).trans (takeDrm_moves _ k o)

/-- The demodulator names its lane and searches. -/
theorem ensTaken_regs (c : Chip) {k e : Nat} (hk : k < 160) (he : e < 8) : (ensTaken c e k).reg (dabA e 0) = k ∧ (ensTaken c e k).reg (dabA e 1) = 1 ∧
    ∀ a, a ∉ [dabA e 0, dabA e 1] → (ensTaken c e k).reg a = c.reg a := by
  refine ⟨?_, reg_put_fits (c.put (dabA e 0) k) (dabA e 1) 1 3 (dabState_mask he) (by decide) (by decide), fun a ha => ?_⟩
  · exact (reg_put_other (c.put (dabA e 0) k) (dabA e 1) 1 _ (by unfold dabA; omega)).trans
      (reg_put_fits c (dabA e 0) k 8 (dabLane_mask he) (by decide) (by omega))
  · obtain ⟨h0, h1⟩ : a ≠ dabA e 0 ∧ a ≠ dabA e 1 := by simpa using ha
    exact (reg_put_other (c.put (dabA e 0) k) (dabA e 1) 1 a h1).trans (reg_put_other c _ _ a h0)

theorem drmTaken_regs (c : Chip) {k n : Nat} (hk : k < 160) (hn : n < 16) : (drmTaken c n k).reg (drmA n 0) = k ∧ (drmTaken c n k).reg (drmA n 1) = 1 ∧
    ∀ a, a ∉ [drmA n 0, drmA n 1, drmA n 3] → (drmTaken c n k).reg a = c.reg a := by
  have hputs : ∀ a, (drmTaken c n k).reg a = (((c.put (drmA n 0) k).put (drmA n 1) 1).put (drmA n 3) 0x3F).reg a := fun _ => rfl
  refine ⟨?_, ?_, fun a ha => ?_⟩
  · rw [hputs, reg_put_other _ _ _ _ (by unfold drmA; omega), reg_put_other _ _ _ _ (by unfold drmA; omega)]
    exact reg_put_fits c (drmA n 0) k 8 (drmLane_mask hn) (by decide) (by omega)
  · rw [hputs, reg_put_other _ _ _ _ (by unfold drmA; omega)]
    exact reg_put_fits _ (drmA n 1) 1 3 (drmState_mask hn) (by decide) (by decide)
  · obtain ⟨h0, h1, h3⟩ : a ≠ drmA n 0 ∧ a ≠ drmA n 1 ∧ a ≠ drmA n 3 := by simpa using ha
    rw [hputs, reg_put_other _ _ _ _ h3, reg_put_other _ _ _ _ h1, reg_put_other _ _ _ _ h0]

/-! The combining lanes after a start. -/

theorem laneShown_modLane (c : Chip) (i k : Nat) (f : LaneSt → LaneSt) (hf : ∀ l, laneShown (f l) = laneShown l) :
    laneShown ((c.modLane i f).lane k) = laneShown (c.lane k) := by
  rw [lane_modLane]
  split
  · rename_i h
    rw [hf, h]
  · rfl

theorem laneShown_reweigh (c : Chip) (i k : Nat) : laneShown ((c.reweigh i).lane k) = laneShown (c.lane k) :=
  laneShown_modLane c i k _ fun l => by split <;> rfl

/-- Fallback and resumption of combining lanes move no parameter, and nothing of a lane that R108 speaks of (R58). -/
theorem refreshDiv_frame (c : Chip) (k : Nat) : c.refreshDiv.regs = c.regs ∧ laneShown (c.refreshDiv.lane k) = laneShown (c.lane k) := by
  refine Prod.mk.inj (each_frame (fun d => (d.regs, laneShown (d.lane k))) _ (fun d i => ?_) _ c)
  dsimp only
  split
  · rfl
  · exact Prod.ext rfl ((laneShown_reweigh _ i k).trans (laneShown_modLane d i k _ fun _ => rfl))

end Sys2Proof.Proofs
end

section
/-! O30: the start of a lane and the end of a bank fade (R108, R111, R127, R165, R204). -/

namespace Sys2Proof.Proofs

open Sys2Proof Sys2Proof.Machine Sys2Proof.Laws

/-! The end of a bank fade. -/

/-- The fade of lane `k` has ended: its target bank is the active one. -/
def fadeEnded (c : Chip) (k : Nat) : Chip := c.modLane k fun l => { l with fading := false, actB := !l.actB }

theorem startPendingBank_none (c : Chip) (k : Nat) (hp : (c.lane k).pend = none) : c.startPendingBank k = c := by
  unfold Chip.startPendingBank
  rw [hp]

theorem startPendingBank_some (c : Chip) (k b : Nat) (hp : (c.lane k).pend = some b) (hb : b ≠ c.laneBank k) :
    c.startPendingBank k = (c.modLane k fun l => { l with pend := none }).fadeBegin k b := by
  have hbank : (c.modLane k fun l => { l with pend := none }).laneBank k = c.laneBank k := by
    unfold Chip.laneBank
    rw [lane_modLane_same]
    rfl
  unfold Chip.startPendingBank
  rw [hp]
  exact if_neg (by rwa [hbank])

/-- A fade that is due ends, and a pending bank that no linking cross-fade precedes starts. -/
theorem bankFadeEnd_due (c : Chip) (k : Nat) (hf : (c.lane k).fading = true) (hdue : (c.lane k).fadeAt + 2 ^ c.laneFade k * c.lanePeriod k ≤ c.time.now) :
    c.bankFadeEnd k = if ((fadeEnded c k).lane k).pendLink.isSome && ((fadeEnded c k).lane k).linkFirst then fadeEnded c k
      else (fadeEnded c k).startPendingBank k := by
  have hdone : c.completeFade k = fadeEnded c k := if_pos hf
  unfold Chip.bankFadeEnd
  rw [if_neg (by simp [hf, hdue]), hdone]

theorem bankFadeEnd_early (c : Chip) (k : Nat) (h : c.time.now < (c.lane k).fadeAt + 2 ^ c.laneFade k * c.lanePeriod k) : c.bankFadeEnd k = c :=
  if_pos (by simp [h])

/-- A bank loaded is that of the inactive pointer. -/
theorem laneBankOf_loadInactive (c : Chip) (k b : Nat) (hk : k < 160) (hb : b < 64) : (c.loadInactive k b).laneBankOf k (!(c.lane k).actB) = b := by
  have hswap := laneBank_bankSwapped c k b hk hb
  unfold Chip.laneBank bankSwapped at hswap
  rwa [lane_modLane_same] at hswap

section
variable (c : Chip) (k b : Nat)

theorem lane_fadeBegin : (c.fadeBegin k b).lane k = { c.lane k with
    fading := true, fadeAt := c.time.now, dsp := { (c.lane k).dsp with fades := (c.lane k).dsp.fades ++ [{ from_ := c.time.now, new := b, n := 0 }] } } :=
  lane_modLane_same (c.loadInactive k b) k _

theorem laneBankOf_fadeBegin (hk : k < 160) (hb : b < 64) : (c.fadeBegin k b).laneBankOf k (!(c.lane k).actB) = b :=
  laneBankOf_loadInactive c k b hk hb

theorem reg_fadeBegin_other (a : Nat) (ha : a ≠ laneA k 3) : (c.fadeBegin k b).reg a = c.reg a := reg_put_other c (laneA k 3) _ a ha

end

/-! The start of a lane. -/

/-- A lane whose job has begun, and which is not one of a follow job, starts where its window runs and its bank is valid. -/
theorem laneStart_starts (c : Chip) (k : Nat) {j : Nat} {x : Job} (hj : (c.lane k).job = some j) (hx : c.job? j = some x) (h2 : x.state = 2)
    (hs : (c.lane k).started = false) (hp : (c.lane k).suspended = false) (hw : c.winRuns (c.laneWin k) = true) (hf : c.followOf j = none)
    (hb : c.bankOk (c.laneBank k) = true) : c.laneStart k = (c.startLane k j (c.lane k).option).refreshDiv := by
  unfold Chip.laneStart
  rw [hj]
  dsimp only
  rw [hx]
  dsimp only
  rw [if_neg (by simp [h2, hs, hp, hw]), hf]
  exact if_pos hb

/-- The lane after its start. -/
theorem laneStart_shows (c : Chip) {k : Nat} (j o : Nat) (hk : k < 160) :
    laneShown ((c.startLane k j o).refreshDiv.lane k) = (true, some j, false, c.tick, (c.lane k).actB) ∧
      (c.startLane k j o).refreshDiv.reg (laneA k 6) = (c.reg (laneA k 6) + 1) % 65536 := by
  obtain ⟨hregs, hlane⟩ := refreshDiv_frame (c.startLane k j o) k
  have hmoves := startLane_moves c k j o
  refine ⟨?_, ?_⟩
  · rw [hlane, hmoves.lane, laneShown_laneRenewed]
  · rw [reg_eq_of_regs hregs, hmoves.regs _ (by unfold laneA; omega) (by unfold demodPage laneA; omega), laneGen_laneRenewed c j o hk]

/-- Without a demodulator to take, the lane's generation is all that moves. -/
theorem laneStart_sameRegs (c : Chip) (k j o : Nat) (ho : o ∈ [1, 2, 3, 4]) : SameRegs [laneA k 6] c (c.startLane k j o).refreshDiv := by
  obtain ⟨hdab, hdrm⟩ : o ≠ 0x10 ∧ optDrm o = false := by
    revert o
    decide
  intro a _ ha
  rw [reg_eq_of_regs (refreshDiv_frame _ k).1, startLane_without_demodulator c k j o hdab hdrm]
  exact reg_laneRenewed_other c k j o a (by simpa using ha)

/-- Where taking a demodulator moves the parameters `ex`, the start as a whole moves those and the lane's generation. -/
theorem sameRegs_of_taken (c d : Chip) (k j o : Nat) (ex : List Nat) (h : ∀ a, a ∉ ex → d.reg a = (laneRenewed c k j o).reg a) :
    SameRegs (laneA k 6 :: ex) c d.refreshDiv := by
  intro a _ ha
  obtain ⟨hgen, hex⟩ : a ≠ laneA k 6 ∧ a ∉ ex := by simpa using ha
  rw [reg_eq_of_regs (refreshDiv_frame d k).1, h a hex]
  exact reg_laneRenewed_other c k j o a hgen

/-! The rows. -/

section
variable (s : State) (k : Nat) (hd : s.chip.dspOn = true) (hk : k < 160)
include hd hk

theorem becomes_laneStart_unheld (hj : (s.chip.lane k).job = none) : Becomes (.laneStart k) s s.chip := by
  refine becomes_idle (f := fun c => c.laneStart k) rfl (okLane_of_lt hk) hd ?_
  unfold Chip.laneStart
  rw [hj]

theorem ends_bankFadeEnd (hf : (s.chip.lane k).fading = true)
    (hdue : (s.chip.lane k).fadeAt + 2 ^ s.chip.laneFade k * s.chip.lanePeriod k ≤ s.chip.time.now) (hp : (s.chip.lane k).pend = none) :
    Ends (.bankFadeEnd k) s fun c => (c.lane k).fading = false ∧ (c.lane k).actB = !(s.chip.lane k).actB ∧ SameRegs [] s.chip c := by
  have hlane : (fadeEnded s.chip k).lane k = _ := lane_modLane_same s.chip k _
  refine ends_onDsp (f := fun c => c.bankFadeEnd k) rfl (okLane_of_lt hk) hd ?_
  rw [bankFadeEnd_due _ k hf hdue, startPendingBank_none _ k (by rw [hlane]; exact hp), ite_self, hlane]
  exact ⟨rfl, rfl, fun _ _ _ => rfl⟩

theorem becomes_bankFadeEnd_early (h : s.chip.time.now < (s.chip.lane k).fadeAt + 2 ^ s.chip.laneFade k * s.chip.lanePeriod k) :
    Becomes (.bankFadeEnd k) s s.chip :=
  becomes_idle (f := fun c => c.bankFadeEnd k) rfl (okLane_of_lt hk) hd (bankFadeEnd_early _ k h)

theorem ends_bankFadeEnd_pending (b : Nat) (hf : (s.chip.lane k).fading = true)
    (hdue : (s.chip.lane k).fadeAt + 2 ^ s.chip.laneFade k * s.chip.lanePeriod k ≤ s.chip.time.now) (hp : (s.chip.lane k).pend = some b)
    (hl : (s.chip.lane k).pendLink = none) (hb : b < 64) (hne : b ≠ s.chip.laneBankOf k (!(s.chip.lane k).actB)) :
    Ends (.bankFadeEnd k) s fun c => (c.lane k).fading = true ∧ (c.lane k).pend = none ∧ (c.lane k).actB = !(s.chip.lane k).actB ∧
      c.laneBankOf k (s.chip.lane k).actB = b ∧ SameRegs [laneA k 3] s.chip c := by
  have hlane : (fadeEnded s.chip k).lane k = _ := lane_modLane_same s.chip k _
  have hbank : b ≠ (fadeEnded s.chip k).laneBank k := by
    unfold Chip.laneBank
    rwa [hlane]
  refine ends_onDsp (f := fun c => c.bankFadeEnd k) rfl (okLane_of_lt hk) hd ?_
  rw [bankFadeEnd_due _ k hf hdue, if_neg (by rw [hlane]; simp [hl]), startPendingBank_some _ k b (by rw [hlane]; exact hp) hbank]
  rw [lane_fadeBegin, lane_modLane_same, hlane]
  refine ⟨rfl, rfl, rfl, ?_, fun a _ ha => reg_fadeBegin_other _ k b a (by simpa using ha)⟩
  have hload := laneBankOf_fadeBegin ((fadeEnded s.chip k).modLane k fun l => { l with pend := none }) k b hk hb
  rwa [lane_modLane_same, hlane, Bool.not_not] at hload

section
variable {j : Nat} {x : Job} (hj : (s.chip.lane k).job = some j) (hx : s.chip.job? j = some x) (h2 : x.state = 2)
  (hs : (s.chip.lane k).started = false) (hp : (s.chip.lane k).suspended = false) (hw : s.chip.winRuns (s.chip.laneWin k) = true)
  (hf : s.chip.followOf j = none) (hb : s.chip.bankOk (s.chip.laneBank k) = true)
include hj hx h2 hs hp hw hf hb

theorem ends_laneStart_of_startLane {P : Chip → Prop} (hP : P (s.chip.startLane k j (s.chip.lane k).option).refreshDiv) : Ends (.laneStart k) s P :=
  ends_onDsp (f := fun c => c.laneStart k) rfl (okLane_of_lt hk) hd (by rwa [laneStart_starts _ k hj hx h2 hs hp hw hf hb])

theorem ends_laneStart : Ends (.laneStart k) s fun c => (c.lane k).started = true ∧ (c.lane k).job = some j ∧ (c.lane k).filled = false ∧
    (c.lane k).phaseAt = s.chip.tick ∧ (c.lane k).actB = (s.chip.lane k).actB ∧ c.reg (laneA k 6) = (s.chip.reg (laneA k 6) + 1) % 65536 ∧
    ((s.chip.lane k).option ∈ [1, 2, 3, 4] → SameRegs [laneA k 6] s.chip c) := by
  obtain ⟨hshown, hgen⟩ := laneStart_shows s.chip j (s.chip.lane k).option hk
  simp only [laneShown, Prod.mk.injEq] at hshown
  obtain ⟨hstarted, hjob, hfilled, hphase, hact⟩ := hshown
  exact ends_laneStart_of_startLane s k hd hk hj hx h2 hs hp hw hf hb ⟨hstarted, hjob, hfilled, hphase, hact, hgen, laneStart_sameRegs s.chip k j _⟩

theorem ends_laneStart_dab (e : Nat) (ho : (s.chip.lane k).option = 0x10) (hnone : s.chip.ensOf k = none) (he : e < 8)
    (hfree : s.chip.reg (dabA e 0) = 0xFF) (hlow : ∀ d, d < e → s.chip.reg (dabA d 0) ≠ 0xFF) : Ends (.laneStart k) s fun c =>
      c.reg (dabA e 0) = k ∧ c.reg (dabA e 1) = 1 ∧ SameRegs [laneA k 6, dabA e 0, dabA e 1] s.chip c := by
  refine ends_laneStart_of_startLane s k hd hk hj hx h2 hs hp hw hf hb ?_
  rw [ho, startLane_dab s.chip j hnone he hfree hlow]
  obtain ⟨hlane, hstate, hrest⟩ := ensTaken_regs (laneRenewed s.chip k j 0x10) hk he
  have hregs := reg_eq_of_regs (refreshDiv_frame (ensTaken (laneRenewed s.chip k j 0x10) e k) k).1
  exact ⟨(hregs _).trans hlane, (hregs _).trans hstate, sameRegs_of_taken s.chip _ k j 0x10 _ hrest⟩

theorem ends_laneStart_drm (n : Nat) (ho : (s.chip.lane k).option ∈ [0x20, 0x21, 0x22]) (hnone : s.chip.drmOf k = none) (hn : n < 16)
    (hfree : s.chip.reg (drmA n 0) = 0xFF) (hlow : ∀ m, m < n → s.chip.reg (drmA m 0) ≠ 0xFF) : Ends (.laneStart k) s fun c =>
      c.reg (drmA n 0) = k ∧ c.reg (drmA n 1) = 1 ∧ SameRegs [laneA k 6, drmA n 0, drmA n 1, drmA n 3] s.chip c := by
  have hdrm : ∀ o ∈ [0x20, 0x21, 0x22], optDrm o = true := by decide
  refine ends_laneStart_of_startLane s k hd hk hj hx h2 hs hp hw hf hb ?_
  rw [startLane_drm s.chip j _ (hdrm _ ho) hnone hn hfree hlow]
  obtain ⟨hlane, hstate, hrest⟩ := drmTaken_regs (laneRenewed s.chip k j (s.chip.lane k).option) hk hn
  have hregs := reg_eq_of_regs (refreshDiv_frame (drmTaken (laneRenewed s.chip k j (s.chip.lane k).option) n k) k).1
  exact ⟨(hregs _).trans hlane, (hregs _).trans hstate, sameRegs_of_taken s.chip _ k j _ _ hrest⟩

end

end

/-- Settles O30, clause by clause. -/
theorem laneStartAndFades : Obligations.LaneStartAndFades := fun s k hd hk =>
  ⟨fun _ _ hj hx h2 hs hp hw hf hb =>
      ⟨ends_laneStart s k hd hk hj hx h2 hs hp hw hf hb, ends_laneStart_dab s k hd hk hj hx h2 hs hp hw hf hb,
        ends_laneStart_drm s k hd hk hj hx h2 hs hp hw hf hb⟩,
    becomes_laneStart_unheld s k hd hk, ends_bankFadeEnd s k hd hk, fun _ => becomes_bankFadeEnd_early s k hd hk, ends_bankFadeEnd_pending s k hd hk⟩

end Sys2Proof.Proofs
end

section
/-! Changes of the chip that leave a part of it, take no pending event back, and move parameters of page 0x01 and of a given set only. -/

namespace Sys2Proof.Proofs

open Sys2Proof Sys2Proof.Machine Sys2Proof.Laws

/-- The lanes, the broadcast alarms and studio time: what records, counters and events leave alone. -/
def still (c : Chip) : Tbl LaneSt × Tbl AlarmSt × List AlmPend × Nat × Nat := (c.lanes, c.alarms, c.almPend, c.alertAt, c.time.now)

@[simp] theorem still_put (c : Chip) (a v : Nat) : still (c.put a v) = still c := rfl

@[simp] theorem still_countBy (c : Chip) (a n : Nat) : still (c.countBy a n) = still c := by
  obtain ⟨_, _, h⟩ := countBy_only c a n
  rw [h]
  rfl

@[simp] theorem still_count (c : Chip) (a : Nat) : still (c.count a) = still c := still_countBy c a 1

@[simp] theorem still_raise (c : Chip) (n h d : Nat) : still (c.raise n h d) = still c := by
  obtain ⟨_, _, e⟩ := raise_only c n h d
  rw [e]
  rfl

@[simp] theorem still_raiseSat (c : Chip) (g k : Nat) : still (c.raiseSat g k) = still c := by
  obtain ⟨_, _, h⟩ := raiseSat_only c g k
  rw [h]
  rfl

/-- From `c` to `d` the part `p` stays, no pending event is taken back, and parameters move in page 0x01 and at the addresses `R` only. -/
structure Keeps {β : Type} (p : Chip → β) (R : Nat → Prop) (c d : Chip) : Prop where
  part : p d = p c
  pending : ∀ n < 64, c.isPending n = true → d.isPending n = true
  regs : ∀ a, a / 256 ≠ 1 → ¬ R a → d.reg a = c.reg a

namespace Keeps

variable {β : Type} {p : Chip → β} {R : Nat → Prop} {b c d : Chip}

theorem trans (h : Keeps p R b c) (h' : Keeps p R c d) : Keeps p R b d where
  part := h'.part.trans h.part
  pending n hn hp := h'.pending n hn (h.pending n hn hp)
  regs a h1 ha := (h'.regs a h1 ha).trans (h.regs a h1 ha)

/-- A change outside parameters. -/
theorem of_regs (hr : d.regs = c.regs) (hp : p d = p c) : Keeps p R c d where
  part := hp
  pending n _ hpend := by
    simp only [Chip.isPending, Chip.bit, reg_eq_of_regs hr] at hpend ⊢
    exact hpend
  regs a _ _ := reg_eq_of_regs hr a

theorem refl (c : Chip) : Keeps p R c c := of_regs rfl rfl

/-- The last change first, as a goal about a composed change shows it. -/
theorem after (h' : Keeps p R c d) (h : Keeps p R b c) : Keeps p R b d := h.trans h'

theorem ite {P : Prop} {_ : Decidable P} {x y : Chip} (hx : Keeps p R c x) (hy : Keeps p R c y) : Keeps p R c (if P then x else y) := by
  split <;> assumption

/-- A change that one branch makes. -/
theorem afterIf {P : Prop} {_ : Decidable P} (h' : Keeps p R c d) (h : Keeps p R b c) : Keeps p R b (if P then d else c) := .ite (h.trans h') h

theorem afterUnless {P : Prop} {_ : Decidable P} (h' : Keeps p R c d) (h : Keeps p R b c) : Keeps p R b (if P then c else d) := .ite h (h.trans h')

theorem of_each {α : Type} {f : Chip → α → Chip} {l : List α} (hf : ∀ c, ∀ x ∈ l, Keeps p R c (f c x)) (c : Chip) :
    Keeps p R c (c.each l f) := by
  induction l generalizing c with
  | nil => exact refl c
  | cons x l ih => exact (hf c x List.mem_cons_self).trans (ih (fun d y hy => hf d y (List.mem_cons_of_mem _ hy)) (f c x))

/-- A part of the part stays as well. -/
theorem coarser {γ : Type} {q : Chip → γ} (f : β → γ) (hf : ∀ x, q x = f (p x)) (h : Keeps p R c d) : Keeps q R c d where
  part := by rw [hf, hf, h.part]
  pending := h.pending
  regs := h.regs

theorem of_put (c : Chip) {a : Nat} (v : Nat) (ha : R a) (h1 : a / 256 ≠ 1) : Keeps still R c (c.put a v) where
  part := rfl
  pending n hn hp := (isPending_put c a v n hn h1).trans hp
  regs x _ hx := reg_put_other c a v x fun e => hx (e ▸ ha)

/-- A counter whose SAT bit lies at `sa`. -/
theorem of_count (c : Chip) {a sa i : Nat} (hs : satOf a = some (sa, i)) (ha : R a) (h1 : a / 256 ≠ 1) (hsa : R sa) (hs1 : sa / 256 ≠ 1) :
    Keeps still R c (c.count a) where
  part := still_count c a
  pending n hn hp := by
    rw [isPending_bit _ _ hn] at hp ⊢
    unfold Chip.bit at hp ⊢
    rwa [reg_count_other _ _ _ (by omega) (by omega) (by rw [hs]; rintro _ ⟨⟩; dsimp only; omega)]
  regs x hx hpx := reg_count_other _ _ _ (fun e => hpx (e ▸ ha)) (by omega) (by rw [hs]; rintro _ ⟨⟩ e; exact hpx (e ▸ hsa))

theorem of_raise (c : Chip) (n h d : Nat) (hn : n < 64) : Keeps still R c (c.raise n h d) where
  part := still_raise c n h d
  pending m hm hp := pending_raise_keeps c n m h d hn hm hp
  regs a h1 _ := reg_raise_other c n h d a hn h1

/-- A group saturation event moves page 0x01 only. -/
theorem of_raiseSat (c : Chip) (g k : Nat) : Keeps still R c (c.raiseSat g k) where
  part := still_raiseSat c g k
  pending n hn hp := by
    rw [isPending_bit _ _ hn] at hp ⊢
    unfold Chip.bit at hp ⊢
    rwa [reg_raiseSat _ _ _ _ (by omega)]
  regs a h1 _ := reg_raiseSat c g k a (by omega)

end Keeps

/-! Records (R20 to R27, R442 to R448): they move parameters of the stream port and the scheduler. -/

theorem out_keeps {R : Nat → Prop} (c : Chip) (x : OutSt) : Keeps still R c { c with out := x } := .of_regs rfl rfl

section Records

variable {R : Nat → Prop} (hR : ∀ a, a / 256 ∈ [6, 7] → R a)
include hR

theorem setFill_keeps (c : Chip) {p : Nat} (n : Nat) (hp : p < 16) : Keeps still R c (c.setFill p n) := by
  have hput : ∀ (d : Chip) (o v : Nat), o < 4 → Keeps still R d (d.put (cnvA p o) v) := fun d o v ho =>
    .of_put d v (hR _ (by unfold cnvA; simp; omega)) (by unfold cnvA; omega)
  have hcanvas : ∀ (d : Chip) (x : CanvasSt), Keeps still R d { d with canvas := x } := fun _ _ => .of_regs rfl rfl
  have hpeak : Keeps still R c (if (c.put (cnvA p 1) n).reg (cnvA p 3) < n then (c.put (cnvA p 1) n).put (cnvA p 3) n else c.put (cnvA p 1) n) :=
    (hput c 1 n (by decide)).trans (.ite (hput _ 3 n (by decide)) (.refl _))
  unfold Chip.setFill
  refine hpeak.trans (.ite (.ite (hcanvas _ _) (.refl _)) (.ite ((hcanvas _ _).trans (.of_raise _ 28 _ _ (by decide))) (.refl _)))

theorem queueChanged_keeps (c : Chip) : Keeps still R c c.queueChanged := by
  have hput : Keeps still R c (c.put 0x603 c.queued) := .of_put c _ (hR _ (by decide)) (by decide)
  unfold Chip.queueChanged
  dsimp only
  split
  · rename_i p hp
    have hpart : p < 16 := by
      have hmem := List.mem_of_mem_head? (by rw [Chip.strPart] at hp; exact Option.mem_def.mpr hp)
      exact List.mem_range.mp (List.mem_filter.mp hmem).1
    exact hput.trans (setFill_keeps hR _ _ hpart)
  · exact hput

theorem syncOwed_keeps (c : Chip) : Keeps still R c c.syncOwed :=
  .after (.of_put _ _ (hR 0x605 (by decide)) (by decide)) (out_keeps c _)

theorem enqueue_keeps (c : Chip) (r : Rec) (j : Option Nat) (cls : Nat) (d : Option Nat) : Keeps still R c (c.enqueue r j cls d) :=
  .after (queueChanged_keeps hR _) (.after (out_keeps _ _) (syncOwed_keeps hR c))

theorem lose_keeps (c : Chip) (k seq ty handle : Nat) (j : Option Nat) : Keeps still R c (c.lose k seq ty handle j) :=
  .after (.of_count _ (a := 0x60C) (sa := 0x60D) (i := 4) (by decide) (hR _ (by decide)) (by decide) (hR _ (by decide)) (by decide)) (out_keeps c _)

theorem dropElastic_keeps (c : Chip) (need : Nat) (sys : Bool) (n : Nat) : Keeps still R c (c.dropElastic need sys n) := by
  induction n generalizing c with
  | zero => exact .refl c
  | succ n ih =>
    unfold Chip.dropElastic
    split
    · exact .refl c
    · split
      · exact .refl c
      · exact .after (ih _) (.after (lose_keeps hR _ _ _ _ _ _) (out_keeps c _))

theorem shedRec_keeps (c : Chip) (k j order : Nat) : Keeps still R c (c.shedRec k j order) := by
  unfold Chip.shedRec
  generalize hd : (c.modStream k _).count 0x70E = d
  have hshed : Keeps still R c d := hd ▸
    .after (.of_count _ (sa := 0x711) (i := 2) (by decide) (hR _ (by decide)) (by decide) (hR _ (by decide)) (by decide)) (out_keeps c _)
  dsimp only
  split
  · exact hshed
  · have hjobs : ∀ (e : Chip) (x : Job), Keeps still R e (e.setJob j x) := fun _ _ => .of_regs rfl rfl
    exact .after (hjobs _ _) (.afterIf (.of_raiseSat _ _ _) (.afterUnless (.of_raise _ 26 _ _ (by decide)) hshed))

theorem produceN_keeps (c : Chip) (r : RecSpec) (fuel : Nat) : Keeps still R c (c.produceN r fuel) := by
  induction fuel generalizing c r with
  | zero => exact .refl c
  | succ n ih =>
    unfold Chip.produceN
    dsimp only
    generalize hb : c.modStream (streamKey r.ty r.handle) _ = b
    have hnum : Keeps still R c b := hb ▸ out_keeps c _
    refine .ite hnum ?_
    have hroom : ∀ (P : Prop) (_ : Decidable P) (need : Nat) (sys : Bool) (n : Nat), Keeps still R c (if P then b.dropElastic need sys n else b) :=
      fun P _ need sys n => .afterIf (dropElastic_keeps hR b need sys n) hnum
    refine .ite ?_ ?_
    · split
      · exact .after (ih _ _) (.after (enqueue_keeps hR _ _ _ _ _) (.after (out_keeps _ _) (hroom _ _ _ _ _)))
      · exact .after (enqueue_keeps hR _ _ _ _ _) (.after (out_keeps _ _) (hroom _ _ _ _ _))
    · split
      · exact .ite (.after (shedRec_keeps hR _ _ _ _) (hroom _ _ _ _ _)) (.after (lose_keeps hR _ _ _ _ _ _) (hroom _ _ _ _ _))
      · exact .after (lose_keeps hR _ _ _ _ _ _) (hroom _ _ _ _ _)

theorem produce_keeps (c : Chip) (r : RecSpec) : Keeps still R c (c.produce r) := produceN_keeps hR c r 3

end Records

end Sys2Proof.Proofs
end

section
/-! What receptions do to the Gallery, the AF pool and broadcast time (R241 to R255): of the parameters they move those of pages 0x01, 0x02, 0x06, 0x07 and 0x0C,
and not the count of RDS groups. -/

namespace Sys2Proof.Proofs

open Sys2Proof Sys2Proof.Machine Sys2Proof.Laws

/-- The parameters that the interpretation of a group may move. -/
abbrev rdsMoved (a : Nat) : Prop := a / 256 ∈ [1, 2, 6, 7, 0x0C] ∧ a ≠ 0xC12

theorem rdsMoved_records (a : Nat) (h : a / 256 ∈ [6, 7]) : rdsMoved a := by
  simp only [List.mem_cons, List.not_mem_nil, or_false] at h
  simp only [rdsMoved, List.mem_cons, List.not_mem_nil, or_false]
  omega

/-! Entries. -/

theorem setGalW_keeps {R : Nat → Prop} (c : Chip) (e w v : Nat) : Keeps still R c (c.setGalW e w v) := .of_regs rfl rfl
theorem setAfW_keeps {R : Nat → Prop} (c : Chip) (e w v : Nat) : Keeps still R c (c.setAfW e w v) := .of_regs rfl rfl
theorem gal_keeps {R : Nat → Prop} (c : Chip) (x : GalSt) : Keeps still R c { c with gal := x } := .of_regs rfl rfl
theorem galMark_keeps {R : Nat → Prop} (c : Chip) (e : Nat) : Keeps still R c (c.galMark e) := gal_keeps c _
theorem galBit_keeps {R : Nat → Prop} (c : Chip) (e i : Nat) (b : Bool) : Keeps still R c (c.galBit e i b) := setGalW_keeps c _ _ _

theorem galField_keeps {R : Nat → Prop} (c : Chip) (e w lo n v : Nat) : Keeps still R c (c.galField e w lo n v) :=
  .ite (.refl c) (.after (galMark_keeps _ e) (setGalW_keeps c _ _ _))

theorem galLink_keeps {R : Nat → Prop} (c : Chip) (e lsn : Nat) (linked hard intl : Bool) : Keeps still R c (c.galLink e lsn linked hard intl) :=
  galField_keeps c _ _ _ _ _

theorem psField_keeps {R : Nat → Prop} (c : Chip) (e seg v : Nat) : Keeps still R c (psField c e seg v) := galField_keeps c _ _ _ _ _

/-- The counters of the Gallery have their SAT bits in GAL_SAT. -/
theorem galCount_keeps (c : Chip) {a i : Nat} (hs : satOf a = some (0xC0D, i)) (ha : rdsMoved a) (h1 : a / 256 ≠ 1) : Keeps still rdsMoved c (c.count a) :=
  .of_count c hs ha h1 (by decide) (by decide)

theorem galCounts_keeps (c : Chip) : Keeps still rdsMoved c c.galCounts :=
  .afterIf (gal_keeps _ _) (.after (.of_put _ _ (a := 0xC01) (by decide) (by decide)) (.of_put c _ (a := 0xC00) (by decide) (by decide)))

theorem galNew_keeps (c : Chip) (e kind ident : Nat) : Keeps still rdsMoved c (c.galNew e kind ident) :=
  .after (galCounts_keeps _) (.after (galCount_keeps _ (a := 0xC08) (i := 0) (by decide) (by decide) (by decide)) (.after (galMark_keeps _ e)
    (.after (setGalW_keeps _ e 7 _) (.after (setGalW_keeps _ e 6 _) (.after (setGalW_keeps _ e 1 _) (setGalW_keeps c e 0 _))))))

theorem galFree_keeps {R : Nat → Prop} (c : Chip) (e : Nat) : Keeps still R c (c.galFree e) :=
  .after (.of_each (fun d w _ => setGalW_keeps d e w 0) _) (.after (setGalW_keeps _ e 6 _)
    (.of_each (fun d a _ => .after (setAfW_keeps _ a 1 0) (setAfW_keeps d a 0 0)) c))

theorem galFullEvent_keeps {R : Nat → Prop} (c : Chip) : Keeps still R c c.galFullEvent :=
  .ite (.refl c) (.after (.of_raise _ 44 _ _ (by decide)) (gal_keeps c _))

theorem galInsert_keeps (c : Chip) (kind ident : Nat) : Keeps still rdsMoved c (c.galInsert kind ident).2 := by
  unfold Chip.galInsert
  split
  · exact .refl c
  · dsimp only
    split
    · exact galNew_keeps c _ kind ident
    · split
      · dsimp only
        exact .after (galNew_keeps _ _ kind ident) (.after (galCount_keeps _ (a := 0xC09) (i := 1) (by decide) (by decide) (by decide))
          (.after (galFree_keeps _ _) (galFullEvent_keeps c)))
      · exact .after (galCount_keeps _ (a := 0xC0A) (i := 2) (by decide) (by decide) (by decide)) (galFullEvent_keeps c)

theorem galHold_keeps {R : Nat → Prop} (c : Chip) (k e : Nat) : Keeps still R c (c.galHold k e) := by
  refine .after (gal_keeps _ _) (.after (setGalW_keeps _ e 1 _) ?_)
  dsimp only
  exact .ite (.refl c) (gal_keeps c _)

theorem dropHolds_keeps {R : Nat → Prop} (c : Chip) (k : Nat) : Keeps still R c (c.dropHolds k) :=
  .after (.of_each (fun d e _ => .afterIf (galBit_keeps _ e 29 false) (.ite (galBit_keeps d e 24 false) (.refl d))) _) (gal_keeps c _)

/-! The AF pool. -/

theorem afDrop_keeps (c : Chip) : Keeps still rdsMoved c c.afDrop := galCount_keeps c (i := 3) (by decide) (by decide) (by decide)

theorem afAppend_keeps (c : Chip) (e a w : Nat) : Keeps still rdsMoved c (c.afAppend e a w) := by
  have hentry : Keeps still rdsMoved c ((c.setAfW a 0 w).setAfW a 1 (0x3FFF + 65536)) := .after (setAfW_keeps _ a 1 _) (setAfW_keeps c a 0 w)
  unfold Chip.afAppend
  dsimp only
  refine .after (galCounts_keeps _) (.after (galMark_keeps _ e) ?_)
  split
  · exact .after (setAfW_keeps _ _ 1 _) hentry
  · exact .after (setGalW_keeps _ e 6 _) hentry

theorem afAdd_keeps (c : Chip) (e kHz kind source : Nat) (regional heard : Bool) : Keeps still rdsMoved c (c.afAdd e kHz kind source regional heard) := by
  have hhome : ∀ {b d : Chip} {a : Nat}, Keeps still rdsMoved b d → Keeps still rdsMoved b (if heard = true then d.galField e 7 16 14 a else d) :=
    fun h => .afterIf (galField_keeps _ e 7 16 14 _) h
  unfold Chip.afAdd
  dsimp only
  split
  · have hseen := fun a v => setAfW_keeps (R := rdsMoved) c a 1 v
    exact hhome (.ite (.after (setAfW_keeps _ _ 0 _) (hseen _ _)) (.ite (.after (setAfW_keeps _ _ 0 _) (hseen _ _)) (hseen _ _)))
  · split
    · split
      · exact hhome (.after (galMark_keeps _ e) (.after (setAfW_keeps _ _ 1 _) (setAfW_keeps c _ 0 _)))
      · exact afDrop_keeps c
    · split
      · exact hhome (afAppend_keeps c e _ _)
      · split
        · exact afDrop_keeps c
        · split
          · exact afDrop_keeps c
          · exact hhome (.after (afAppend_keeps _ e _ _) (.afterIf (setGalW_keeps _ _ 7 _) (setGalW_keeps c _ 6 _)))

theorem afCommit_keeps (c : Chip) (e source : Nat) (l : List Nat) : Keeps still rdsMoved c (c.afCommit e source l) :=
  .of_each (fun d _ _ => afAdd_keeps d e _ _ _ _ _) c

/-! Broadcast time. -/

theorem time_keeps {R : Nat → Prop} (c : Chip) (x : TimeSt) (h : x.now = c.time.now) : Keeps still R c { c with time := x } :=
  .of_regs rfl (by simp only [still, h])

theorem syncTime_keeps (c : Chip) : Keeps still rdsMoved c c.syncTime := by
  have hslew : Keeps still rdsMoved c c.syncSlew := time_keeps c _ rfl
  refine .after (syncOwed_keeps rdsMoved_records _) (.after ?_ hslew)
  unfold Chip.syncErr
  split
  · exact time_keeps _ _ rfl
  · exact .after (.of_put _ _ (a := 0x234) (by decide) (by decide)) (time_keeps _ _ rfl)

theorem discRecord_keeps (c : Chip) (cause loop : Nat) (step phase : Int) (durUs : Nat) : Keeps still rdsMoved c (c.discRecord cause loop step phase durUs) :=
  .after (produce_keeps rdsMoved_records _ _) (.of_count c (a := 0x23A) (sa := 0x23B) (i := 0) (by decide) (by decide) (by decide) (by decide) (by decide))

theorem tbMessage_keeps (c : Chip) (utc : Int) (ref : Nat) (rank1 : Bool) : Keeps still rdsMoved c (c.tbMessage utc ref rank1) := by
  have hsync := syncTime_keeps c
  have hset : ∀ {d : Chip} {x : TimeSt}, x.now = d.time.now → Keeps still rdsMoved c d → Keeps still rdsMoved c { d with time := x } :=
    fun hx hd => .after (time_keeps _ _ hx) hd
  unfold Chip.tbMessage
  dsimp only
  generalize c.syncTime = d at hsync ⊢
  generalize hm : @ite Chip (d.reg 0x233 = 0 ∧ d.time.pendingMsg = 0) _ _ _ = m
  have hmapped : Keeps still rdsMoved c m := by
    subst hm
    refine .ite (hset rfl hsync) (.ite (hset rfl hsync) (.ite (.ite (hset rfl hsync) ?_) hsync))
    exact .after (.of_raise _ 15 _ _ (by decide)) (.after (discRecord_keeps _ 3 3 _ 0 0) (hset rfl hsync))
  exact .ite (.after (.of_put _ _ (a := 0x234) (by decide) (by decide)) (hset rfl hmapped)) (hset rfl hmapped)

theorem timeMessage_keeps (c : Chip) (k rank bitNo : Nat) (long : Bool) (mjd ms : Nat) (lsi : Bool) (lto ref : Nat) :
    Keeps still rdsMoved c (c.timeMessage k rank bitNo long mjd ms lsi lto ref) := by
  have htimes : ∀ (d : Chip) (x : Tbl TimSrc), Keeps still rdsMoved d { d with times := x } := fun _ _ => .of_regs rfl rfl
  have hput : ∀ (d : Chip) (a v : Nat), a ∈ [0xC22, 0xC26, 0xC27] → Keeps still rdsMoved d (d.put a v) := fun d a v ha => by
    simp only [List.mem_cons, List.not_mem_nil, or_false] at ha
    rcases ha with rfl | rfl | rfl <;> exact .of_put d v (by decide) (by decide)
  unfold Chip.timeMessage
  dsimp only
  refine .ite (.refl c) (.ite (htimes c _) (.ite (.after (tbMessage_keeps _ _ _ _) (.afterIf (time_keeps _ _ rfl) ?_)) ?_))
  all_goals
    exact .after (.of_raise _ 42 _ _ (by decide)) (.after (produce_keeps rdsMoved_records _ _) (.after (hput _ 0xC27 _ (by decide))
      (.after (hput _ 0xC26 _ (by decide)) (.after (hput _ 0xC22 _ (by decide)) (.of_regs rfl rfl)))))

end Sys2Proof.Proofs
end

section
/-! What the interpretation of an RDS group leaves alone (R231 to R235): the lane's last group, its PI once it is confirmed, and parameters outside those that
receptions move. -/

namespace Sys2Proof.Proofs

open Sys2Proof Sys2Proof.Machine Sys2Proof.Laws

/-- The last group of lane `k`, with studio time. -/
def rdsLast (k : Nat) (c : Chip) : Option (List Byte × Nat) × Nat := ((c.rds k).last, c.time.now)

/-- The last group and the PI of lane `k`, with studio time. -/
def rdsPart (k : Nat) (c : Chip) : (Option (List Byte × Nat) × Nat) × Option Nat := (rdsLast k c, (c.rds k).pi)

/-- A change that leaves the last group and the PI of lane `k`, and the parameters that groups do not move. -/
abbrev RdsKeeps (k : Nat) : Chip → Chip → Prop := Keeps (rdsPart k) rdsMoved

theorem Keeps.rds {R : Nat → Prop} {c d : Chip} (h : Keeps still R c d) (k : Nat) : Keeps (rdsPart k) R c d :=
  h.coarser (fun x => (((Tbl.get LaneSt.reset x.1 k).rds.last, x.2.2.2.2), (Tbl.get LaneSt.reset x.1 k).rds.pi)) fun _ => rfl

theorem Keeps.last {R : Nat → Prop} {k : Nat} {c d : Chip} (h : Keeps (rdsPart k) R c d) : Keeps (rdsLast k) R c d := h.coarser (·.1) fun _ => rfl

theorem rds_modRds_same (c : Chip) (k : Nat) (f : RdsSt → RdsSt) : (c.modRds k f).rds k = f (c.rds k) := by
  unfold Chip.rds Chip.modRds
  rw [lane_modLane_same]

theorem modRds_keeps (c : Chip) (k : Nat) (f : RdsSt → RdsSt) (hl : (f (c.rds k)).last = (c.rds k).last) (hp : (f (c.rds k)).pi = (c.rds k).pi) :
    RdsKeeps k c (c.modRds k f) :=
  .of_regs rfl (by simp only [rdsPart, rdsLast, rds_modRds_same, hl, hp]; rfl)

/-! Alarms that a group starts or ends. -/

section Alarms
variable (c : Chip) (k : Nat)

theorem modAlarm_keeps (i : Nat) (f : AlarmSt → AlarmSt) : RdsKeeps k c (c.modAlarm i f) := by
  unfold Chip.modAlarm
  split
  · exact .of_regs rfl rfl
  · exact .refl c

theorem almQueue_keeps (start : Bool) (kind source identity ts subch : Nat) : RdsKeeps k c (c.almQueue start kind source identity ts subch) := .of_regs rfl rfl

theorem almHeard_keeps (kind source identity ref : Nat) : RdsKeeps k c (c.almHeard kind source identity ref) := by
  unfold Chip.almHeard
  split
  · exact modAlarm_keeps c k _ _
  · exact .of_regs rfl rfl

theorem almStart_keeps (kind source identity ts subch : Nat) : RdsKeeps k c (c.almStart kind source identity ts subch) := by
  unfold Chip.almStart
  refine .ite (.refl c) ?_
  split
  · exact modAlarm_keeps c k _ _
  · exact .ite (.refl c) (almQueue_keeps c k _ _ _ _ _ _)

theorem almEnd_keeps (kind source identity ts : Nat) : RdsKeeps k c (c.almEnd kind source identity ts) :=
  .ite (almQueue_keeps c k _ _ _ _ _ _) (.refl c)

end Alarms

/-! Fields. -/

section Fields
variable (c : Chip) (k : Nat)

theorem rdsField_keeps (key v : Nat) : RdsKeeps k c (c.rdsField k key v).2 := by
  unfold Chip.rdsField
  exact modRds_keeps c k (fun r => { r with seen := _, conf := _ }) rfl rfl

theorem ownField_keeps (w lo n v : Nat) : RdsKeeps k c (c.ownField k w lo n v) := by
  unfold Chip.ownField
  split
  · exact .ite ((galField_keeps c _ _ _ _ _).rds k) (.refl c)
  · exact .refl c

theorem taMs_keeps (g : Group) : RdsKeeps k c (c.taMs k g) := .after (ownField_keeps _ k 1 7 1 _) (ownField_keeps c k 1 6 1 _)

theorem piConflict_keeps (e : Nat) : RdsKeeps k c (c.piConflict k e) := by
  refine .ite (Keeps.rds ?_ k) (.refl c)
  exact .after (.of_raise _ 46 _ _ (by decide)) (.after (galCount_keeps _ (i := 4) (by decide) (by decide) (by decide))
    (.after (galMark_keeps _ e) (galBit_keeps c e 29 true)))

theorem psSegment_keeps (seg v : Nat) : RdsKeeps k c (c.psSegment k seg v) := by
  have hfield := rdsField_keeps c k (keyPs seg) v
  unfold Chip.psSegment
  generalize c.rdsField k (keyPs seg) v = r at hfield ⊢
  obtain ⟨ok, d⟩ := r
  dsimp only at hfield ⊢
  split
  · refine .after (.ite (.refl _) ?_) (.after (piConflict_keeps _ k _) hfield)
    exact Keeps.afterIf ((galField_keeps _ _ 1 26 1 1).rds k) ((psField_keeps _ _ seg v).rds k)
  · exact hfield

theorem ownAf_keeps (hi lo : Nat) : RdsKeeps k c (c.ownAf k hi lo) := by
  have hcodes : ∀ cur prev, RdsKeeps k c (c.modRds k fun r => { r with afCur := cur, afPrev := prev }) := fun _ _ => modRds_keeps c k _ rfl rfl
  unfold Chip.ownAf
  dsimp only
  split
  · exact .after ((afCommit_keeps _ _ 1 _).rds k) (hcodes _ _)
  · exact hcodes _ _

theorem ptyAlarm_keeps (ref pi pty : Nat) : RdsKeeps k c (c.ptyAlarm k ref pi pty) := by
  unfold Chip.ptyAlarm
  refine .ite ?_ ?_
  · exact .afterIf (almStart_keeps _ k 1 _ _ _ _) (modRds_keeps c k _ rfl rfl)
  · exact .afterIf (almEnd_keeps _ k 1 _ _ _) (modRds_keeps c k _ rfl rfl)

theorem group9A_keeps (ref pi : Nat) : RdsKeeps k c (c.group9A k ref pi) :=
  .after (almHeard_keeps _ k 2 _ _ ref) (.afterIf (almStart_keeps _ k 2 _ _ _ _) (modRds_keeps c k _ rfl rfl))

theorem group4A_keeps (ref : Nat) (g : Group) : RdsKeeps k c (c.group4A k ref g) := .ite ((timeMessage_keeps c k 4 0 false _ _ false _ ref).rds k) (.refl c)

end Fields

/-! Other networks. -/

section Networks
variable (c : Chip) (k : Nat)

theorem eonEntry_keeps (pi : Nat) : RdsKeeps k c (c.eonEntry k pi).2 := by
  have hfield := rdsField_keeps c k keyOn pi
  unfold Chip.eonEntry
  generalize c.rdsField k keyOn pi = r at hfield ⊢
  obtain ⟨ok, d⟩ := r
  dsimp only at hfield ⊢
  split
  · exact hfield
  · split
    · exact .after ((galInsert_keeps d 1 pi).rds k) hfield
    · exact hfield

theorem eonAlarm_keeps (ref pi pty : Nat) : RdsKeeps k c (c.eonAlarm k ref pi pty) := by
  unfold Chip.eonAlarm
  refine .ite ?_ ?_
  · exact .afterIf (almStart_keeps _ k 3 _ _ _ _) (modRds_keeps c k _ rfl rfl)
  · exact .afterIf (almEnd_keeps _ k 3 _ _ _) (modRds_keeps c k _ rfl rfl)

theorem group14B_keeps (g : Group) : RdsKeeps k c (c.group14B k g) := by
  have hentry := eonEntry_keeps c k g.dv
  unfold Chip.group14B
  generalize c.eonEntry k g.dv = r at hentry ⊢
  obtain ⟨_ | e, d⟩ := r
  · exact hentry
  · exact hentry.trans ((galField_keeps d e 1 6 1 _).rds k)

theorem group14A_keeps (ref : Nat) (g : Group) : RdsKeeps k c (c.group14A k ref g) := by
  unfold Chip.group14A
  extract_lets pi v
  have hentry := eonEntry_keeps c k pi
  generalize c.eonEntry k pi = r at hentry ⊢
  obtain ⟨oe, d⟩ := r
  dsimp only at hentry ⊢
  have hbase : RdsKeeps k c (if v = 13 then d.eonAlarm k ref pi (bits g.cv 11 5) else d) := .afterIf (eonAlarm_keeps d k ref _ _) hentry
  generalize @ite Chip (v = 13) _ _ _ = b at hbase ⊢
  cases oe with
  | none => exact hbase
  | some e =>
    have hfield := fun key v => rdsField_keeps b k key v
    refine hbase.trans (.ite ?_ (.ite ?_ (.ite ((galLink_keeps b e _ _ _ _).rds k) (.ite ?_ (.refl b)))))
    · exact .afterIf ((psField_keeps _ e _ _).rds k) (hfield _ _)
    · generalize afStep _ _ _ _ = step
      obtain ⟨cur, prev, done⟩ := step
      have hcodes : RdsKeeps k b (b.modRds k fun r => { r with eonAf := Tbl.put r.eonAf pi (cur, prev) }) := modRds_keeps b k _ rfl rfl
      cases done with
      | none => exact hcodes
      | some l => exact .after ((afCommit_keeps _ e 2 l).rds k) hcodes
    · have hta := (galField_keeps (R := rdsMoved) b e 1 6 1 (bits g.cv 0 1)).rds k
      exact .afterIf ((galField_keeps _ e 1 8 5 _).rds k) (.after (rdsField_keeps _ k _ _) hta)

end Networks

end Sys2Proof.Proofs
end

section
/-! The interpretation of an RDS group (R231 to R235), and the identity evidence that it is (R276). -/

namespace Sys2Proof.Proofs

open Sys2Proof Sys2Proof.Machine Sys2Proof.Laws

section Group
variable (c : Chip) (k : Nat)

theorem modRds_keeps_last (f : RdsSt → RdsSt) (hl : (f (c.rds k)).last = (c.rds k).last) : Keeps (rdsLast k) rdsMoved c (c.modRds k f) :=
  .of_regs rfl (by simp only [rdsLast, rds_modRds_same, hl]; rfl)

/-- A PI that is not the lane's becomes it, and the entries that the lane held are let go. -/
def takePi (pi : Nat) : Chip :=
  if ((c.rds k).pi != some pi) = true then (c.dropHolds k).modRds k fun r => { r with pi := some pi, piAt := c.time.now } else c

theorem takePi_pi (pi : Nat) : ((takePi c k pi).rds k).pi = some pi := by
  unfold takePi
  split
  · rw [rds_modRds_same]
  · rename_i h
    simpa using h

theorem takePi_keeps (pi : Nat) : Keeps (rdsLast k) rdsMoved c (takePi c k pi) := by
  exact .ite (.after (modRds_keeps_last _ k _ rfl) ((dropHolds_keeps c k).rds k).last) (.refl c)

theorem piConfirmed_after (pi : Nat) : RdsKeeps k (takePi c k pi) (c.piConfirmed k pi) := by
  have hins := (galInsert_keeps (takePi c k pi) 1 pi).rds k
  have hdef : c.piConfirmed k pi = match (takePi c k pi).galInsert 1 pi with
      | (none, d) => d
      | (some e, d) => if (d.holdsOf k).contains e then d.galHold k e else (d.galHold k e).afAdd e ((d.galHold k e).laneKHz k) 0 0 false true := rfl
  rw [hdef]
  generalize (takePi c k pi).galInsert 1 pi = r at hins ⊢
  obtain ⟨_ | e, d⟩ := r
  · exact hins
  · have hheld := hins.trans ((galHold_keeps d k e).rds k)
    exact .ite hheld (hheld.trans ((afAdd_keeps _ e _ _ _ _ _).rds k))

/-- What the interpretation of a group's PI leaves. -/
def readPi (g : Group) : Chip := match c.groupPi g with
  | none => c
  | some pi => if (c.rdsField k keyPi pi).1 then (c.rdsField k keyPi pi).2.piConfirmed k pi else (c.rdsField k keyPi pi).2

theorem readPi_keeps (g : Group) : Keeps (rdsLast k) rdsMoved c (readPi c k g) := by
  unfold readPi
  split
  · exact .refl c
  · rename_i pi _
    exact .afterIf ((takePi_keeps _ k pi).trans (piConfirmed_after _ k pi).last) (rdsField_keeps c k keyPi pi).last

/-- A PI received in a clean block A, as it was received before, is the lane's (R232). -/
theorem readPi_confirmed (g : Group) (hA : g.a.state = 0) (hseen : Tbl.find (c.rds k).seen keyPi = some g.a.bits.toNat) :
    ((readPi c k g).rds k).pi = some g.a.bits.toNat := by
  have hpi : c.groupPi g = some g.a.bits.toNat := by
    unfold Chip.groupPi Chip.blockFields
    simp [hA]
  have hagain : (c.rdsField k keyPi g.a.bits.toNat).1 = true := by
    unfold Chip.rdsField
    simp [hseen]
  unfold readPi
  rw [hpi]
  dsimp only
  rw [if_pos hagain]
  exact (congrArg Prod.snd (piConfirmed_after _ k _).part).trans (takePi_pi _ k _)


/-- Apart from the PI, the interpretation of a group leaves the lane's last group and PI. -/
theorem interpret_after (ref : Nat) (g : Group) : RdsKeeps k (readPi c k g) (c.interpret k ref g) := by
  unfold Chip.interpret
  extract_lets d pi cf df d1 d2
  have hd : d = readPi c k g := rfl
  rw [← hd]
  have hown : ∀ {b : Chip} w lo n v, RdsKeeps k d b → RdsKeeps k d (b.ownField k w lo n v) := fun w lo n v h => .after (ownField_keeps _ k w lo n v) h
  have hta : RdsKeeps k d d2 := .ite (hown 1 27 1 1 (hown 1 5 1 _ (.refl d))) (hown 1 5 1 _ (.refl d))
  clear_value d d1 d2 pi cf df
  refine .ite (.refl d) ?_
  have hpty := hta.trans (rdsField_keeps d2 k keyPty g.pty)
  generalize d2.rdsField k keyPty g.pty = r at hpty ⊢
  obtain ⟨ok, d3⟩ := r
  dsimp only at hpty ⊢
  have hbase : RdsKeeps k d ((if ok = true then d3.ownField k 1 8 5 g.pty else d3).ptyAlarm k ref pi g.pty) :=
    .after (ptyAlarm_keeps _ k ref pi _) (.ite (hown 1 8 5 _ hpty) hpty)
  generalize (if ok = true then d3.ownField k 1 8 5 g.pty else d3).ptyAlarm k ref pi g.pty = b at hbase ⊢
  have htams := hbase.trans (taMs_keeps b k g)
  refine .ite ?_ (.ite ?_ (.ite ?_ (.ite ?_ (.ite ?_ (.ite htams hbase)))))
  · exact .afterIf (ownAf_keeps _ k _ _) (.afterIf (psSegment_keeps _ k _ _) htams)
  · have hecc := hbase.trans (rdsField_keeps b k keyEcc (bits g.cv 0 8))
    generalize b.rdsField k keyEcc (bits g.cv 0 8) = r at hecc ⊢
    split
    · exact hown 1 16 8 _ (hown 1 4 1 1 (.after (piConflict_keeps _ k _) hecc))
    · exact hecc
  · exact .after (group4A_keeps b k ref g) hbase
  · exact .after (group9A_keeps b k ref pi) hbase
  · exact .ite (.after (group14B_keeps b k g) hbase) (.afterIf (group14A_keeps b k ref g) hbase)

/-! A group that is passed on. -/

theorem groupRecord_keeps (ref : Nat) (g : Group) : Keeps still rdsMoved c (c.groupRecord k ref g) := by
  unfold Chip.groupRecord
  split
  · exact .refl c
  · exact .ite (produce_keeps rdsMoved_records c _) (.refl c)

/-- What is counted and kept of a group that is passed on (R231). -/
def keepGroup (g : Group) : Chip := (c.count 0xC12).modRds k fun r => { r with last := some (g.body, (c.count 0xC12).tick) }

/-- The group is counted, it is the lane's last, and its interpretation follows. -/
theorem rdsPass_keeps (ref : Nat) (g : Group) : Keeps (rdsLast k) rdsMoved (keepGroup c k g) (c.rdsPass k ref g) ∧
    (g.a.state = 0 → Tbl.find (c.rds k).seen keyPi = some g.a.bits.toNat → ((c.rdsPass k ref g).rds k).pi = some g.a.bits.toNat) := by
  have hrec := groupRecord_keeps (keepGroup c k g) k ref g
  have hafter := interpret_after ((keepGroup c k g).groupRecord k ref g) k ref g
  have hundecided : ∀ (d : Chip) (f : LaneSt → Nat), RdsKeeps k d (d.modLane k fun l => { l with undecided := f l }) := fun d f => by
    have hrds : (d.modLane k fun l => { l with undecided := f l }).rds k = d.rds k := by
      unfold Chip.rds
      rw [lane_modLane_same]
    exact .of_regs rfl (by simp only [rdsPart, rdsLast, hrds]; rfl)
  have hall : RdsKeeps k (readPi ((keepGroup c k g).groupRecord k ref g) k g) (c.rdsPass k ref g) := hafter.trans (hundecided _ _)
  have hlanes : ((keepGroup c k g).groupRecord k ref g).lanes = (keepGroup c k g).lanes := congrArg (·.1) hrec.part
  have hseen : (((keepGroup c k g).groupRecord k ref g).rds k).seen = (c.rds k).seen := calc
    _ = ((keepGroup c k g).rds k).seen := by simp only [Chip.rds, Chip.lane, hlanes]
    _ = ((c.count 0xC12).rds k).seen := by rw [keepGroup, rds_modRds_same]
    _ = (c.rds k).seen := by simp only [Chip.rds, Chip.lane, count_lanes]
  exact ⟨((hrec.rds k).last.trans (readPi_keeps _ k g)).trans hall.last, fun hA hfind =>
    (congrArg Prod.snd hall.part).trans (readPi_confirmed _ k g hA (by rw [hseen, hfind]))⟩

theorem modMember_keeps {R : Nat → Prop} (c : Chip) (i key : Nat) (f : MemberSt → MemberSt) : Keeps still R c (c.modMember i key f) := by
  unfold Chip.modMember
  split
  · exact .of_regs rfl rfl
  · exact .refl c

theorem unverify_keeps (c : Chip) (i key : Nat) : Keeps still rdsMoved c (c.unverify i key) := by
  unfold Chip.unverify
  split
  · exact .refl c
  · exact .afterIf (produce_keeps rdsMoved_records _ _) (modMember_keeps c i key _)

/-- Identity evidence for followers moves records and the members only (R276). -/
theorem piEvidence_keeps : Keeps still rdsMoved c (c.piEvidence k) := by
  unfold Chip.piEvidence
  split
  · exact .refl c
  · exact .of_each (fun d i _ => .of_each (fun e x _ => .ite (.ite (.refl e) (modMember_keeps e i x.1 _)) (unverify_keeps e i x.1)) d) c

end Group
end Sys2Proof.Proofs
end

section
/-! RDS blocks and groups (O36). -/

namespace Sys2Proof.Proofs

open Sys2Proof Sys2Proof.Machine Sys2Proof.Laws

section Group
variable (c : Chip) (k : Nat)

theorem groupReceived_nil (h : (c.rds k).ready = []) : c.groupReceived k = c := by
  unfold Chip.groupReceived
  rw [h]

/-- A group whose block B is bad is dropped (R231). -/
theorem groupReceived_bad {t : Nat} {g : Group} {rest : List (Nat × Group)} (hr : (c.rds k).ready = (t, g) :: rest) (hrun : c.rdsRuns k = true)
    (hb : g.b.state = 2) : c.groupReceived k = c.modRds k fun r => { r with ready := rest } := by
  unfold Chip.groupReceived Chip.rdsGroup
  rw [hr]
  simp [hrun, hb]

/-- Another group is passed on, and is evidence where it carries the lane's PI. -/
theorem groupReceived_good {t : Nat} {g : Group} {rest : List (Nat × Group)} (hr : (c.rds k).ready = (t, g) :: rest) (hrun : c.rdsRuns k = true)
    (hb : g.b.state ≠ 2) :
    Keeps still rdsMoved ((c.modRds k fun r => { r with ready := rest }).rdsPass k ((c.modRds k fun r => { r with ready := rest }).laneStamp k 128 t) g) (c.groupReceived k) := by
  unfold Chip.groupReceived Chip.rdsGroup
  rw [hr]
  simp only [hrun, hb]
  exact .ite (piEvidence_keeps _ k) (.refl _)

theorem keepGroup_count (g : Group) (h : c.reg 0xC12 < 0xFFFFFFFF) : (keepGroup c k g).reg 0xC12 = c.reg 0xC12 + 1 :=
  reg_count_same c 0xC12 32 (by decide) (by decide) (by omega)

theorem keepGroup_other (g : Group) (a : Nat) (ha : a / 256 ∉ [1, 2, 6, 7, 0x0C]) : (keepGroup c k g).reg a = c.reg a := by
  have hs : satOf 0xC12 = some (0xC14, 0) := by decide
  refine reg_count_other c 0xC12 a (by rintro rfl; exact ha (by decide)) (by rintro rfl; exact ha (by decide)) ?_
  rw [hs]
  rintro _ ⟨⟩ rfl
  exact ha (by decide)

theorem keepGroup_last (g : Group) : rdsLast k (keepGroup c k g) = (some (g.body, c.tick), c.time.now) := by
  unfold rdsLast keepGroup
  rw [rds_modRds_same]
  change (some (g.body, (c.count 0xC12).tick), (c.count 0xC12).time.now) = _
  rw [Chip.tick, count_time]
  rfl

/-- What RDS_GROUP does to a group whose block B is good (R231, R232). -/
theorem groupReceived_passes {t : Nat} {g : Group} {rest : List (Nat × Group)} (hr : (c.rds k).ready = (t, g) :: rest) (hrun : c.rdsRuns k = true)
    (hb : g.b.state ≠ 2) :
    Keeps (rdsLast k) rdsMoved (keepGroup (c.modRds k fun r => { r with ready := rest }) k g) (c.groupReceived k) ∧
      (g.a.state = 0 → Tbl.find (c.rds k).seen keyPi = some g.a.bits.toNat → ((c.groupReceived k).rds k).pi = some g.a.bits.toNat) := by
  have hgood := (groupReceived_good c k hr hrun hb).rds k
  obtain ⟨hkeep, hpi⟩ := rdsPass_keeps (c.modRds k fun r => { r with ready := rest }) k ((c.modRds k fun r => { r with ready := rest }).laneStamp k 128 t) g
  refine ⟨hkeep.trans hgood.last, fun hA hseen => (congrArg Prod.snd hgood.part).trans (hpi hA ?_)⟩
  rw [rds_modRds_same]
  exact hseen

end Group

/-! Blocks. -/

theorem put_only (r : RdsSt) (p : Nat) (b : Nat × RdsBlock) : ∃ group ready, r.put p b = { r with group := group, ready := ready } := by
  unfold RdsSt.put
  dsimp only
  split
  · exact ⟨_, _, rfl⟩
  · exact ⟨_, _, rfl⟩

@[simp] theorem put_sync (r : RdsSt) (p : Nat) (b : Nat × RdsBlock) : (r.put p b).sync = r.sync := by
  obtain ⟨_, _, h⟩ := put_only r p b
  rw [h]

section Blocks
variable (c : Chip) (k : Nat)

/-- The chip once the decoder has taken `n` bits with the blocks `l`, `m` blocks passed over (R230). -/
def tookBits (n m : Nat) (l : List (Nat × RdsBlock)) : Chip :=
  ((c.modLane k fun x => { x with dsp := { x.dsp with rdsBits := { x.dsp.rdsBits with bits := x.dsp.rdsBits.bits.drop n } } }).each l
    fun c b => c.swtLane k (.rds (c.laneStamp k 128 (b.1 + 717447)) b.2.state)).modRds k fun r =>
      { r with lastBit := (((c.lane k).dsp.rdsBits.bits.take n).getLast?.map (·.1)).getD (c.rds k).lastBit,
               expect := if m = 0 then r.expect else (r.expect + m) % 4, group := if m = 0 then r.group else [] }

/-- What the blocks do: the block at its place in sync, two blocks that match before sync (R230, R231). -/
def judgeBlocks (c : Chip) (k : Nat) : List (Nat × RdsBlock) → Chip
  | [b] =>
    let recent := (b.2.ok :: (c.rds k).recent).take 50
    let lost := decide (c.reg 0xC11 ≤ badBlocks recent)
    let c := if b.2.ok then c else c.count 0xC13
    c.modRds k fun r => if lost then { r.put r.expect b with recent := [], sync := false, expect := 4, group := [] }
      else { r.put r.expect b with recent := recent, expect := (r.expect + 1) % 4 }
  | [a, b] =>
    let p := offsetPlace (a.2.offset.getD 0)
    c.modRds k fun r => { ({ r with group := [] }.put p a).put ((p + 1) % 4) b with sync := true, recent := [], expect := (p + 2) % 4 }
  | _ => c

theorem rdsBlock_eq (hrun : c.rdsRuns k = true) {n m : Nat} {l : List (Nat × RdsBlock)} (h : c.rdsNext k = (n, m, l)) :
    c.rdsBlock k = judgeBlocks (tookBits c k n m l) k l := by
  unfold Chip.rdsBlock judgeBlocks
  rw [h]
  simp only [hrun]
  rfl

/-- Measurement jobs take a block's state and touch nothing else. -/
theorem swtLane_frame (p : SwtPoint) : ((c.swtLane k p).lanes, (c.swtLane k p).regs, (c.swtLane k p).glimpses) = (c.lanes, c.regs, c.glimpses) := by
  unfold Chip.swtLane Chip.swtTake
  split
  · rfl
  · rfl

theorem each_swtLane_frame (l : List (Nat × RdsBlock)) (f : Chip → Nat × RdsBlock → SwtPoint) :
    let d := c.each l fun c b => c.swtLane k (f c b)
    (d.lanes, d.regs, d.glimpses) = (c.lanes, c.regs, c.glimpses) :=
  each_frame (fun d => (d.lanes, d.regs, d.glimpses)) _ (fun d _ => swtLane_frame d k _) l c

theorem each_swtLane_lane (l : List (Nat × RdsBlock)) (f : Chip → Nat × RdsBlock → SwtPoint) : (c.each l fun c b => c.swtLane k (f c b)).lane k = c.lane k :=
  congrArg (Tbl.get LaneSt.reset · k) (congrArg (·.1) (each_swtLane_frame c k l f))

@[simp] theorem dsp_modRds (f : RdsSt → RdsSt) : ((c.modRds k f).lane k).dsp = (c.lane k).dsp := by
  unfold Chip.modRds
  rw [lane_modLane_same]

section
variable (n m : Nat) (l : List (Nat × RdsBlock))

@[simp] theorem tookBits_regs : (tookBits c k n m l).regs = c.regs :=
  congrArg (·.2.1) (each_swtLane_frame _ k l _)

@[simp] theorem tookBits_glimpses : (tookBits c k n m l).glimpses = c.glimpses :=
  congrArg (·.2.2) (each_swtLane_frame _ k l _)

theorem tookBits_bits : ((tookBits c k n m l).lane k).dsp.rdsBits.bits = (c.lane k).dsp.rdsBits.bits.drop n := by
  unfold tookBits
  rw [dsp_modRds, each_swtLane_lane _ _ _ _, lane_modLane_same]

theorem tookBits_rds : ∃ lastBit group, (tookBits c k n m l).rds k =
    { c.rds k with lastBit := lastBit, expect := if m = 0 then (c.rds k).expect else ((c.rds k).expect + m) % 4, group := group } := by
  unfold tookBits
  rw [rds_modRds_same, Chip.rds, each_swtLane_lane _ k l _, lane_modLane_same]
  exact ⟨_, _, rfl⟩

end

theorem each_glimpseBlock (l : List (Nat × RdsBlock)) (hg : c.glimpses = []) : (c.each l fun c b => c.glimpseBlock k b.2.ok) = c := by
  induction l with
  | nil => rfl
  | cons b l ih =>
    have hb : c.glimpseBlock k b.2.ok = c := by
      unfold Chip.glimpseBlock
      rw [hg]
      rfl
    change (c.glimpseBlock k b.2.ok).each l _ = c
    rw [hb]
    exact ih

theorem judgeBlocks_glimpses (l : List (Nat × RdsBlock)) : (judgeBlocks c k l).glimpses = c.glimpses := by
  unfold judgeBlocks
  split
  · dsimp only [Chip.modRds]
    rw [modLane_glimpses]
    split
    · rfl
    · exact count_glimpses c _
  · rfl
  · rfl

/-- No glimpse runs: a reception is the decoding of its blocks. -/
theorem rdsReceived_eq (hrun : c.rdsRuns k = true) (hg : c.glimpses = []) {n m : Nat} {l : List (Nat × RdsBlock)} (h : c.rdsNext k = (n, m, l)) :
    c.rdsReceived k = judgeBlocks (tookBits c k n m l) k l := by
  unfold Chip.rdsReceived
  rw [rdsBlock_eq c k hrun h]
  exact each_glimpseBlock _ k _ (by rw [judgeBlocks_glimpses, tookBits_glimpses, hg])

/-! The blocks that are taken next (R230). -/

theorem rdsNext_found (hs : (c.rds k).sync = false) {i : Nat} (h : rdsSearch (c.lane k).dsp.rdsBits.bits 0 = some i) :
    ∃ a b, c.rdsNext k = (i + 52, 0, [a, b]) := by
  unfold Chip.rdsNext
  simp only [hs, h]
  exact ⟨_, _, rfl⟩

theorem rdsNext_none (hs : (c.rds k).sync = false) (h : rdsSearch (c.lane k).dsp.rdsBits.bits 0 = none) :
    c.rdsNext k = ((c.lane k).dsp.rdsBits.bits.length - 51, 0, []) := by
  unfold Chip.rdsNext
  simp only [hs, h]
  rfl

theorem rdsNext_sync (hs : (c.rds k).sync = true) (hl : 26 ≤ (c.lane k).dsp.rdsBits.bits.length)
    (hb : rdsBreak (c.rds k).lastBit 0 (((c.lane k).dsp.rdsBits.bits.take 26).map (·.1)) = none) :
    c.rdsNext k = (26, 0, [(rdsTime (c.lane k).dsp.rdsBits.bits,
      rdsDecode (c.field 0xC10 0 3) (rdsWord (c.lane k).dsp.rdsBits.bits) ((c.rds k).offsets ((c.rds k).expect % 4)))]) := by
  unfold Chip.rdsNext RdsSt.skip
  simp only [hs, hb, if_true, List.drop_zero, Nat.not_lt.mpr hl]
  rfl

/-! What they do. -/

theorem judgeBlocks_two (a b : Nat × RdsBlock) : ((judgeBlocks c k [a, b]).rds k).sync = true ∧ ((judgeBlocks c k [a, b]).rds k).recent = [] ∧
    ((judgeBlocks c k [a, b]).lane k).dsp = (c.lane k).dsp ∧ (judgeBlocks c k [a, b]).regs = c.regs := by
  unfold judgeBlocks
  dsimp only
  rw [rds_modRds_same, dsp_modRds]
  exact ⟨rfl, rfl, rfl, rfl⟩

/-- The last 50 blocks of a lane in sync, with a new one. -/
def recentWith (c : Chip) (k : Nat) (b : RdsBlock) : List Bool := (b.ok :: (c.rds k).recent).take 50

/-- The block at its place in sync: sync is lost at RDS_SYNC_LOSS bad blocks. -/
theorem judgeBlocks_one_rds (b : Nat × RdsBlock) : (judgeBlocks c k [b]).rds k =
    if c.reg 0xC11 ≤ badBlocks (recentWith c k b.2) then
      { (c.rds k).put (c.rds k).expect b with recent := [], sync := false, expect := 4, group := [] }
    else { (c.rds k).put (c.rds k).expect b with recent := recentWith c k b.2, expect := ((c.rds k).expect + 1) % 4 } := by
  have hrds : (if b.2.ok = true then c else c.count 0xC13).rds k = c.rds k := by
    split
    · rfl
    · simp only [Chip.rds, Chip.lane, count_lanes]
  unfold judgeBlocks
  dsimp only
  rw [rds_modRds_same, hrds]
  simp only [decide_eq_true_eq]
  rfl

theorem judgeBlocks_one_sync (b : Nat × RdsBlock) (hs : (c.rds k).sync = true) :
    ((judgeBlocks c k [b]).rds k).sync = decide (badBlocks (recentWith c k b.2) < c.reg 0xC11) := by
  rw [judgeBlocks_one_rds]
  split <;> rename_i hlost
  · exact (decide_eq_false (by omega)).symm
  · rw [decide_eq_true (by omega)]
    exact (put_sync _ _ _).trans hs

theorem judgeBlocks_one_place (b : Nat × RdsBlock) (hs : ((judgeBlocks c k [b]).rds k).sync = true) :
    ((judgeBlocks c k [b]).rds k).expect = ((c.rds k).expect + 1) % 4 ∧ ((judgeBlocks c k [b]).rds k).recent = recentWith c k b.2 := by
  rw [judgeBlocks_one_rds] at hs ⊢
  split at hs
  · cases hs
  · rename_i hlost
    rw [if_neg hlost]
    exact ⟨rfl, rfl⟩

theorem judgeBlocks_one_dsp (b : Nat × RdsBlock) : ((judgeBlocks c k [b]).lane k).dsp = (c.lane k).dsp := by
  unfold judgeBlocks
  dsimp only
  rw [dsp_modRds]
  split
  · rfl
  · simp only [Chip.lane, count_lanes]

theorem judgeBlocks_one_regs (b : Nat × RdsBlock) : (judgeBlocks c k [b]).regs = (if b.2.ok then c else c.count 0xC13).regs := rfl

/-- An uncorrectable block is counted (R230). -/
theorem badBlock_counted (b : RdsBlock) (h : c.reg 0xC13 < 0xFFFFFFFF) :
    (if b.ok then c else c.count 0xC13).reg 0xC13 = c.reg 0xC13 + (if b.ok then 0 else 1) ∧ SameRegs [0xC13] c (if b.ok then c else c.count 0xC13) := by
  cases b.ok with
  | true => exact ⟨rfl, fun _ _ _ => rfl⟩
  | false =>
    refine ⟨reg_count_same c 0xC13 32 (by decide) (by decide) (by omega), fun a _ ha => ?_⟩
    rw [if_neg Bool.false_ne_true, Chip.count, Chip.countBy, if_pos (by rw [show maskAt 0xC13 = 0xFFFFFFFF from by decide]; omega)]
    exact reg_put_other c _ _ a fun e => ha (List.mem_singleton.mpr e)

end Blocks

/-! The statement. -/

section Statement
variable {s : State} {k : Nat} (hd : s.chip.dspOn = true) (hk : k < 160) (hrun : s.chip.rdsRuns k = true)
include hd hk

theorem ends_rdsBlockReceived {P : Chip → Prop} (h : P (s.chip.rdsReceived k)) : Ends (.rdsBlockReceived k) s P := ends_onDsp rfl (okLane_of_lt hk) hd h

theorem ends_rdsGroup {P : Chip → Prop} (h : P (s.chip.groupReceived k)) : Ends (.rdsGroup k) s P := ends_onDsp rfl (okLane_of_lt hk) hd h

include hrun

theorem rdsBlock_syncs (hg : s.chip.glimpses = []) (hs : (s.chip.rds k).sync = false) {i : Nat} (hi : rdsSearch (s.chip.lane k).dsp.rdsBits.bits 0 = some i) :
    Ends (.rdsBlockReceived k) s fun c => (c.rds k).sync = true ∧ (c.rds k).recent = [] ∧
      (c.lane k).dsp.rdsBits.bits = (s.chip.lane k).dsp.rdsBits.bits.drop (i + 52) ∧ SameRegs [] s.chip c := by
  obtain ⟨a, b, hnext⟩ := rdsNext_found s.chip k hs hi
  obtain ⟨hsync, hrecent, hdsp, hregs⟩ := judgeBlocks_two (tookBits s.chip k (i + 52) 0 [a, b]) k a b
  refine ends_rdsBlockReceived hd hk ?_
  rw [rdsReceived_eq _ k hrun hg hnext]
  exact ⟨hsync, hrecent, by rw [hdsp, tookBits_bits], fun x _ _ => reg_eq_of_regs (hregs.trans (tookBits_regs _ k _ _ _)) x⟩

theorem rdsBlock_drops (hg : s.chip.glimpses = []) (hs : (s.chip.rds k).sync = false) (hi : rdsSearch (s.chip.lane k).dsp.rdsBits.bits 0 = none) :
    Ends (.rdsBlockReceived k) s fun c => (c.rds k).sync = false ∧
      (c.lane k).dsp.rdsBits.bits = (s.chip.lane k).dsp.rdsBits.bits.drop ((s.chip.lane k).dsp.rdsBits.bits.length - 51) ∧ SameRegs [] s.chip c := by
  obtain ⟨_, _, hrds⟩ := tookBits_rds s.chip k ((s.chip.lane k).dsp.rdsBits.bits.length - 51) 0 []
  refine ends_rdsBlockReceived hd hk ?_
  rw [rdsReceived_eq _ k hrun hg (rdsNext_none _ k hs hi)]
  exact ⟨(congrArg RdsSt.sync hrds).trans hs, tookBits_bits _ k _ _ _, fun x _ _ => reg_eq_of_regs (tookBits_regs _ k _ _ _) x⟩

theorem rdsBlock_inSync (hg : s.chip.glimpses = []) (hs : (s.chip.rds k).sync = true) (hl : 26 ≤ (s.chip.lane k).dsp.rdsBits.bits.length)
    (hbreak : rdsBreak (s.chip.rds k).lastBit 0 (((s.chip.lane k).dsp.rdsBits.bits.take 26).map (·.1)) = none) (hc : s.chip.reg 0xC13 < 0xFFFFFFFF) {b : RdsBlock}
    (hb : rdsDecode (s.chip.field 0xC10 0 3) (rdsWord (s.chip.lane k).dsp.rdsBits.bits) ((s.chip.rds k).offsets ((s.chip.rds k).expect % 4)) = b) :
    Ends (.rdsBlockReceived k) s fun c => c.reg 0xC13 = s.chip.reg 0xC13 + (if b.ok then 0 else 1) ∧
      (c.rds k).sync = decide (badBlocks ((b.ok :: (s.chip.rds k).recent).take 50) < s.chip.reg 0xC11) ∧
      ((c.rds k).sync = true → (c.rds k).expect = ((s.chip.rds k).expect + 1) % 4 ∧ (c.rds k).recent = (b.ok :: (s.chip.rds k).recent).take 50) ∧
      (c.lane k).dsp.rdsBits.bits = (s.chip.lane k).dsp.rdsBits.bits.drop 26 ∧ SameRegs [0xC13] s.chip c := by
  have hnext := rdsNext_sync s.chip k hs hl hbreak
  rw [hb] at hnext
  refine ends_rdsBlockReceived hd hk ?_
  rw [rdsReceived_eq _ k hrun hg hnext]
  obtain ⟨_, _, hrds⟩ := tookBits_rds s.chip k 26 0 [(rdsTime (s.chip.lane k).dsp.rdsBits.bits, b)]
  have hbits := tookBits_bits s.chip k 26 0 [(rdsTime (s.chip.lane k).dsp.rdsBits.bits, b)]
  have hreg : ∀ x, (tookBits s.chip k 26 0 [(rdsTime (s.chip.lane k).dsp.rdsBits.bits, b)]).reg x = s.chip.reg x := reg_eq_of_regs (tookBits_regs s.chip k _ _ _)
  generalize tookBits s.chip k 26 0 [(rdsTime (s.chip.lane k).dsp.rdsBits.bits, b)] = d at hrds hbits hreg ⊢
  have hrecent : recentWith d k b = (b.ok :: (s.chip.rds k).recent).take 50 := by rw [recentWith, hrds]
  have hsync := judgeBlocks_one_sync d k (rdsTime (s.chip.lane k).dsp.rdsBits.bits, b) (by rw [hrds]; exact hs)
  have hplace := judgeBlocks_one_place d k (rdsTime (s.chip.lane k).dsp.rdsBits.bits, b)
  have hregs := reg_eq_of_regs (judgeBlocks_one_regs d k (rdsTime (s.chip.lane k).dsp.rdsBits.bits, b))
  obtain ⟨hcount, hsame⟩ := badBlock_counted d b (by rw [hreg]; exact hc)
  rw [hrecent] at hsync hplace
  rw [hreg] at hsync
  rw [hrds] at hplace
  exact ⟨by rw [hregs, hcount, hreg], hsync, hplace, by rw [judgeBlocks_one_dsp, hbits], fun x h1 hx => by rw [hregs, hsame x h1 hx, hreg]⟩

theorem rdsGroup_drops {t : Nat} {g : Group} {rest : List (Nat × Group)} (hr : (s.chip.rds k).ready = (t, g) :: rest) (hb : g.b.state = 2) :
    Ends (.rdsGroup k) s fun c => (c.rds k).ready = rest ∧ SameRegs [] s.chip c := by
  refine ends_rdsGroup hd hk ?_
  rw [groupReceived_bad _ k hr hrun hb, rds_modRds_same]
  exact ⟨rfl, fun _ _ _ => rfl⟩

theorem rdsGroup_passes {t : Nat} {g : Group} {rest : List (Nat × Group)} (hr : (s.chip.rds k).ready = (t, g) :: rest) (hb : g.b.state ≠ 2)
    (hc : s.chip.reg 0xC12 < 0xFFFFFFFF) :
    Ends (.rdsGroup k) s fun c => c.reg 0xC12 = s.chip.reg 0xC12 + 1 ∧ (c.rds k).last = some (g.body, s.chip.tick) ∧
      (g.a.state = 0 → Tbl.find (s.chip.rds k).seen keyPi = some g.a.bits.toNat → (c.rds k).pi = some g.a.bits.toNat) ∧
      ∀ r, r / 256 ∉ [1, 2, 6, 7, 0x0C] → c.reg r = s.chip.reg r := by
  obtain ⟨hkeep, hpi⟩ := groupReceived_passes s.chip k hr hrun hb
  have hcount := keepGroup_count (s.chip.modRds k fun r => { r with ready := rest }) k g hc
  have hlast := keepGroup_last (s.chip.modRds k fun r => { r with ready := rest }) k g
  have hother := keepGroup_other (s.chip.modRds k fun r => { r with ready := rest }) k g
  refine ends_rdsGroup hd hk ⟨?_, ?_, hpi, fun r hr => ?_⟩
  · exact (hkeep.regs 0xC12 (by decide) (by decide)).trans hcount
  · exact congrArg Prod.fst (hkeep.part.trans hlast)
  · exact (hkeep.regs r (fun h1 => hr (by rw [h1]; decide)) (fun hm => hr hm.1)).trans (hother r hr)

end Statement

/-- Settles O36, clause by clause: the blocks out of sync and in sync, the groups, and no group. -/
theorem rdsBlocksAndGroups : Obligations.RdsBlocksAndGroups := by
  intro s k hd hk hrun
  refine ⟨fun hg hs => ⟨fun _ hi => rdsBlock_syncs hd hk hrun hg hs hi, rdsBlock_drops hd hk hrun hg hs⟩, ?_, ?_, fun hr => ?_⟩
  · exact fun hg hs hl hbreak hc b hb => rdsBlock_inSync hd hk hrun hg hs hl hbreak hc hb
  · exact fun t g rest hr => ⟨rdsGroup_drops hd hk hrun hr, rdsGroup_passes hd hk hrun hr⟩
  · exact becomes_idle rfl (okLane_of_lt hk) hd (groupReceived_nil s.chip k hr)

end Sys2Proof.Proofs
end

section
/-! The Studio link takes an alarm frame (R511), and the outputs follow an alarm (R69, R96, R261, R531): none of it moves the alarms. -/

namespace Sys2Proof.Proofs

open Sys2Proof Sys2Proof.Machine Sys2Proof.Laws

/-- The parameters that an alarm's consequences may move: not ALM_CFG to the handles of the active alarms. -/
abbrev almMoved (a : Nat) : Prop := ¬ (0xC30 ≤ a ∧ a < 0xC60)

theorem almMoved_records (a : Nat) (h : a / 256 ∈ [6, 7]) : almMoved a := by
  simp only [List.mem_cons, List.not_mem_nil, or_false] at h
  unfold almMoved
  omega

/-! The scheduler's figures and the link's state. -/

theorem almPut_keeps (c : Chip) (a v : Nat) (ha : almMoved a) (h1 : a / 256 ≠ 1) : Keeps still almMoved c (c.put a v) := .of_put c v ha h1

theorem link_keeps {R : Nat → Prop} (c : Chip) (x : LinkSt) : Keeps still R c { c with link := x } := .of_regs rfl rfl

theorem refreshSched_keeps (c : Chip) : Keeps still almMoved c c.refreshSched := by
  have hput : ∀ {d : Chip} (a v : Nat), almMoved a → a / 256 ≠ 1 → Keeps still almMoved c d → Keeps still almMoved c (d.put a v) :=
    fun a v ha h1 h => .after (almPut_keeps _ a v ha h1) h
  unfold Chip.refreshSched
  extract_lets js v w lanes inst fm c1 c2 c3 c4 c5 c6 c7 c8 c9 d
  have hparts : Keeps still almMoved c d :=
    hput 0xB00 _ (by decide) (by decide) (hput 0xC60 _ (by decide) (by decide) (hput 0x5187 _ (by decide) (by decide) (hput 0x5186 _ (by decide) (by decide)
      (hput 0x7A0 _ (by decide) (by decide) (hput 0x708 _ (by decide) (by decide) (hput 0x707 _ (by decide) (by decide) (hput 0x706 _ (by decide) (by decide)
        (hput 0x705 _ (by decide) (by decide) (hput 0x704 _ (by decide) (by decide) (.refl c))))))))))
  refine .after (.of_each (fun e n hn => almPut_keeps e _ _ ?_ ?_) d) hparts
  all_goals
    have hn8 := List.mem_range.mp hn
    simp only [almMoved, dabA]
    omega

theorem lnkState_keeps (c : Chip) (v : Nat) : Keeps still almMoved c (c.lnkState v) := by
  have hstate : Keeps still almMoved c ({ c with link := { c.link with busyAt := c.time.now } }.put 0xD00 v) :=
    .after (almPut_keeps _ 0xD00 v (by decide) (by decide)) (link_keeps c _)
  refine .after (refreshSched_keeps _) (.after (almPut_keeps _ 0x302 _ (by decide) (by decide)) ?_)
  exact .ite hstate (.after (almPut_keeps _ 0xD12 _ (by decide) (by decide)) hstate)

theorem linkWake_keeps (c : Chip) : Keeps still almMoved c c.linkWake :=
  .ite (.after (lnkState_keeps _ 5) (.after (almPut_keeps _ 0x220 1 (by decide) (by decide)) (link_keeps c _))) (.refl c)

/-! Frames. -/

theorem setTxQueue_keeps {R : Nat → Prop} (c : Chip) (q : List TxEnt) : Keeps still R c (c.setTxQueue q) := link_keeps c _

theorem unqueue_keeps {R : Nat → Prop} (c : Chip) (e : TxEnt) : Keeps still R c (c.unqueue e) := setTxQueue_keeps c _

theorem linkCount_keeps (c : Chip) {a sa i : Nat} (hs : satOf a = some (sa, i)) (ha : 0xD00 ≤ a) (hsa : 0xD00 ≤ sa) : Keeps still almMoved c (c.count a) :=
  .of_count c hs (by unfold almMoved; omega) (by omega) (by unfold almMoved; omega) (by omega)

theorem refuseTx_keeps (c : Chip) (e : TxEnt) (reason : Nat) : Keeps still almMoved c (c.refuseTx e reason) := by
  have htold : ∀ ts body handle d, Keeps still almMoved c ((c.lnkRecord ts body).raise 57 handle d) := fun ts body handle d =>
    .after (.of_raise _ 57 _ _ (by decide)) (produce_keeps almMoved_records c _)
  unfold Chip.refuseTx Chip.report
  dsimp only
  by_cases h : reason = 0
  · rw [if_pos h]
    exact .after (linkCount_keeps _ (sa := 0xD3B) (i := 6) (by decide) (by decide) (by decide)) (htold _ _ _ _)
  · rw [if_neg h]
    exact .after (linkCount_keeps _ (sa := 0xD3B) (i := 7) (by decide) (by decide) (by decide)) (htold _ _ _ _)

theorem tellSpent_keeps {R : Nat → Prop} (c : Chip) : Keeps still R c c.tellSpent :=
  .ite (.refl c) (.after (.of_raise _ 62 _ _ (by decide)) (link_keeps c _))

theorem secure_keeps (keys : Tbl Key) (c : Chip) (e : TxEnt) : Keeps still almMoved c (c.secure keys e).2 := by
  unfold Chip.secure
  split
  · exact .refl c
  · exact .after (linkCount_keeps _ (sa := 0xF1D) (i := 0) (by decide) (by decide) (by decide)) (almPut_keeps c 0xD3C _ (by decide) (by decide))

theorem queueInternal_keeps (keys : Tbl Key) (c : Chip) (kind : Nat) (pri : Bool) (timed : Option Nat) (payload : List Byte) :
    Keeps still almMoved c (c.queueInternal keys kind pri timed payload) := by
  have hfull : ∀ d, Keeps still almMoved d (d.count 0xD37) := fun d => linkCount_keeps d (sa := 0xD3B) (i := 7) (by decide) (by decide) (by decide)
  unfold Chip.queueInternal
  extract_lets secured e full old b clash
  clear_value clash old full e
  have hroom : Keeps still almMoved c b := by
    unfold b
    split
    · exact .after (refuseTx_keeps _ _ _) (unqueue_keeps c _)
    · exact .refl c
  have hsecure := hroom.trans (secure_keeps keys b e)
  refine .ite (hfull c) (.ite (.after (refuseTx_keeps _ e _) (tellSpent_keeps c)) (.ite (hfull c) (.ite (.after (refuseTx_keeps b e _) hroom) ?_)))
  exact .after (linkWake_keeps _) (.after (setTxQueue_keeps _ _) hsecure)

theorem linkAlarm_keeps (keys : Tbl Key) (c : Chip) (body : List Byte) (ts : Nat) : Keeps still almMoved c (c.linkAlarm keys body ts) := by
  refine .ite (.refl c) ?_
  exact .afterUnless (link_keeps _ _) (queueInternal_keeps keys c 1 true none _)

/-- An alarm record, which the link takes as well (R260, R263). -/
theorem almRecord_keeps (keys : Tbl Key) (c : Chip) (i : Nat) (a : AlarmSt) (state cause ts : Nat) (audio : Nat × Nat) :
    Keeps still almMoved c (c.almRecord keys i a state cause ts audio) :=
  .after (linkAlarm_keeps keys _ _ ts) (produce_keeps almMoved_records c _)

end Sys2Proof.Proofs
end

section
/-! The outputs follow an alarm (R69, R96, R261, R531), and none of it moves the alarms. -/

namespace Sys2Proof.Proofs

open Sys2Proof Sys2Proof.Machine Sys2Proof.Laws

/-! The DAC. -/

theorem modDac_keeps {R : Nat → Prop} (c : Chip) (ch : Nat) (f : DacSt → DacSt) : Keeps still R c (c.modDac ch f) := .of_regs rfl rfl

theorem dacBit_keeps (c : Chip) (b : Bool) : Keeps still almMoved c (c.putBit 0xE40 4 b) := almPut_keeps c 0xE40 _ (by decide) (by decide)

theorem dacMap_keeps (c : Chip) : Keeps still almMoved c c.dacMap :=
  .after (.of_each (fun d ch _ => .ite (modDac_keeps d ch _) (.refl d)) _) (dacBit_keeps c true)

theorem dacUnmap_keeps (c : Chip) : Keeps still almMoved c c.dacUnmap :=
  .after (.of_each (fun d ch _ => .ite (modDac_keeps d ch _) (.refl d)) _) (dacBit_keeps c false)

/-! Test injection. -/

theorem injStop_keeps (c : Chip) {fe : Nat} (status : Nat) (hfe : fe ∈ [0, 1]) : Keeps still almMoved c (c.injStop fe status none) := by
  have hput : Keeps still almMoved c (c.put (feA fe 0x23) status) := by
    have hrange : fe = 0 ∨ fe = 1 := by simpa using hfe
    exact almPut_keeps c _ _ (by unfold almMoved feA; omega) (by unfold feA; omega)
  have hcell : ∀ (d : Chip) (f : FeSt → FeSt), Keeps still almMoved d (d.modFe fe f) := fun _ _ => .of_regs rfl rfl
  exact .after (.of_raise _ 22 _ _ (by decide)) (.after (hcell _ _) hput)

theorem almInjection_keeps (c : Chip) : Keeps still almMoved c c.almInjection :=
  .of_each (fun d _ hfe => .ite (injStop_keeps d 3 hfe) (.refl d)) c

/-! The alarm slot. -/

theorem slotPut_keeps (c : Chip) {s o : Nat} (v : Nat) (hs : s < 16) (ho : o < 16) : Keeps still almMoved c (c.put (fmsA s o) v) :=
  almPut_keeps c _ v (by unfold almMoved fmsA; omega) (by unfold fmsA; omega)

theorem applySlotLane_keeps (c : Chip) {s : Nat} (v : Nat) (hs : s < 16) : Keeps still almMoved c (c.applySlotLane true s v) := by
  have hslot : ∀ (d : Chip) (f : SlotSt → SlotSt), Keeps still almMoved d (d.modSlot true s f) := fun _ _ => .of_regs rfl rfl
  unfold Chip.applySlotLane
  refine .ite (.refl c) ?_
  exact .after (slotPut_keeps _ 0 hs (by decide)) (.after (hslot _ _) (slotPut_keeps c v hs (by decide)))

theorem alarmAudio_keeps (c : Chip) : Keeps still almMoved c c.alarmAudio := by
  unfold Chip.alarmAudio
  by_cases hs : 16 ≤ c.almSlot
  · rw [if_pos hs]
    exact .refl c
  · rw [if_neg hs]
    have hslot : c.almSlot < 16 := Nat.lt_of_not_le hs
    split
    · exact .after (slotPut_keeps _ _ hslot (by decide)) (applySlotLane_keeps c _ hslot)
    · exact .ite (.refl c) (.after (slotPut_keeps _ _ hslot (by decide)) (applySlotLane_keeps c _ hslot))

/-! Capture triggers. -/

theorem still_capTrigger (c : Chip) (w causes : Nat) (now_ : Bool) : still (c.capTrigger w causes now_) = still c := by
  have hmark : still (c.capMark w c.time.now causes) = still c := rfl
  unfold Chip.capTrigger
  simp only [apply_ite still, hmark, still_put, still_count, ite_self]

theorem capTrigger_keeps (c : Chip) {w : Nat} (causes : Nat) (now_ : Bool) (hw : w < 12) : Keeps still almMoved c (c.capTrigger w causes now_) where
  part := still_capTrigger c w causes now_
  pending := (capTrigger_moves c causes now_ hw).pending
  regs a h1 ha := (capTrigger_moves c causes now_ hw).regs a h1 fun hp => ha (by unfold winPage at hp; unfold almMoved; omega)

/-- The trigger of every window. -/
theorem triggers_keeps (c : Chip) (causes : Chip → Nat → Nat) : Keeps still almMoved c (c.each (List.range 12) fun c w => c.capTrigger w (causes c w) false) :=
  .of_each (fun d _ hw => capTrigger_keeps d _ false (List.mem_range.mp hw)) c

/-! Entries of the Gallery. -/

theorem almGal_keeps {R : Nat → Prop} (c : Chip) (kind identity : Nat) : Keeps still R c (c.almGal kind identity) := by
  unfold Chip.almGal
  split
  · exact galBit_keeps c _ _ _
  · exact .refl c

/-! ALM_STATUS and the handles. -/

/-- The alarms, and how many ALM_STATUS shows. -/
def almPart (c : Chip) : (Tbl LaneSt × Tbl AlarmSt × List AlmPend × Nat × Nat) × Nat := (still c, c.field 0xC39 0 6)

/-- All parameters but the handles of the active alarms. -/
abbrev notHandle (a : Nat) : Prop := ¬ (0xC40 ≤ a ∧ a < 0xC60)

theorem Keeps.withCount {c d : Chip} (h : Keeps still almMoved c d) : Keeps almPart notHandle c d where
  part := by
    have hstatus : d.reg 0xC39 = c.reg 0xC39 := h.regs 0xC39 (by decide) (by decide)
    simp only [almPart, Chip.field, hstatus, h.part]
  pending := h.pending
  regs a h1 ha := h.regs a h1 fun hm => ha fun hr => hm ⟨by omega, hr.2⟩

theorem maskAt_almStatus (j : Nat) (hj : j < 7) : (maskAt 0xC39).testBit j = true := by
  have h : maskAt 0xC39 = 2 ^ 7 - 1 := by decide
  rw [h, Nat.testBit_two_pow_sub_one]
  exact decide_eq_true hj

theorem maskAt_almHandle {i : Nat} (hi : i < 32) : maskAt (0xC40 + i) = 0xFFFFFFFF :=
  (by decide : ∀ n < 32, maskAt (0xC40 + n) = 0xFFFFFFFF) i hi

/-- ALERT is released where ALM_PIN_MIN has passed; the count stays (R259). -/
theorem alertRelease_keeps (c : Chip) : Keeps almPart notHandle c c.alertRelease := by
  refine .ite ⟨?_, fun n hn hp => ?_, fun a _ ha => ?_⟩ (.refl c)
  · simp only [almPart, field_putBit_other c 0xC39 0 6 6 false (by decide) fun j hj => maskAt_almStatus (0 + j) (by omega)]
    rfl
  · exact (isPending_put c _ _ n hn (by decide)).trans hp
  · exact reg_put_other c _ _ a (by rintro rfl; exact ha (by decide))

theorem almQuiet_keeps (c : Chip) : Keeps almPart notHandle c c.almQuiet :=
  .ite (.after (alertRelease_keeps _) (dacUnmap_keeps c).withCount) (.refl c)

end Sys2Proof.Proofs
end

section
/-! Gallery ageing, time sources and broadcast alarms (O37). -/

namespace Sys2Proof.Proofs

open Sys2Proof Sys2Proof.Machine Sys2Proof.Laws

/-! Rows of the powered control domain. -/

section Rows
variable {i : Instr} {s : State} (hon : s.chip.ctlOn = true)
include hon

theorem becomes_onCtl {f : Chip → Chip} {c : Chip} (hx : exec i s = .next (s.onCtl f)) (hf : f s.chip = c) : Becomes i s c := by
  refine hx.trans ?_
  simp only [State.onCtl, State.onChip, Chip.live, hon, if_true, hf]

theorem becomes_withKeys {f : Tbl Key → Chip → Chip} {c : Chip} (hx : exec i s = .next (s.withKeys fun keys c => c.live (f keys))) (hf : f s.keys s.chip = c) :
    Becomes i s c := by
  refine hx.trans ?_
  simp only [State.withKeys, Chip.live, hon, if_true, hf]

theorem ends_onCtl {f : Chip → Chip} {P : Chip → Prop} (hx : exec i s = .next (s.onCtl f)) (hP : P (f s.chip)) : Ends i s P := ⟨_, becomes_onCtl hon hx rfl, hP⟩

theorem ends_withKeys {f : Tbl Key → Chip → Chip} {P : Chip → Prop} (hx : exec i s = .next (s.withKeys fun keys c => c.live (f keys)))
    (hP : P (f s.keys s.chip)) : Ends i s P := ⟨_, becomes_withKeys hon hx rfl, hP⟩

end Rows

/-! Gallery ageing (R244). -/

/-- The age of one entry steps, or starts again. -/
def ageEntry (c : Chip) (e : Nat) : Chip :=
  c.setGalW e 7 (setBits (c.galW e 7) 0 16 (if Tbl.get false c.gal.seen e then 0 else min 0xFFFF (c.galAge e + 1)))

theorem ageEntry_same (c : Chip) (e : Nat) : (ageEntry c e).galAge e = if Tbl.get false c.gal.seen e then 0 else min 0xFFFF (c.galAge e + 1) := by
  unfold ageEntry
  generalize hage : (if Tbl.get false c.gal.seen e then 0 else min 0xFFFF (c.galAge e + 1)) = age
  have hlt : age < 2 ^ 16 := by
    rw [← hage]
    split
    · decide
    · omega
  unfold Chip.galAge Chip.galW Chip.setGalW
  dsimp only
  rw [tbl_get_set_same, w32, BitVec.toNat_ofNat]
  unfold bits setBits bits
  omega

/-- What the ageing of entries reads and what it leaves. -/
theorem ageEntry_other (c : Chip) {e x : Nat} (h : x ≠ e) : ((ageEntry c x).galAge e, (ageEntry c x).gal) = (c.galAge e, c.gal) := by
  have hw : (ageEntry c x).galW e 7 = c.galW e 7 := by
    unfold ageEntry Chip.galW Chip.setGalW
    dsimp only
    rw [tbl_get_set_other _ _ _ _ _ _ (by omega)]
  simp only [Chip.galAge, hw]
  rfl

/-- An entry that is listed once is aged once. -/
theorem age_once {l : List Nat} {e : Nat} (h : l.count e = 1) (c : Chip) :
    (c.each l ageEntry).galAge e = if Tbl.get false c.gal.seen e then 0 else min 0xFFFF (c.galAge e + 1) := by
  obtain ⟨l₁, l₂, rfl⟩ := List.append_of_mem (List.count_pos_iff.mp (h ▸ Nat.one_pos))
  have hcounts : l₁.count e = 0 ∧ l₂.count e = 0 := by
    rw [List.count_append, List.count_cons_self] at h
    omega
  have hskip : ∀ {l : List Nat}, l.count e = 0 → ∀ d : Chip, ((d.each l ageEntry).galAge e, (d.each l ageEntry).gal) = (d.galAge e, d.gal) := fun hl d =>
    each_frame_mem (fun d => (d.galAge e, d.gal)) (fun d x hx => ageEntry_other d fun hxe => List.count_eq_zero.mp hl (hxe ▸ hx)) d
  obtain ⟨hage, hgal⟩ := Prod.mk.inj (hskip hcounts.1 c)
  have hsplit : c.each (l₁ ++ e :: l₂) ageEntry = (ageEntry (c.each l₁ ageEntry) e).each l₂ ageEntry := List.foldl_append
  rw [hsplit, (Prod.mk.inj (hskip hcounts.2 _)).1, ageEntry_same, hage, hgal]

theorem galAgeing_regs (c : Chip) : c.galAgeing.regs = c.regs := each_frame Chip.regs ageEntry (fun _ _ => rfl) c.galUsed c

/-! Time sources (R253). -/

theorem timeTimeout_eq (c : Chip) {u t : Nat} {src : TimSrc} (hu : c.timeUse = some u) (hs : Tbl.find c.times u = some src) (ht : src.accepted = some t) :
    c.timeTimeout = if silence ≤ c.time.now - t then { c with timeStale := true } else c := by
  unfold Chip.timeTimeout
  simp only [hu, Tbl.get, hs, Option.getD_some, ht]

/-! The start of the first alarm (R256 to R259). -/

/-- The alarm that a waiting start makes. -/
def alarmOf (p : AlmPend) : AlarmSt :=
  { kind := p.kind, source := p.source, identity := p.identity, order := p.order, lastSig := p.heard, lostAt := none, subch := p.subch }

/-- The chip with the first alarm listed, its handle written and counted. -/
def listedFirst (c : Chip) (p : AlmPend) : Chip :=
  (({ c with almPend := [], alarms := [(0, alarmOf p)] }.put 0xC40 p.source).count 0xC3A).modLane (hLane p.source) fun l => { l with undecided := 0 }

/-- Then with ALM_STATUS, the mark in the Gallery and ALERT. -/
def firstAlarm (c : Chip) (p : AlmPend) : Chip :=
  let d := (listedFirst c p).almCount.almGal p.kind p.identity
  { d.putBit 0xC39 6 true with alertAt := d.tick }

theorem almTake_first (keys : Tbl Key) (c : Chip) {p : AlmPend} (hp : p.start = true) (hpend : c.almPend = [p]) (hal : c.alarms = []) :
    Keeps still almMoved ((firstAlarm c p).almInjection.dacMap.raise 40 p.source 0) (c.almTake keys) := by
  have hfirst : firstPend true c.almPend = some p := by simp [hpend, firstPend, hp]
  have hrest : (c.almPend.filter fun x => x.order != p.order) = [] := by simp [hpend]
  have hfree : Tbl.lowestFree c.alarms 0 32 = some 0 := by rw [hal]; rfl
  unfold Chip.almTake
  rw [hfirst]
  dsimp only
  rw [hrest, hfree]
  dsimp only
  rw [hal]
  exact .after (almRecord_keeps keys _ _ _ _ _ _ _) (.after (triggers_keeps _ _) (alarmAudio_keeps _))

/-- What the first alarm leaves (R257, R259). -/
theorem firstAlarm_facts (c : Chip) (p : AlmPend) :
    (∃ a, (firstAlarm c p).alarms = [(0, a)] ∧ a.kind = p.kind ∧ a.source = p.source ∧ a.identity = p.identity) ∧ (firstAlarm c p).almPend = [] ∧
      (firstAlarm c p).reg 0xC40 = p.source % 2 ^ 32 ∧ (firstAlarm c p).field 0xC39 0 6 = 1 ∧ (firstAlarm c p).bit 0xC39 6 = true ∧
      (firstAlarm c p).alertAt = c.tick := by
  have halarms : (listedFirst c p).alarms = [(0, alarmOf p)] := by simp [listedFirst]
  have hpend : (listedFirst c p).almPend = [] := by simp [listedFirst]
  have htime : (listedFirst c p).time = c.time := by simp [listedFirst]
  have hhandle : (listedFirst c p).reg 0xC40 = p.source % 2 ^ 32 := by
    have hcount := reg_count_other ({ c with almPend := [], alarms := [(0, alarmOf p)] }.put 0xC40 p.source) 0xC3A 0xC40 (by decide) (by decide) (by decide)
    have hmask : maskAt 0xC40 = 2 ^ 32 - 1 := maskAt_almHandle (i := 0) (by decide)
    rw [listedFirst, modLane_reg, hcount, reg_put_same, hmask, Nat.and_two_pow_sub_one_eq_mod, Nat.mod_mod]
  have hstatus : (listedFirst c p).almCount.field 0xC39 0 6 = 1 := by
    unfold Chip.almCount
    rw [halarms]
    exact field_putField_same _ _ 0 6 1 (fun j hj => maskAt_almStatus (0 + j) (by omega)) (by decide)
  have hgal := almGal_keeps (R := fun _ => False) (listedFirst c p).almCount p.kind p.identity
  unfold firstAlarm
  generalize (listedFirst c p).almCount.almGal p.kind p.identity = d at hgal ⊢
  have hreg : ∀ a, a / 256 ≠ 1 → d.reg a = (listedFirst c p).almCount.reg a := fun a h1 => hgal.regs a h1 id
  have hpart := hgal.part
  simp only [still, Prod.mk.injEq] at hpart
  obtain ⟨_, hal, hpe, _, hnow⟩ := hpart
  refine ⟨⟨alarmOf p, hal.trans halarms, rfl, rfl, rfl⟩, hpe.trans hpend, ?_, ?_, ?_, ?_⟩
  · exact (reg_put_other d _ _ _ (by decide)).trans ((hreg 0xC40 (by decide)).trans ((reg_put_other _ _ _ _ (by decide)).trans hhandle))
  · refine (field_putBit_other d 0xC39 0 6 6 true (by decide) fun j hj => maskAt_almStatus (0 + j) (by omega)).trans ?_
    rw [← hstatus]
    simp only [Chip.field, hreg 0xC39 (by decide)]
  · exact bit_putBit_same d 0xC39 6 true (maskAt_almStatus 6 (by decide))
  · have hcounted : (listedFirst c p).almCount.time = (listedFirst c p).time := rfl
    dsimp only [Chip.tick]
    rw [hnow, hcounted, htime]

theorem almTake_starts (keys : Tbl Key) (c : Chip) {p : AlmPend} (hp : p.start = true) (hpend : c.almPend = [p]) (hal : c.alarms = []) :
    (∃ a, (c.almTake keys).alarms = [(0, a)] ∧ a.kind = p.kind ∧ a.source = p.source ∧ a.identity = p.identity) ∧ (c.almTake keys).almPend = [] ∧
      (c.almTake keys).isPending 40 = true ∧ (c.almTake keys).reg 0xC40 = p.source % 2 ^ 32 ∧ (c.almTake keys).field 0xC39 0 6 = 1 ∧
      (c.almTake keys).bit 0xC39 6 = true ∧ (c.almTake keys).alertAt = c.tick := by
  obtain ⟨ha, hpend', hhandle, hcount, halert, hat⟩ := firstAlarm_facts c p
  have hraised := almTake_first keys c hp hpend hal
  have hevent := hraised.pending 40 (by decide) (pending_raise _ 40 _ _ (by decide))
  have hall := ((almInjection_keeps (firstAlarm c p)).trans ((dacMap_keeps _).trans (.of_raise _ 40 p.source 0 (by decide)))).trans hraised
  generalize c.almTake keys = d at hall hevent ⊢
  have hpart := hall.part
  simp only [still, Prod.mk.injEq] at hpart
  obtain ⟨_, hal', hpe, hat', _⟩ := hpart
  refine ⟨by rw [hal']; exact ha, hpe.trans hpend', hevent, ?_, ?_, ?_, hat'.trans hat⟩
  · exact (hall.regs 0xC40 (by decide) (by decide)).trans hhandle
  · exact (congrArg (bits · 0 6) (hall.regs 0xC39 (by decide) (by decide))).trans hcount
  · exact (congrArg (Nat.testBit · 6) (hall.regs 0xC39 (by decide) (by decide))).trans halert

/-! The end of an alarm (R257 to R259). -/

/-- The lanes of an alarm are watched for ALM_LOST_HOLD ticks more (R262). -/
def watchedOn (c : Chip) (a : AlarmSt) : Chip :=
  c.each (hLane a.source :: (c.fmTarget a).toList) fun d k => d.modLane k fun l => { l with watch := max l.watch (c.tick + c.reg 0xC34) }

theorem watchedOn_alarms (c : Chip) (a : AlarmSt) : ((watchedOn c a).alarms, (watchedOn c a).almPend) = (c.alarms, c.almPend) := by
  refine each_frame (fun d => (d.alarms, d.almPend)) _ ?_ _ c
  exact fun _ _ => rfl

/-- The chip once the only alarm, at `i`, has gone. -/
def lastAlarmGone (c : Chip) (i : Nat) (a : AlarmSt) : Chip :=
  (({ watchedOn c a with alarms := [] }.put (0xC40 + i) 0).almCount).almGal a.kind a.identity

theorem almStop_last (keys : Tbl Key) (c : Chip) {i : Nat} {a : AlarmSt} (cause ts : Nat) (hal : c.alarms = [(i, a)]) :
    Keeps almPart notHandle ((lastAlarmGone c i a).raise 41 a.source (i + 256 * cause)) (c.almStop keys i cause ts) := by
  have hfind : Tbl.find c.alarms i = some a := by simp [hal, Tbl.find]
  have hnone : Tbl.del (watchedOn c a).alarms i = [] := by
    rw [(Prod.mk.inj (watchedOn_alarms c a)).1, hal]
    simp [Tbl.del]
  unfold Chip.almStop
  rw [hfind]
  dsimp only
  rw [← watchedOn, hnone]
  exact .after (almRecord_keeps keys _ _ _ _ _ _ _).withCount (.after (almQuiet_keeps _) (alarmAudio_keeps _).withCount)

/-- What the end of the only alarm leaves. -/
theorem lastAlarmGone_facts (c : Chip) {i : Nat} (a : AlarmSt) (hi : i < 32) :
    (lastAlarmGone c i a).alarms = [] ∧ (lastAlarmGone c i a).almPend = c.almPend ∧ (lastAlarmGone c i a).reg (0xC40 + i) = 0 ∧
      (lastAlarmGone c i a).field 0xC39 0 6 = 0 := by
  have hgal := almGal_keeps (R := fun _ => False) ({ watchedOn c a with alarms := [] }.put (0xC40 + i) 0).almCount a.kind a.identity
  have hreg : ∀ x, x / 256 ≠ 1 → (lastAlarmGone c i a).reg x = ({ watchedOn c a with alarms := [] }.put (0xC40 + i) 0).almCount.reg x :=
    fun x h1 => hgal.regs x h1 id
  have hpart := hgal.part
  simp only [still, Prod.mk.injEq] at hpart
  obtain ⟨_, hal, hpe, _, _⟩ := hpart
  refine ⟨hal, hpe.trans (Prod.mk.inj (watchedOn_alarms c a)).2, ?_, ?_⟩
  · rw [hreg _ (by omega), Chip.almCount, Chip.putField, reg_put_other _ _ _ _ (by omega), reg_put_zero, if_pos rfl]
  · refine (congrArg (bits · 0 6) (hreg 0xC39 (by decide))).trans ?_
    exact field_putField_same _ _ 0 6 0 (fun j hj => maskAt_almStatus (0 + j) (by omega)) (by decide)

/-- An only alarm that ends (R257, R259, R260). -/
theorem almStop_ends (keys : Tbl Key) (c : Chip) {i : Nat} {a : AlarmSt} (cause ts : Nat) (hi : i < 32) (hal : c.alarms = [(i, a)]) :
    (c.almStop keys i cause ts).alarms = [] ∧ (c.almStop keys i cause ts).almPend = c.almPend ∧ (c.almStop keys i cause ts).isPending 41 = true ∧
      (c.almStop keys i cause ts).reg (0xC40 + i) = 0 ∧ (c.almStop keys i cause ts).field 0xC39 0 6 = 0 := by
  obtain ⟨hnone, hpend, hhandle, hcount⟩ := lastAlarmGone_facts c a hi
  have hstop := almStop_last keys c cause ts hal
  have hall := (Keeps.of_raise (R := almMoved) (lastAlarmGone c i a) 41 a.source (i + 256 * cause) (by decide)).withCount.trans hstop
  have hpart := hall.part
  simp only [almPart, still, Prod.mk.injEq] at hpart
  obtain ⟨⟨_, hal', hpe, _, _⟩, hfield⟩ := hpart
  exact ⟨hal'.trans hnone, hpe.trans hpend, hstop.pending 41 (by decide) (pending_raise _ 41 _ _ (by decide)),
    (hall.regs _ (by omega) (by simp only [notHandle]; omega)).trans hhandle, hfield.trans hcount⟩

/-- The end signal of the only alarm ends it (R257). -/
theorem almFinish_last (keys : Tbl Key) (c : Chip) {p : AlmPend} {i : Nat} {a : AlarmSt} (hp : p.start = false) (hpend : c.almPend = [p])
    (hal : c.alarms = [(i, a)]) (his : a.is p.kind p.source p.identity = true) : c.almFinish keys = { c with almPend := [] }.almStop keys i 1 p.ts := by
  have hfirst : firstPend false c.almPend = some p := by simp [hpend, firstPend, hp]
  have hrest : (c.almPend.filter fun x => x.order != p.order) = [] := by simp [hpend]
  have hfind : ({ c with almPend := [] } : Chip).almFind p.kind p.source p.identity = some i := by simp [Chip.almFind, hal, his]
  unfold Chip.almFinish
  rw [hfirst]
  dsimp only
  rw [hrest, hfind]

/-- Nothing waits to start. -/
theorem almTake_idle (keys : Tbl Key) (c : Chip) (h : ∀ p, p ∈ c.almPend → p.start = false) : c.almTake keys = c := by
  have hnone : (c.almPend.filter fun p => p.start == true) = [] := List.filter_eq_nil_iff.mpr fun p hp => by simp [h p hp]
  unfold Chip.almTake firstPend
  rw [hnone]
  rfl

section Only
variable (keys : Tbl Key) (c : Chip) {i : Nat} {a : AlarmSt} (hal : c.alarms = [(i, a)])
include hal

theorem find_only : Tbl.find c.alarms i = some a := by simp [hal, Tbl.find]

theorem almTimeout_silent (hk : a.kind = 2) (ht : a.lastSig + c.reg 0xC32 * 32000 ≤ c.time.now) :
    c.almTimeout keys i = c.almStop keys i 2 (a.lastSig + c.reg 0xC32 * 32000) := by
  unfold Chip.almTimeout
  simp [find_only c hal, hk, ht]

theorem almTimeout_untimed (hk : a.kind = 1) : c.almTimeout keys i = c := by
  unfold Chip.almTimeout
  simp [find_only c hal, hk]

theorem almLostExpire_lost {t : Nat} (hl : a.lostAt = some t) (hh : c.reg 0xC34 ≠ 0xFFFF) (ht : t + c.reg 0xC34 * 32000 ≤ c.time.now) :
    c.almLostExpire keys i = c.almStop keys i 3 (t + c.reg 0xC34 * 32000) := by
  unfold Chip.almLostExpire
  simp [find_only c hal, hl, hh, ht]

theorem almLostExpire_held (hl : a.lostAt = none) : c.almLostExpire keys i = c := by
  unfold Chip.almLostExpire
  simp [find_only c hal, hl]

end Only

theorem alertRelease_releases (c : Chip) (hal : c.alarms = []) (ht : c.alertAt + c.reg 0xC35 ≤ c.tick) : c.alertRelease = c.putBit 0xC39 6 false :=
  if_pos ⟨by rw [hal]; rfl, ht⟩

theorem alertRelease_idle (c : Chip) (hal : c.alarms ≠ []) : c.alertRelease = c := if_neg fun h => hal (List.isEmpty_iff.mp h.1)

/-! The statement. -/

section Statement
variable {s : State} (hon : s.chip.ctlOn = true)
include hon

theorem gallery_ages : Ends .galleryAgeing s fun c =>
    (∀ e, s.chip.galUsed.count e = 1 → c.galAge e = (if Tbl.get false s.chip.gal.seen e then 0 else min 0xFFFF (s.chip.galAge e + 1))) ∧
      c.gal.seen = [] ∧ SameRegs [] s.chip c :=
  ends_onCtl hon rfl ⟨fun _ he => age_once he s.chip, rfl, fun a _ _ => reg_eq_of_regs (galAgeing_regs s.chip) a⟩

theorem source_times_out {u t : Nat} {src : TimSrc} (hu : s.chip.timeUse = some u) (hs : Tbl.find s.chip.times u = some src) (ht : src.accepted = some t) :
    (silence ≤ s.chip.time.now - t → Ends .timeSourceTimeout s fun c => c.timeStale = true ∧ c.timeUse = some u ∧ SameRegs [] s.chip c) ∧
      (s.chip.time.now - t < silence → Becomes .timeSourceTimeout s s.chip) := by
  have heq := timeTimeout_eq s.chip hu hs ht
  refine ⟨fun hlong => ends_onCtl hon rfl ?_, fun hshort => becomes_onCtl hon rfl (heq.trans (if_neg (by omega)))⟩
  rw [heq, if_pos hlong]
  exact ⟨rfl, hu, fun _ _ _ => rfl⟩

theorem alarm_ends {p : AlmPend} {i : Nat} {a : AlarmSt} (hi : i < 32) (hp : p.start = false) (hpend : s.chip.almPend = [p]) (hal : s.chip.alarms = [(i, a)])
    (his : a.is p.kind p.source p.identity = true) : Ends .alarmInstanceEnd s fun c =>
      c.alarms = [] ∧ c.almPend = [] ∧ c.isPending 41 = true ∧ c.reg (0xC40 + i) = 0 ∧ c.field 0xC39 0 6 = 0 := by
  refine ends_withKeys hon rfl ?_
  rw [almFinish_last s.keys s.chip hp hpend hal his]
  exact almStop_ends s.keys _ 1 p.ts hi hal

/-- A row that ends the only alarm, whatever the cause. -/
theorem ends_of_almStop {r : Instr} {f : Tbl Key → Chip → Chip} {i cause ts : Nat} {a : AlarmSt} (hx : exec r s = .next (s.withKeys fun keys c => c.live (f keys)))
    (hf : f s.keys s.chip = s.chip.almStop s.keys i cause ts) (hi : i < 32) (hal : s.chip.alarms = [(i, a)]) :
    Ends r s fun c => c.alarms = [] ∧ c.isPending 41 = true ∧ c.reg (0xC40 + i) = 0 := by
  obtain ⟨hnone, _, hevent, hhandle, _⟩ := almStop_ends s.keys s.chip cause ts hi hal
  refine ends_withKeys hon hx ?_
  rw [hf]
  exact ⟨hnone, hevent, hhandle⟩

theorem alert_releases (hal : s.chip.alarms = []) (ht : s.chip.alertAt + s.chip.reg 0xC35 ≤ s.chip.tick) :
    Ends .alertRelease s fun c => c.bit 0xC39 6 = false ∧ SameRegs [0xC39] s.chip c := by
  refine ends_onCtl hon rfl ?_
  rw [alertRelease_releases s.chip hal ht]
  exact ⟨bit_putBit_same _ 0xC39 6 false (maskAt_almStatus 6 (by decide)), fun a _ ha => reg_put_other _ _ _ a fun e => ha (List.mem_singleton.mpr e)⟩

end Statement

/-- Settles O37, clause by clause: ageing, the time source, the start and the end of an alarm, its timeouts, and ALERT. -/
theorem galleryTimeAndAlarms : Obligations.GalleryTimeAndAlarms := by
  intro s hon
  refine ⟨gallery_ages hon, fun _ _ _ hu hs ht => source_times_out hon hu hs ht, ?start, ?idle, ?finish, ?expire, alert_releases hon, ?quiet⟩
  case start => exact fun p hp hpend hal => ends_withKeys hon rfl (almTake_starts s.keys s.chip hp hpend hal)
  case idle => exact fun hp => becomes_withKeys hon rfl (almTake_idle s.keys s.chip hp)
  case finish => exact fun p i a hi hp hpend hal his => alarm_ends hon hi hp hpend hal his
  case expire =>
    refine fun i a hi hal => ⟨fun hk ht => ?_, fun hk => ?_, fun t hl hh ht => ?_, fun hl => ?_⟩
    · exact ends_of_almStop hon rfl (almTimeout_silent s.keys s.chip hal hk ht) hi hal
    · exact becomes_withKeys hon rfl (almTimeout_untimed s.keys s.chip hal hk)
    · exact ends_of_almStop hon rfl (almLostExpire_lost s.keys s.chip hal hl hh ht) hi hal
    · exact becomes_withKeys hon rfl (almLostExpire_held s.keys s.chip hal hl)
  case quiet => exact fun hal => becomes_onCtl hon rfl (alertRelease_idle s.chip hal)

end Sys2Proof.Proofs
end

section
/-! What producing a record leaves alone (R20 to R27, R442 to R448): all of the chip but its parameters, events, streams, jobs and Canvas. -/

namespace Sys2Proof.Proofs

open Sys2Proof Sys2Proof.Machine Sys2Proof.Laws

/-- The chip with everything blotted out that a record moves. -/
def besidesRecords (c : Chip) : Chip :=
  { c with regs := [], ev := Chip.reset.ev, out := Chip.reset.out, jobs := [], canvas := Chip.reset.canvas }

theorem besidesRecords_count (c : Chip) (a : Nat) : besidesRecords (c.count a) = besidesRecords c := by
  obtain ⟨_, _, h⟩ := count_only c a
  rw [h]
  rfl

theorem besidesRecords_raise (c : Chip) (n h d : Nat) : besidesRecords (c.raise n h d) = besidesRecords c := by
  obtain ⟨_, _, e⟩ := raise_only c n h d
  rw [e]
  rfl

theorem besidesRecords_raiseSat (c : Chip) (g k : Nat) : besidesRecords (c.raiseSat g k) = besidesRecords c := by
  obtain ⟨_, _, h⟩ := raiseSat_only c g k
  rw [h]
  rfl

theorem besidesRecords_ite {c x y : Chip} {P : Prop} {_ : Decidable P} (hx : besidesRecords x = besidesRecords c) (hy : besidesRecords y = besidesRecords c) :
    besidesRecords (if P then x else y) = besidesRecords c := by split <;> assumption

theorem besidesRecords_put (c : Chip) (a v : Nat) : besidesRecords (c.put a v) = besidesRecords c := rfl
theorem besidesRecords_canvas (c : Chip) (x : CanvasSt) : besidesRecords { c with canvas := x } = besidesRecords c := rfl

theorem besidesRecords_setFill (c : Chip) (p n : Nat) : besidesRecords (c.setFill p n) = besidesRecords c := by
  unfold Chip.setFill
  simp only [apply_ite besidesRecords, besidesRecords_raise, besidesRecords_canvas, besidesRecords_put, ite_self]

theorem besidesRecords_queueChanged (c : Chip) : besidesRecords c.queueChanged = besidesRecords c := by
  unfold Chip.queueChanged
  dsimp only
  split
  · exact besidesRecords_setFill _ _ _
  · rfl

theorem besidesRecords_enqueue (c : Chip) (r : Rec) (j : Option Nat) (cls : Nat) (d : Option Nat) : besidesRecords (c.enqueue r j cls d) = besidesRecords c :=
  besidesRecords_queueChanged _

theorem besidesRecords_lose (c : Chip) (k seq ty handle : Nat) (j : Option Nat) : besidesRecords (c.lose k seq ty handle j) = besidesRecords c :=
  besidesRecords_count _ 0x60C

theorem besidesRecords_dropElastic (c : Chip) (need : Nat) (sys : Bool) (n : Nat) : besidesRecords (c.dropElastic need sys n) = besidesRecords c := by
  induction n generalizing c with
  | zero => rfl
  | succ n ih =>
    unfold Chip.dropElastic
    split
    · rfl
    · split
      · rfl
      · exact (ih _).trans (besidesRecords_lose _ _ _ _ _ _)

theorem besidesRecords_shedRec (c : Chip) (k j order : Nat) : besidesRecords (c.shedRec k j order) = besidesRecords c := by
  unfold Chip.shedRec
  dsimp only
  split
  · exact besidesRecords_count _ 0x70E
  · exact (besidesRecords_ite (besidesRecords_raiseSat _ 3 _) rfl).trans ((besidesRecords_ite rfl (besidesRecords_raise _ 26 _ _)).trans
      (besidesRecords_count _ 0x70E))

theorem besidesRecords_produceN (c : Chip) (r : RecSpec) (fuel : Nat) : besidesRecords (c.produceN r fuel) = besidesRecords c := by
  induction fuel generalizing c r with
  | zero => rfl
  | succ n ih =>
    have hroom : ∀ (b : Chip) (P : Prop) (_ : Decidable P) (need : Nat) (sys : Bool) (m : Nat),
        besidesRecords (if P then b.dropElastic need sys m else b) = besidesRecords b := fun b _ _ need sys m =>
      besidesRecords_ite (besidesRecords_dropElastic b need sys m) rfl
    have hkept : ∀ (b : Chip) (k : Nat) (f : Stream → Stream) (q : Rec) (j : Option Nat) (cls : Nat) (d : Option Nat),
        besidesRecords ((b.modStream k f).enqueue q j cls d) = besidesRecords b := fun b k f q j cls d => besidesRecords_enqueue (b.modStream k f) q j cls d
    unfold Chip.produceN
    dsimp only
    refine besidesRecords_ite rfl (besidesRecords_ite ?_ ?_)
    · split
      · exact (ih _ _).trans ((hkept _ _ _ _ _ _ _).trans (hroom _ _ _ _ _ _))
      · exact (hkept _ _ _ _ _ _ _).trans (hroom _ _ _ _ _ _)
    · split
      · exact (besidesRecords_ite (besidesRecords_shedRec _ _ _ _) (besidesRecords_lose _ _ _ _ _ _)).trans (hroom _ _ _ _ _ _)
      · exact (besidesRecords_lose _ _ _ _ _ _).trans (hroom _ _ _ _ _ _)

/-- A record moves parameters, events, streams, jobs and Canvas, and nothing else of the chip. -/
theorem besidesRecords_produce (c : Chip) (r : RecSpec) : besidesRecords (c.produce r) = besidesRecords c := besidesRecords_produceN c r 3

theorem produce_swts (c : Chip) (r : RecSpec) : (c.produce r).swts = c.swts :=
  show (besidesRecords (c.produce r)).swts = (besidesRecords c).swts by rw [besidesRecords_produce]

/-- Of the parameters a record moves those of pages 0x01, 0x06 and 0x07. -/
theorem produce_sameButRecords (c : Chip) (r : RecSpec) : SameButRecords [] c (c.produce r) := fun a ha _ => by
  simp only [List.mem_cons, List.not_mem_nil, or_false, not_or] at ha
  obtain ⟨h1, h6, h7⟩ := ha
  exact (produce_keeps (R := fun a => a / 256 ∈ [6, 7]) (fun _ h => h) c r).regs a h1 (by simp [h6, h7])

end Sys2Proof.Proofs
end

section
/-! An entry of the coverage log (R319 to R321, Table 10-10). -/

namespace Sys2Proof.Proofs

open Sys2Proof Sys2Proof.Machine Sys2Proof.Laws

/-! Its bytes. -/

theorem unle_le (n v : Nat) : unle (le n v) = v % 256 ^ n := by
  induction n generalizing v with
  | zero => exact (Nat.mod_one v).symm
  | succ n ih =>
    have hbyte : (b8 v).toNat = v % 256 := BitVec.toNat_ofNat v 8
    rw [le, unle, ih, hbyte, Nat.pow_succ', Nat.mod_mul]

/-- The first word of an entry is the low half of its timestamp (Table 10-10). -/
theorem leAt_timestamp {t : Nat} {l : List Byte} (h : l.take 4 = le 4 (t % 2 ^ 48)) : leAt l 0 4 = t % 2 ^ 32 := by
  rw [leAt, List.drop_zero, h, unle_le]
  omega

/-! Its four words. -/

/-- Word `w` of entry `n` takes its four bytes. -/
def logWord (n : Nat) (bytes : List Byte) (c : Chip) (w : Nat) : Chip :=
  { c with swtLog := Tbl.set 0 c.swtLog (4 * (n % 32768) + w) (w32 (leAt bytes (4 * w) 4)) }

theorem logPut_eq (c : Chip) (n : Nat) (bytes : List Byte) : c.logPut n bytes = c.each (List.range 4) (logWord n bytes) := rfl

theorem logPut_regs (c : Chip) (n : Nat) (bytes : List Byte) : (c.logPut n bytes).regs = c.regs := by
  rw [logPut_eq]
  exact each_frame Chip.regs (logWord n bytes) (fun _ _ => rfl) _ c

theorem logPut_swts (c : Chip) (n : Nat) (bytes : List Byte) : (c.logPut n bytes).swts = c.swts := by
  rw [logPut_eq]
  exact each_frame Chip.swts (logWord n bytes) (fun _ _ => rfl) _ c

/-- The later words leave the first one of the entry alone. -/
theorem logPut_first (c : Chip) (n : Nat) (bytes : List Byte) :
    Tbl.get 0 (c.logPut n bytes).swtLog (4 * (n % 32768)) = w32 (leAt bytes 0 4) := by
  have hlater : ∀ (d : Chip) (w : Nat), w ∈ [1, 2, 3] → Tbl.get 0 (logWord n bytes d w).swtLog (4 * (n % 32768)) = Tbl.get 0 d.swtLog (4 * (n % 32768)) :=
    fun d w hw => tbl_get_set_other _ _ _ _ _ _ (by simp only [List.mem_cons, List.not_mem_nil, or_false] at hw; omega)
  have hsplit : c.logPut n bytes = (logWord n bytes c 0).each [1, 2, 3] (logWord n bytes) := rfl
  rw [hsplit, each_frame_mem (fun d : Chip => Tbl.get 0 d.swtLog (4 * (n % 32768))) hlater]
  exact tbl_get_set_same _ _ _ _

/-! The log's figures. -/

theorem logFill_congr {c d : Chip} (hwr : d.reg 0xB08 = c.reg 0xB08) (hrd : d.reg 0xB09 = c.reg 0xB09) : d.logFill = c.logFill := by
  unfold Chip.logFill
  rw [hwr, hrd]

/-- SWT_LOG_FILL and SWT_LOG_PEAK follow the fill. -/
def logNoted (c : Chip) : Chip :=
  if (c.put 0xB0A c.logFill).reg 0xB0E < c.logFill then (c.put 0xB0A c.logFill).put 0xB0E c.logFill else c.put 0xB0A c.logFill

theorem reg_logNoted_fill (c : Chip) (h : c.logFill ≤ 32768) : (logNoted c).reg 0xB0A = c.logFill := by
  have hfill : (c.put 0xB0A c.logFill).reg 0xB0A = c.logFill := reg_put_fits c 0xB0A _ 16 (by decide) (by decide) (by omega)
  unfold logNoted
  split
  · rw [reg_put_other _ _ _ _ (by decide), hfill]
  · exact hfill

theorem reg_logNoted_other (c : Chip) {a : Nat} (ha : a ∉ [0xB0A, 0xB0E]) : (logNoted c).reg a = c.reg a := by
  simp only [List.mem_cons, List.not_mem_nil, or_false, not_or] at ha
  obtain ⟨hfill, hpeak⟩ := ha
  unfold logNoted
  split <;> simp only [reg_put_other, hfill, hpeak, ne_eq, not_false_eq_true]

theorem logNoted_swts (c : Chip) : (logNoted c).swts = c.swts := by
  unfold logNoted
  rw [apply_ite Chip.swts, put_swts, put_swts, ite_self]

theorem logNoted_swtLog (c : Chip) : (logNoted c).swtLog = c.swtLog := by
  unfold logNoted
  rw [apply_ite Chip.swtLog, put_swtLog, put_swtLog, ite_self]

/-- Event 47 with its hysteresis, at the high-water mark `hw` and the fill `n` (R321). -/
def logMarked (c : Chip) (hw n : Nat) : Chip :=
  if c.swtHigh then (if 10 ≤ hw ∧ 100 * n < (hw - 10) * 32768 then { c with swtHigh := false } else c)
  else if hw * 32768 ≤ 100 * n then { c with swtHigh := true }.raise 47 (handleBlock 0x0B) n
  else c

theorem logChanged_eq (c : Chip) : c.logChanged = logMarked (logNoted c) (c.reg 0xB0B) c.logFill := rfl

/-- Event 47 moves parameters of page 0x01 only, and neither the intervals nor the log. -/
theorem logMarked_frame (c : Chip) (hw n : Nat) :
    (∀ a, a / 256 ≠ 1 → (logMarked c hw n).reg a = c.reg a) ∧ (logMarked c hw n).swts = c.swts ∧ (logMarked c hw n).swtLog = c.swtLog := by
  unfold logMarked
  split
  · split <;> exact ⟨fun _ _ => rfl, rfl, rfl⟩
  · split
    · exact ⟨fun a ha => reg_raise_other _ 47 _ _ a (by decide) ha, raise_swts _ 47 _ _, raise_swtLog _ 47 _ _⟩
    · exact ⟨fun _ _ => rfl, rfl, rfl⟩

/-! The entry is written. -/

/-- The entry's words are in the log and SWT_LOG_WR has stepped; the fill is not noted yet. -/
def logStepped (c : Chip) (bytes : List Byte) : Chip := (c.logPut (c.reg 0xB08) bytes).put 0xB08 ((c.reg 0xB08 + 1) % 2 ^ 32)

theorem logWrite_room (c : Chip) (bytes : List Byte) (h : c.logFill < 32768) : c.logWrite bytes = (logStepped c bytes).logChanged := by
  have hnot : ¬ 32768 ≤ c.logFill := by omega
  simp [Chip.logWrite, logStepped, hnot]

theorem reg_logStepped_write (c : Chip) (bytes : List Byte) : (logStepped c bytes).reg 0xB08 = (c.reg 0xB08 + 1) % 2 ^ 32 :=
  reg_put_full _ _ _ (by decide) (Nat.mod_lt _ (by decide))

theorem reg_logStepped_other (c : Chip) (bytes : List Byte) {a : Nat} (ha : a ≠ 0xB08) : (logStepped c bytes).reg a = c.reg a := by
  unfold logStepped
  rw [reg_put_other _ _ _ _ ha, reg_eq_of_regs (logPut_regs c _ bytes)]

theorem logFill_logStepped (c : Chip) (bytes : List Byte) (h : c.logFill < 32768) : (logStepped c bytes).logFill = c.logFill + 1 := by
  have hwr := reg_lt c 0xB08
  have hrd := reg_lt c 0xB09
  unfold Chip.logFill at h ⊢
  rw [reg_logStepped_write, reg_logStepped_other c bytes (a := 0xB09) (by decide)]
  omega

/-- An entry that finds room stands where SWT_LOG_WR was, SWT_LOG_WR and the fill step, and outside page 0x01 the log's figures alone move (R320). -/
theorem logWrite_writes (c : Chip) (bytes : List Byte) (h : c.logFill < 32768) :
    (c.logWrite bytes).swts = c.swts ∧ (c.logWrite bytes).reg 0xB08 = (c.reg 0xB08 + 1) % 2 ^ 32 ∧ (c.logWrite bytes).logFill = c.logFill + 1 ∧
      (c.logWrite bytes).reg 0xB0A = c.logFill + 1 ∧ Tbl.get 0 (c.logWrite bytes).swtLog (4 * (c.reg 0xB08 % 32768)) = w32 (leAt bytes 0 4) ∧
      SameRegs [0xB08, 0xB0A, 0xB0E] c (c.logWrite bytes) := by
  rw [logWrite_room c bytes h]
  generalize hd : logStepped c bytes = d
  have hwr : d.reg 0xB08 = (c.reg 0xB08 + 1) % 2 ^ 32 := hd ▸ reg_logStepped_write c bytes
  have hother : ∀ a, a ≠ 0xB08 → d.reg a = c.reg a := fun a ha => hd ▸ reg_logStepped_other c bytes ha
  have hfill : d.logFill = c.logFill + 1 := hd ▸ logFill_logStepped c bytes h
  have hfirst : Tbl.get 0 d.swtLog (4 * (c.reg 0xB08 % 32768)) = w32 (leAt bytes 0 4) := hd ▸ logPut_first c (c.reg 0xB08) bytes
  have hswts : d.swts = c.swts := hd ▸ logPut_swts c (c.reg 0xB08) bytes
  obtain ⟨hregs, hintervals, hlog⟩ := logMarked_frame (logNoted d) (d.reg 0xB0B) d.logFill
  rw [← logChanged_eq] at hregs hintervals hlog
  have hreg : ∀ a, a / 256 ≠ 1 → a ∉ [0xB0A, 0xB0E] → d.logChanged.reg a = d.reg a := fun a h1 ha => (hregs a h1).trans (reg_logNoted_other d ha)
  refine ⟨?_, ?_, ?_, ?_, ?_, fun a h1 ha => ?_⟩
  · rw [hintervals, logNoted_swts, hswts]
  · rw [hreg 0xB08 (by decide) (by decide), hwr]
  · rw [logFill_congr (hreg 0xB08 (by decide) (by decide)) (hreg 0xB09 (by decide) (by decide)), hfill]
  · rw [hregs 0xB0A (by decide), reg_logNoted_fill d (by omega), hfill]
  · rw [hlog, logNoted_swtLog, hfirst]
  · obtain ⟨hwr', hfigures⟩ := not_or.mp (mt List.mem_cons.mpr ha)
    rw [hreg a h1 hfigures, hother a hwr']

end Sys2Proof.Proofs
end

section
/-! O42: the Swatch of the interval that ended first (R304 to R307, R319 to R321). -/

namespace Sys2Proof.Proofs

open Sys2Proof Sys2Proof.Machine Sys2Proof.Laws

/-! Which intervals are valid, and what the count of one leaves. -/

/-- The Swatch of an interval carries a valid result (R305, Table 10-3). -/
def swtValid (ty : Nat) (e : SwtEnd) : Bool :=
  decide ((ticksOf (e.data.filter (SwtPoint.covers ty))).length ≠ 0) && (if ty = 0x48 then e.causes &&& 0x3B == 0 else e.causes == 0)

theorem swtValid_iff (ty : Nat) (e : SwtEnd) : swtValid ty e = true ↔
    (ticksOf (e.data.filter (SwtPoint.covers ty))).length ≠ 0 ∧ (if ty = 0x48 then e.causes &&& 0x3B = 0 else e.causes = 0) := by
  unfold swtValid
  rw [Bool.and_eq_true, decide_eq_true_iff]
  split <;> simp only [beq_iff_eq]

/-- Interval `e` of job `j` is taken, with the intervals `r` behind it, and its Swatch is counted; what the manual leaves undefined in it uses up
one free value. -/
def swtCounted (c : Chip) (j ty : Nat) (e : SwtEnd) (r : List SwtEnd) : Chip :=
  let c := (c.setSwt j { c.swt j with ended := r }).count 0xB01
  (if swtValid ty e then c else c.count 0xB02).freeWord.2

/-- The counted Swatch is reported as the descriptor `d` asks: in a record, in a log entry, or both. -/
def swtReported (c : Chip) (d : List Byte) (rec : RecSpec) (entry : List Byte) : Chip :=
  let c := if mRecords d then c.produce rec else c
  if mLog d then c.logWrite entry else c

section Count
variable (c : Chip) (j ty : Nat) (e : SwtEnd) (r : List SwtEnd)

theorem swtCounted_swts : (swtCounted c j ty e r).swts = (c.setSwt j { c.swt j with ended := r }).swts := by
  unfold swtCounted
  dsimp only [Chip.freeWord]
  split <;> simp only [count_swts]

/-- Whatever is done to the chip after the count, the interval is gone as long as the intervals stay. -/
theorem ended_of_swts {d : Chip} (h : d.swts = (swtCounted c j ty e r).swts) : (d.swt j).ended = r := by
  unfold Chip.swt
  rw [h, swtCounted_swts]
  exact congrArg SwtSt.ended (tbl_get_set_same _ _ _ _)

/-- SWT_REC_CNT or SWT_INVALID_CNT below its largest value takes one increment, and nothing else moves (R565). -/
theorem swtCount_regs {a : Nat} (ha : a = 0xB01 ∨ a = 0xB02) (h : c.reg a < 0xFFFFFFFF) :
    (c.count a).reg a = c.reg a + 1 ∧ ∀ b, b ≠ a → (c.count a).reg b = c.reg b := by
  have hmask : maskAt a = 0xFFFFFFFF := by rcases ha with rfl | rfl <;> decide
  refine ⟨reg_count_same c a 32 hmask (by decide) (by omega), fun b hb => ?_⟩
  unfold Chip.count Chip.countBy
  rw [if_pos (by omega), reg_put_other _ _ _ _ hb]

variable (h1 : c.reg 0xB01 < 0xFFFFFFFF) (h2 : c.reg 0xB02 < 0xFFFFFFFF)
include h1 h2

/-- One Swatch more is counted, and one invalid Swatch more where it is not valid. -/
theorem swtCounted_regs : (swtCounted c j ty e r).reg 0xB01 = c.reg 0xB01 + 1 ∧
    (swtCounted c j ty e r).reg 0xB02 = c.reg 0xB02 + (if swtValid ty e then 0 else 1) ∧
    ∀ a, a ∉ [0xB01, 0xB02] → (swtCounted c j ty e r).reg a = c.reg a := by
  generalize hb : c.setSwt j { c.swt j with ended := r } = b
  have hbase : ∀ a, b.reg a = c.reg a := fun _ => hb ▸ rfl
  obtain ⟨hall, hother⟩ := swtCount_regs b (.inl rfl) ((hbase 0xB01).symm ▸ h1)
  generalize hd : b.count 0xB01 = d at hall hother
  have hinvalid : d.reg 0xB02 = c.reg 0xB02 := (hother 0xB02 (by decide)).trans (hbase 0xB02)
  have hsame : ∀ a, a ∉ [0xB01, 0xB02] → d.reg a = c.reg a := fun a ha => (hother a fun h => ha (by simp [h])).trans (hbase a)
  rw [hbase] at hall
  have hfree : ∀ x : Chip, ∀ a, x.freeWord.2.reg a = x.reg a := fun _ _ => rfl
  simp only [swtCounted, hb, hd, hfree]
  cases swtValid ty e
  case true => exact ⟨hall, hinvalid, hsame⟩
  case false =>
    obtain ⟨hone, hrest⟩ := swtCount_regs d (.inr rfl) (hinvalid.symm ▸ h2)
    exact ⟨(hrest 0xB01 (by decide)).trans hall, by rw [if_neg Bool.false_ne_true, if_neg Bool.false_ne_true, hone, hinvalid],
      fun a ha => (hrest a fun h => ha (by simp [h])).trans (hsame a ha)⟩

end Count

/-! The row. -/

section Complete
variable {c : Chip} {j : Nat} {y : Job} {e : SwtEnd} {r : List SwtEnd} (hy : c.job? j = some y) (he : (c.swt j).ended = e :: r)
include hy he

/-- An interval whose measurements are not complete waits. -/
theorem swatchEnd_waits (h : c.swtComplete y.desc e.stop = false) : c.swatchEnd j = c := by
  unfold Chip.swatchEnd
  rw [hy, he]
  exact if_pos (by rw [h]; rfl)

/-- A complete one is counted and reported; an entry begins with the time at which the interval started (Table 10-10). -/
theorem swatchEnd_reports (h : c.swtComplete y.desc e.stop = true) : ∃ rec entry, leAt entry 0 4 = e.start % 2 ^ 32 ∧
    c.swatchEnd j = swtReported (swtCounted c j (mType y.desc) e r) y.desc rec entry := by
  unfold Chip.swatchEnd
  rw [hy, he]
  exact ⟨_, _, leAt_timestamp rfl, if_neg (by rw [h]; decide)⟩

end Complete

section Statement
variable {s : State} {j : Nat} {y : Job} {e : SwtEnd} {r : List SwtEnd} (hon : s.chip.ctlOn = true) (hy : s.chip.job? j = some y)
  (he : (s.chip.swt j).ended = e :: r) (h1 : s.chip.reg 0xB01 < 0xFFFFFFFF) (h2 : s.chip.reg 0xB02 < 0xFFFFFFFF) (hc : s.chip.swtComplete y.desc e.stop = true)
include hon hy he h1 h2 hc

/-- Without logging the Swatch is counted, with or without a record. -/
theorem swatch_unlogged (hl : mLog y.desc = false) : Ends (.swatchIntervalEnd j) s fun c => (c.swt j).ended = r ∧
    c.reg 0xB01 = s.chip.reg 0xB01 + 1 ∧ c.reg 0xB02 = s.chip.reg 0xB02 + (if swtValid (mType y.desc) e then 0 else 1) ∧
      SameButRecords [0xB01, 0xB02] s.chip c := by
  refine ends_onCtl hon rfl ?_
  obtain ⟨rec, entry, -, heq⟩ := swatchEnd_reports hy he hc
  have hended := fun d => ended_of_swts s.chip j (mType y.desc) e r (d := d)
  obtain ⟨hall, hinvalid, hsame⟩ := swtCounted_regs s.chip j (mType y.desc) e r h1 h2
  rw [heq]
  generalize swtCounted s.chip j (mType y.desc) e r = d at hended hall hinvalid hsame
  simp only [swtReported, hl, Bool.false_eq_true, if_false]
  split
  · have hregs := produce_sameButRecords d rec
    exact ⟨hended _ (produce_swts d rec), (hregs 0xB01 (by decide) (by decide)).trans hall, (hregs 0xB02 (by decide) (by decide)).trans hinvalid,
      fun a ha hx => (hregs a ha (by simp)).trans (hsame a hx)⟩
  · exact ⟨hended d rfl, hall, hinvalid, fun a _ hx => hsame a hx⟩

/-- With logging alone, and room in the log, the Swatch is an entry of the coverage log. -/
theorem swatch_logged (hl : mLog y.desc = true) (hr : mRecords y.desc = false) (hroom : s.chip.logFill < 32768) :
    Ends (.swatchIntervalEnd j) s fun c => (c.swt j).ended = r ∧
      c.reg 0xB08 = (s.chip.reg 0xB08 + 1) % 2 ^ 32 ∧ c.logFill = s.chip.logFill + 1 ∧ c.reg 0xB0A = s.chip.logFill + 1 ∧
      (Tbl.get 0 c.swtLog (4 * (s.chip.reg 0xB08 % 32768))).toNat = e.start % 2 ^ 32 ∧ SameRegs [0xB01, 0xB02, 0xB08, 0xB0A, 0xB0E] s.chip c := by
  refine ends_onCtl hon rfl ?_
  obtain ⟨rec, entry, hstart, heq⟩ := swatchEnd_reports hy he hc
  have hended := fun d => ended_of_swts s.chip j (mType y.desc) e r (d := d)
  obtain ⟨-, -, hsame⟩ := swtCounted_regs s.chip j (mType y.desc) e r h1 h2
  rw [heq]
  generalize swtCounted s.chip j (mType y.desc) e r = d at hended hsame
  have hwr : d.reg 0xB08 = s.chip.reg 0xB08 := hsame 0xB08 (by decide)
  have hfill : d.logFill = s.chip.logFill := logFill_congr hwr (hsame 0xB09 (by decide))
  obtain ⟨hswts, hstep, hfull, hshown, hword, hregs⟩ := logWrite_writes d entry (hfill ▸ hroom)
  rw [hwr] at hstep hword
  rw [hfill] at hfull hshown
  simp only [swtReported, hl, hr, Bool.false_eq_true, if_false, if_true]
  refine ⟨hended _ hswts, hstep, hfull, hshown, ?_, fun a ha hx => ?_⟩
  · rw [hword, hstart, w32, BitVec.toNat_ofNat]
    omega
  · have hcounts : a ∉ [0xB01, 0xB02] := fun h => hx (List.mem_append_left [0xB08, 0xB0A, 0xB0E] h)
    have hfigures : a ∉ [0xB08, 0xB0A, 0xB0E] := fun h => hx (List.mem_append_right [0xB01, 0xB02] h)
    exact (hregs a ha hfigures).trans (hsame a hcounts)

end Statement

/-- Settles O42: an incomplete interval waits; a complete one is counted, and logged where the job asks for entries alone. -/
theorem swatchIntervals : Obligations.SwatchIntervals := by
  intro s j y e r hon hy he h1 h2
  refine ⟨fun hc => becomes_onCtl hon rfl (swatchEnd_waits hy he hc), fun hc => ⟨fun hl => ?_, fun hl hr hroom => ?_⟩⟩
  · simpa only [swtValid_iff] using swatch_unlogged hon hy he h1 h2 hc hl
  · exact swatch_logged hon hy he h1 h2 hc hl hr hroom

end Sys2Proof.Proofs
end
